-- ==== Sys2Proof/Word.lean ====
section
/-! DEFINITION. The words the block's formats are made of, and nothing that a rule could change. -/
namespace Sys2Proof

/-- One byte of a binary format. -/
abbrev Byte := BitVec 8
/-- A byte string, first byte first (R10). -/
abbrev Bytes := List Byte
/-- A 32-bit word of a register, a tag or an FP32 pattern. -/
abbrev Word := BitVec 32
/-- An FP32 value by its binary32 pattern (R12). -/
abbrev F32 := BitVec 32
/-- An FP64 value by its binary64 pattern (R12). -/
abbrev F64 := BitVec 64

end Sys2Proof
end

