-- ==== Sys2Proof/Syntax.lean ====
section
/-! DEFINITION. The commands of the block: one constructor per row of spec/opcode_table.json, with the operands the
row's event or opcode brings. The table gives no bits, so the operands are this model's (log entry 1).

Events of the surroundings carry `after`, the block clock cycles since the command before, where the moment of the
event matters (R31, R55, R73); marks and other events of time itself move the time base to their instant.
The 135 opcodes carry a `Request`: an authenticated packet's path, session and parameters (R375). -/
namespace Sys2Proof

/-- A full stamp (Table TIM-1). -/
structure Stamp where
  sec : Nat
  ns : Nat
  sub : Nat
  deriving DecidableEq, Repr

/-- When an edge comes that is stamped finer than the block clock (R55, R69): the block clock cycles since the command
before, and the distance behind that block clock edge in 1/32 ns, the unit of R446. -/
structure Instant where
  after : Nat
  phase : Nat
  deriving DecidableEq, Repr

/-- A network endpoint: 16 B IPv6 address and UDP port. -/
structure Endpoint where
  addr : Bytes
  port : Nat
  deriving DecidableEq, Repr

/-- One parameter (R374): type, value length as carried, value bytes. -/
structure Tlv where
  ty : Nat
  val : Bytes
  deriving DecidableEq, Repr

/-- The path a packet took to its target (R386 to R388). -/
inductive Path where
  | host
  | door (d : Nat) (origin : Bytes)
  | mgmt (src : Endpoint)
  deriving DecidableEq, Repr

/-- A packet past row 7 of Table CMD-5: what an opcode executes. -/
structure Request where
  after : Nat
  path : Path
  session : Nat
  version : Nat
  seq : Nat
  body : List Tlv
  deriving DecidableEq, Repr

/-- The stop declaration of R305. -/
structure StopDecl where
  clockKHz : Nat
  regions : List (Nat × Nat)            -- region index, declared stop latency
  channels : List (Nat × Nat × Nat)     -- receiving region, sending link entity, capacity in flits
  deriving DecidableEq, Repr

/-- What the surroundings present when the block leaves reset (R464, Table PWR-18). -/
structure StartEnv where
  config : Bytes                        -- start-up configuration, 256 B (Table PWR-15)
  doorLat : List (Nat × Nat)            -- per door, DR_TXLAT and DR_RXLAT, 1/32 ns (R446)
  decls : List (Nat × List Bytes)       -- per Window port, the 16 B units from address 0 (R82)
  sensorMap : List Word                 -- 80 words (R449)
  trim : List Word                      -- factory trim, fuse words 0 to 143 (Table PWR-5A)
  repairs : List Word                   -- fuse words 144 on
  kernelLib : Nat
  kernelCount : Nat
  tilePort : List Nat                   -- per tile, the tile-group port that serves it (R447)
  traceDecl : List Word                 -- per source (R273)
  watchDecl : List Word                 -- per bus (R297)
  stopDecl : StopDecl
  stoppedRegions : List Nat             -- regions that stand stopped (R306)
  stacksPowered : Bool                  -- the memory stacks kept power (R289)
  deriving DecidableEq, Repr

/-- One increment word of a Window port (R86, R448). -/
structure IncWord where
  entry : Nat
  amount : Nat
  deriving DecidableEq, Repr

/-- A window event as presented (R94). -/
structure WinEvent where
  code : Nat
  entity : Nat
  payload : Bytes                       -- 12 B
  size : Option Nat
  clock : Nat                           -- WP_CLKST at the edge (R73)
  before : Nat                          -- WP_CLKST at the edge before it (R74)
  deriving DecidableEq, Repr

/-- Kinds of PTP message the block hears (Table TIM-3). -/
inductive PtpKind where
  | sync | followUp | delayResp | announce | other
  deriving DecidableEq, Repr

/-- A PTP message as received (R68). Times are in 2^-16 ns. -/
structure PtpMsg where
  kind : PtpKind
  version : Nat
  minor : Nat
  domain : Nat
  seq : Nat
  source : Bytes                        -- sourcePortIdentity, 10 B
  twoStep : Bool
  origin : Nat                          -- originTimestamp, preciseOriginTimestamp or receiveTimestamp
  correction : Int
  interval : Int                        -- logMessageInterval
  mine : Bool                           -- a Delay_Resp names this port as the requester
  priority1 : Nat
  clockClass : Nat
  quality : Nat                         -- accuracy, variance, priority2 in comparison order
  grandmaster : Bytes
  stepsRemoved : Nat
  utcOffset : Int
  utcValid : Bool
  leap59 : Bool
  leap61 : Bool
  deriving DecidableEq, Repr

/-- The fragment header of a datagram's fragment (R386). -/
structure Fragment where
  ident : Nat
  offset : Nat
  more : Bool
  deriving DecidableEq, Repr

/-- ICMPv6 messages the block answers (R454). -/
inductive IcmpMsg where
  | echo (src : Bytes) (data : Bytes)
  | solicit (src : Bytes) (target : Bytes)
  | advert (addr : Bytes) (mac : Bytes)
  | other
  deriving DecidableEq, Repr

/-- An access a watched bus presents (R297). -/
structure Access where
  bus : Nat
  granule : Nat
  len : Nat                             -- granules, 1 to 4
  write : Bool
  data : Option Bytes                   -- with a write: the first granule's 64 B (R451)
  deriving DecidableEq, Repr

/-- A tile's probe signals at a scheduler pass (R223, R234). -/
structure TileSignal where
  idle : Bool
  horizon : Nat
  busy : Nat                            -- adjacent tiles' busy cycles in the last 8,192 cycles
  deriving DecidableEq, Repr

/-- What a finished run presents (R224, R234). -/
structure ProbeResult where
  status : Nat                          -- 0 OK, 1 FAULT, 2 YIELDED
  signature : BitVec 64
  cycles : Nat                          -- T, GO to DONE
  busy : Nat                            -- B over the adjacent tiles
  deriving DecidableEq, Repr

/-- A forwarded timed cut, cancel or resume (R312, R314, R323). -/
structure CutArm where
  op : Nat                              -- 0 arm, 1 cancel, 2 resume
  serial : Word
  stop : Stamp
  mode : Nat
  resume : Option Stamp
  deriving DecidableEq, Repr

/-- Inputs of the panel port (Table PNL-1). -/
inductive PanelInput where
  | presence (cage : Nat)
  | touch (cage : Nat)
  | locate
  | hold
  deriving DecidableEq, Repr

/-- A host door access (R398). -/
structure HostAccess where
  write : Bool
  offset : Nat
  width : Nat                           -- bytes
  data : Word
  deriving DecidableEq, Repr

/-- The block's commands, one constructor per row of the table. -/
inductive Instr where
  /-- SUPPLY_VALID (R355): PC_SUPPLY_OK rises with PC_REFCLK running, starting a power-up block reset. -/
  | supplyValid (pcycle : Nat) (hours : Nat)
  /-- EXTERNAL_BLOCK_RESET (R466): PC_RST_N is asserted and released, resetting the block only. -/
  | externalBlockReset
  /-- SRAM_UNCORRECTABLE_ERROR (R369): An uncorrectable error in a non-recorder bank puts the block into reset with cause 3. -/
  | sramUncorrectableError (bank : Nat) (address : Nat)
  /-- WATCHDOG_EXPIRY (R432): Sixteen ticks pass without firmware servicing the watchdog, and the block resets with cause 2. -/
  | watchdogExpiry
  /-- LEAVE_RESET (R464): Once the PLL has locked and the start-up configuration is accepted, the block leaves reset: time starts and warm/cold is judged. -/
  | leaveReset (env : StartEnv)
  /-- READY (R464): Start-up completes, PC_READY rises, and counters, frames and door training start. -/
  | ready
  /-- SELF_TEST_COMPLETE (R416): The boundary pre-operational tests end, and the boundary enters OPERATIONAL or ERROR. -/
  | selfTestComplete (passed : Bool)
  /-- ENTROPY_TEST_FAILURE (R416): A continuous entropy health test fails, and the boundary enters ERROR and asserts PC_BERR. -/
  | entropyTestFailure
  /-- FIRMWARE_BOOT (R428): The boot ROM verifies and starts a firmware slot, or requests or loads the boot image. -/
  | firmwareBoot
  /-- HOUR_COUNTER_EXPIRY (R357): The hour counter reaches 3.6e12 cycles, operating hours increment and are presented. -/
  | hourCounterExpiry
  /-- TICK (R15): Global time reaches the tick of the next frame, and the frame engine begins that frame. -/
  | tick
  /-- START_UP_SPAN_ELAPSED (R212): The start-up span elapses and the Glen engine enters SERVICE. -/
  | startUpSpanElapsed
  /-- RECOVERY_SPAN_ELAPSED (R212): The recovery span elapses and the Glen engine returns to SERVICE. -/
  | recoverySpanElapsed
  /-- SAMPLED_VALUE (R88): A sampled counter value arrives and updates live value, delta and raw sample. -/
  | sampledValue (port : Nat) (value : BitVec 64)
  /-- SAMPLE_LATE (R87): 4 µs after the tick a port's samples are incomplete: STALE is set and SAMPLE_LATE is raised. -/
  | sampleLate (port : Nat)
  /-- SNAPSHOT_SWAP (R92): Step 1 ends with all deltas formed, the new snapshot is swapped in, and tracker updates begin. -/
  | snapshotSwap
  /-- TRACKER_UPDATE_END (R27): Step 2 ends, and pre-reduction and feature assembly with Glen evaluation begin side by side. -/
  | trackerUpdateEnd
  /-- ENTITY_EVALUATED (R209): A lane finishes walking and rounding an entity's heads and is free for the next entity. -/
  | entityEvaluated (lane : Nat)
  /-- SEND_CUTOFF (R27): Evaluation stops, head metrics are reduced, and the contribution is completed and sent. -/
  | sendCutoff
  /-- CONTRIBUTION_ARRIVAL (R35): A hub judges an arriving contribution against the outcomes of Table FRM-5. -/
  | contributionArrival (after : Nat) (door : Nat) (item : Bytes)
  /-- SUMMARY_ARRIVAL (R35): A pod or root hub judges an arriving tray or pod summary. -/
  | summaryArrival (after : Nat) (door : Nat) (item : Bytes)
  /-- PASS_ITEM_BEGIN (R152): The Pass units admit all operations of an accepted item once room in flight allows. -/
  | passItemBegin (item : Nat)
  /-- PASS_ITEM_APPLIED (R152): The last operation of a begun item completes, and the item counts as applied. -/
  | passItemApplied (item : Nat)
  /-- INPUT_CLOSE (R31): A hub's input close passes, and it stops accepting items of the frame. -/
  | inputClose
  /-- HUB_MARK (R33): A hub closes the frame, discards unbegun items and sends its summary. -/
  | hubMark
  /-- ROOT_MARK (R158): A root settles the check outcome, sets flags and broadcasts or withholds its returned summary. -/
  | rootMark
  /-- ROOT_CHECK_ARRIVAL (R157): A root takes the peer's root check for the frame between its input close and root mark. -/
  | rootCheckArrival (after : Nat) (door : Nat) (body : Bytes)
  /-- ROOT_PARAMETERS_ARRIVAL (R25): The secondary root takes the primary's current and pending frame parameters. -/
  | rootParametersArrival (after : Nat) (door : Nat) (body : Bytes)
  /-- POD_SELECT_POINT (R164): A pod hub selects the primary's or secondary's returned summary to forward. -/
  | podSelectPoint
  /-- TRAY_SELECT_POINT (R164): A tray hub selects pod hub A's or B's returned summary to forward to its die doors. -/
  | traySelectPoint
  /-- RETURNED_SUMMARY_ARRIVAL (R165): A die unit accepts at most one complete returned summary per frame, or discards it. -/
  | returnedSummaryArrival (after : Nat) (door : Nat) (aborted : Bool) (item : Bytes)
  /-- RETURN_MARK (R232): The probe window opens on die units, and hub evaluation stops. -/
  | returnMark
  /-- RETURN_CLOSE (R45): Acceptance of the frame's returned summary ends, and the summary index is built. -/
  | returnClose
  /-- EXCHANGE_INTERVAL (R58): A parent opens a time exchange by sending a time flit, and stale exchanges are invalidated. -/
  | exchangeInterval (after : Nat) (door : Nat)
  /-- TIME_FLIT_ARRIVAL (R60): A time flit is received and stamped, and the child answers or computes offset and delay. -/
  | timeFlitArrival (at_ : Instant) (door : Nat) (bad : Bool) (body : Bytes)
  /-- FILTER_PERIOD_END (R63): The servo takes the 4th smallest offset and corrects rate or steps time. -/
  | filterPeriodEnd
  /-- HOLDOVER_ENTRY (R64): Sixteen exchange intervals pass with no valid exchange while LOCKED, entering HOLDOVER. -/
  | holdoverEntry
  /-- HOLDOVER_LIMIT_EXCEEDED (R65): A non-root unit's estimated error passes its holdover limit, and it enters UNLOCKED. -/
  | holdoverLimitExceeded
  /-- SECONDARY_OWN_SOURCE (R62): A secondary root that lost the primary for 16 intervals moves to its own source. -/
  | secondaryOwnSource
  /-- PTP_MESSAGE (R68): A PTP Sync, Follow_Up, Delay_Resp or Announce message is received and stamped. -/
  | ptpMessage (after : Nat) (msg : PtpMsg)
  /-- DELAY_REQ (R68): The PTP root sends a Delay_Req at its configured rate. -/
  | delayReq (after : Nat)
  /-- PTP_SYNC_LOSS (R68): No valid Sync arrives for 8 Sync intervals and the root enters HOLDOVER. -/
  | ptpSyncLoss
  /-- PPS_EDGE (R69): An EXT_PPS edge is stamped and taken as the start of a second, or counted and ignored. -/
  | ppsEdge (at_ : Instant)
  /-- INCREMENT_WORD (R86): A Window port presents increment words that add to pushed counters. -/
  | incrementWord (port : Nat) (words : List IncWord)
  /-- WINDOW_EVENT (R94): A port presents an event, which enters its 32-entry queue or is refused and counted. -/
  | windowEvent (after : Nat) (port : Nat) (ev : WinEvent)
  /-- EVENT_SERVICE (R95): The block takes one event from the port queues by rotation, stamps and stores it, and applies its effect. -/
  | eventService
  /-- STRETCH_EPISODE_END (R75): A region's clock-stretch episode ends and is counted, with an event if long. -/
  | stretchEpisodeEnd (after : Nat) (port : Nat) (cycles : Nat)
  /-- SENSOR_CONVERSION_REQUEST (R100): The sensor hub requests a conversion or gates a frequency count on its schedule. -/
  | sensorConversionRequest (channel : Nat)
  /-- SENSOR_ANSWER (R102): A front end answers a conversion, and the raw code is converted through its trim. -/
  | sensorAnswer (channel : Nat) (code : Nat)
  /-- SENSOR_REQUEST_TIMEOUT (R449): A conversion request unanswered for 2 µs is abandoned and counted. -/
  | sensorRequestTimeout (channel : Nat)
  /-- FLIT_RECEIVE (R139): A flit arrives and is CRC-checked, acknowledged, NAKed or delivered in order. -/
  | flitReceive (after : Nat) (door : Nat) (flit : Bytes)
  /-- REPLAY_TIMEOUT (R139): The oldest unacknowledged flit has waited 6 µs and is replayed, retraining after 8 replays. -/
  | replayTimeout (door : Nat)
  /-- LANE_LOCK_LOSS (R141): A lane loses receiver lock and the door retrains. -/
  | laneLockLoss (door : Nat) (lane : Nat)
  /-- LANE_RETIRE (R141): A lane shows more than 16 sync-header errors in 1 ms and is retired. -/
  | laneRetire (door : Nat) (lane : Nat) (errors : Nat)
  /-- TRAINING_ATTEMPT_TIMEOUT (R140): A training attempt fails to succeed within 1 ms, and a new attempt starts. -/
  | trainingAttemptTimeout (door : Nat)
  /-- QUARANTINE_END (R141): A door's quarantine time elapses, and it trains if enabled. -/
  | quarantineEnd (door : Nat)
  /-- HELLO_ARRIVAL (R147): A hello is received and checked, and the door goes UP, DEGRADED or MISWIRED. -/
  | helloArrival (after : Nat) (door : Nat) (body : Bytes)
  /-- COMMAND_MESSAGE_ARRIVAL (R166): A control message arrives and is executed, or routed up or down by target. -/
  | commandMessageArrival (after : Nat) (door : Nat) (flags : BitVec 8) (target : Word) (body : Bytes)
  /-- REPLY_MESSAGE_ARRIVAL (R387): The origin hub maps a reply by return tag to a datagram, or discards it. -/
  | replyMessageArrival (door : Nat) (target : Word) (body : Bytes)
  /-- COMMAND_HOLD_TIMEOUT (R167): A command held 1 ms without a route is discarded and BUSY is returned. -/
  | commandHoldTimeout
  /-- RETURN_TAG_EXPIRY (R387): A return tag held for 10 s expires. -/
  | returnTagExpiry (tag : Nat)
  /-- MANAGEMENT_DATAGRAM (R386): A UDP/IPv6 datagram on the management port is executed or routed as a command. -/
  | managementDatagram (after : Nat) (src : Endpoint) (frag : Option Fragment) (payload : Bytes)
  /-- FRAGMENT_REASSEMBLY_TIMEOUT (R386): A reassembly incomplete after 1 ms is discarded. -/
  | fragmentReassemblyTimeout (src : Endpoint) (ident : Nat)
  /-- ICMPV6_MESSAGE (R454): An ICMPv6 Echo or Neighbor Solicitation is answered. -/
  | icmpv6Message (msg : IcmpMsg)
  /-- ERROR_RECORD_MESSAGE (R263): An exporter takes error record entries by expected number, or a FORWARD hub passes them up. -/
  | errorRecordMessage (door : Nat) (body : Bytes)
  /-- RECORD_ACKNOWLEDGEMENT (R262): A 0x23 message raises the release point or requests a resend. -/
  | recordAcknowledgement (door : Nat) (body : Bytes)
  /-- ERROR_ENTRY_SEND (R262): A reporter sends ring entries in sequence order with formed gap records when its route allows. -/
  | errorEntrySend
  /-- EXPORT_PERIOD_END (R270): At the end of an export period nonzero signatures are exported as Borven records and zeroed. -/
  | exportPeriodEnd
  /-- TRACE_BUNDLE (R274): A trace source presents executed bundles, which are encoded as RUN and JUMP packets. -/
  | traceBundle (source : Nat) (addrs : List Word) (cycles : Nat)
  /-- LOW_POWER_ENTRY (R279): A source enters a low-power state, the RUN is closed, and POWER enter is written. -/
  | lowPowerEntry (source : Nat) (level : Nat) (cycles : Nat)
  /-- LOW_POWER_EXIT (R279): A source leaves a low-power state, and POWER exit and SYNC RESUME are written. -/
  | lowPowerExit (source : Nat) (addr : Word) (cycles : Nat)
  /-- TIME_INTERVAL_ELAPSE (R278): The TIME interval elapses and a TIME packet is written. -/
  | timeIntervalElapse (source : Nat) (cycles : Nat)
  /-- CHUNK_FLUSH_TIME (R281): A chunk's flush time passes and the chunk is closed. -/
  | chunkFlushTime (source : Nat)
  /-- TRACE_CHUNK_SEND (R282): The die door sends a queued trace chunk, highest priority and oldest first. -/
  | traceChunkSend
  /-- TRACE_MESSAGE_ARRIVAL (R286): A tray hub admits a trace message to its ingress buffer, or refuses it and drops to the next SYNC. -/
  | traceMessageArrival (after : Nat) (door : Nat) (body : Bytes)
  /-- TRIGGER_NOTICE_ARRIVAL (R294): A tray hub receives a trigger notice, logs it and takes its stop instant if none is pending. -/
  | triggerNoticeArrival (after : Nat) (door : Nat) (body : Bytes)
  /-- STOP_INSTANT (R294): A trigger's stop instant is reached, freezing the history region or stopping LOCAL trace. -/
  | stopInstant
  /-- TRAY_TRIGGER_AT_TIME (R293): A tray trigger named for global time T is reached. -/
  | trayTriggerAtTime
  /-- WATCHPOINT_ACCESS (R298): A watched bus presents an access, which is compared with every watchpoint and its hits acted on. -/
  | watchpointAccess (after : Nat) (acc : Access)
  /-- WATCHED_READ_DATA (R302): A watched read's data arrives later and is captured for a DATA hit. -/
  | watchedReadData (bus : Nat) (data : Bytes)
  /-- CAPTURE_EXPIRY (R301): Data capture reaches its expiry frame, ends, and the store is zeroed. -/
  | captureExpiry
  /-- PROBE_SCHEDULER_PASS (R237): Each microsecond of the window the scheduler examines tiles and starts eligible probes. -/
  | probeSchedulerPass (tiles : List TileSignal)
  /-- PROBE_DONE (R224): A tile reports DONE, and the run is judged pass, fail or yielded and recorded. -/
  | probeDone (tile : Nat) (result : ProbeResult)
  /-- PROBE_DURATION_EXPIRY (R226): DONE has not arrived by start plus declared duration, so ABORT is asserted. -/
  | probeDurationExpiry (tile : Nat)
  /-- PROBE_ABORT_TIMEOUT (R226): No DONE within 4 µs of ABORT, the tile is hung and PROBE_HUNG is raised. -/
  | probeAbortTimeout (tile : Nat)
  /-- RETEST_LIMIT_EXPIRY (R239): A retest gets no counted rerun within the retest limit and ends UNRESOLVED. -/
  | retestLimitExpiry (tile : Nat)
  /-- PROBE_STARVED (R241): A tile has no completed run in D non-window-short frames, and PROBE_STARVED is raised. -/
  | probeStarved (tile : Nat)
  /-- PASSING_RECORD_DROP (R243): A passing probe record unsent after 64 frames is dropped and counted. -/
  | passingRecordDrop
  /-- PROBE_RUN_TIMEOUT (R246): A queued PROBE.RUN has not ended after 1,000 frames and is replied. -/
  | probeRunTimeout (tile : Nat)
  /-- PROBE_PACK_ARRIVAL (R231): A pushed probe pack arrives by bulk, and is forwarded or installed. -/
  | probePackArrival (door : Nat) (item : Bytes)
  /-- PACK_OUTCOME_ARRIVAL (R231): Pack outcome counts from below are gathered and passed upward. -/
  | packOutcomeArrival (door : Nat) (item : Bytes)
  /-- SCAN_IMAGE_ARRIVAL (R320): A tray hub stores an arriving scan image transfer in the image area. -/
  | scanImageArrival (door : Nat) (serial : Nat) (item : Bytes)
  /-- HANG_DUMP_ARRIVAL (R326): A tray hub stores an arriving hang dump image. -/
  | hangDumpArrival (door : Nat) (serial : Nat) (item : Bytes)
  /-- RESERVE_ARRIVAL (R320): A tray hub reserves image area for a scan and answers OK or NO_SPACE. -/
  | reserveArrival (door : Nat) (item : Bytes)
  /-- RESERVE_REPLY_ARRIVAL (R320): A die unit's scan begins on OK, or ends with NO_SPACE. -/
  | reserveReplyArrival (item : Bytes)
  /-- TRACE_READOUT_ARRIVAL (R168): A hub receives history entries in a bulk trace readout. -/
  | traceReadoutArrival (door : Nat) (item : Bytes)
  /-- RECORDER_MIRROR_ARRIVAL (R361): A hub appends arriving recorder entries to the unit's mirror log, discarding repeats. -/
  | recorderMirrorArrival (door : Nat) (item : Bytes)
  /-- MIRROR_ENTRY_SEND (R361): A die unit sends written recorder entries to its tray hub when credit allows. -/
  | mirrorEntrySend
  /-- AUDIT_RECORD_ARRIVAL (R438): A tray hub places an arriving die audit record at its leaf. -/
  | auditRecordArrival (door : Nat) (item : Bytes)
  /-- AUDIT_NODE_ARRIVAL (R438): A pod or root hub takes an arriving audit node for its key. -/
  | auditNodeArrival (door : Nat) (item : Bytes)
  /-- AUDIT_CLOSE (R438): An audit level closes at S plus its lead, computes its node and sends it or forms the job record. -/
  | auditClose (tag : Word) (sealFrame : Nat)
  /-- AUDIT_TRANSFER (R435): The audit port takes a transfer of stream bytes for a channel. -/
  | auditTransfer (channel : Nat) (data : Bytes)
  /-- AUDIT_LOSS (R451): An audit tap signals lost bytes, and the channel is flagged INCOMPLETE. -/
  | auditLoss (channels : BitVec 16)
  /-- BOOT_REQUEST_ARRIVAL (R428): A tray hub sends its served die boot image to a requesting die unit. -/
  | bootRequestArrival (door : Nat) (item : Bytes)
  /-- BOOT_IMAGE_ARRIVAL (R428): A die unit places the received boot image in slot A. -/
  | bootImageArrival (item : Bytes)
  /-- TRIAL_END (R431): A handed-over slot completes 1,024 trial frames, is confirmed, and the security minimum rises. -/
  | trialEnd
  /-- CUT_ARRIVAL (R312): A die unit checks a forwarded timed cut and arms, or reports a refusal. -/
  | cutArrival (after : Nat) (door : Nat) (cut : CutArm)
  /-- CUT_OUTCOME_REPORT (R312): A tray hub records a die unit's latest outcome for a cut serial. -/
  | cutOutcomeReport (door : Nat) (serial : Word) (counts : List Nat)
  /-- TIMED_STOP_INSTANT (R313): An armed die unit asserts stop requests so every running region stops at T. -/
  | timedStopInstant
  /-- REGION_STOP_ACK (R309): A region reports its stop, and its n and stop cycle are recorded. -/
  | regionStopAck (region : Nat) (n : Nat) (stopCycle : Nat) (clock : Nat) (offset : Int)
  /-- REGION_ACK_TIMEOUT (R309): A region unstopped after 1 µs is NO_ACK, and the stop completes without it. -/
  | regionAckTimeout (region : Nat)
  /-- CHANNEL_CLOSED (R316): A declared channel closes with its status, and STOPPING ends when all are closed. -/
  | channelClosed (channel : Nat) (status : Nat) (flits : Nat) (offset : Int)
  /-- SCAN_END (R319): A scan's segments complete, and the Shutter enters SCANNED or HELD. -/
  | scanEnd (output : List Bytes)
  /-- RESUME_INSTANT (R323): A named resume instant arrives and regions are released on their die-clock edges. -/
  | resumeInstant
  /-- REGION_RESET_PULSE (R324): The stop port reports a region reset, and HELD returns to IDLE when all are reset. -/
  | regionResetPulse (region : Nat)
  /-- HANG_DECLARED (R325): The hang count reaches H, HANG is set, and the hang action dumps or stops. -/
  | hangDeclared
  /-- CODEC_BLOCK (R344): The codec engine takes the highest-priority ready context and codes or decodes one block. -/
  | codecBlock
  /-- RECORDER_WRITE (R352): The recorder writes the next queued entry, valid mark last, and advances the head. -/
  | recorderWrite
  /-- RECORDER_CLEAR_DONE (R360): Zeroing of the recorder banks completes, and CLEARED and queued entries are written. -/
  | recorderClearDone
  /-- PARTIAL_LOG_FLUSH (R459): Once per second the hub writes each partial mirror log block. -/
  | partialLogFlush
  /-- STORAGE_COMPLETION (R459): An SSD command completes, storing entries or retrying and failing an area. -/
  | storageCompletion (tag : Nat) (status : Nat)
  /-- STORE_COMPLETION (R456): A store tag completes, and a poisoned or failed status raises STORE_FAULT. -/
  | storeCompletion (stack : Nat) (address : Nat) (status : Nat)
  /-- STORE_READY_CHANGE (R456): An SM_RDY bit changes, making the store port usable or unusable. -/
  | storeReadyChange (stack : Nat) (ready : Bool)
  /-- PATROL_SCRUB (R362): The patrol scrubber reads a row in an idle cycle and corrects a single-bit error. -/
  | patrolScrub (bank : Nat) (row : Nat) (fixed : Bool)
  /-- BANK_CHANGE_COMPLETE (R367): A bank reaches its new state, BANK_STATE is recorded and SRM.SET_BANK replies. -/
  | bankChangeComplete (bank : Nat)
  /-- PANEL_INPUT_ACCEPTED (R468): A debounced panel input change is accepted, logged, and opens a window or toggles Locate. -/
  | panelInputAccepted (input : PanelInput) (level : Bool) (debounce : Nat)
  /-- SERVICE_WINDOW_CLOSE (R470): A cage's service window closes 30 s after release and return of presence. -/
  | serviceWindowClose (cage : Nat)
  /-- HOLD_PRESS (R473): Hold stays pressed 3 s and counts once, as a tray trigger on a tray hub. -/
  | holdPress
  /-- HOST_DOOR_WRITE (R398): A host writes a register or window word without a row of its own, or an invalid access sets BAD_ACCESS. -/
  | hostDoorWrite (access : HostAccess)
  /-- W1C_WRITE (R14): Writing 1 clears a W1C status bit unless hardware sets it in the same cycle. -/
  | w1cWrite (offset : Nat) (data : Word) (hardware : Word)
  /-- COMMAND_TAKE (R388): A host write to offset 28 + L takes the packet into the command queue and sets CMD_BUSY. -/
  | commandTake (after : Nat) (data : Word)
  /-- TIME_LATCH_READ (R410): A read of UZ_TIM_NOW_SEC_LO latches the time stamp and frame number together. -/
  | timeLatchRead (after : Nat)
  /-- COUNTER_LATCH_READ (R93): A read of UZ_CTR_DATA_LO latches the selected counter value and flags. -/
  | counterLatchRead
  /-- RECORDER_LATCH_READ (R359): A read of UZ_EVR_HEAD_LO latches recorder head and base together. -/
  | recorderLatchRead
  /-- ERROR_RING_LATCH_READ (R408): A read of UZ_ERR_HEAD_LO latches head, tail, fetched and status. -/
  | errorRingLatchRead
  /-- FRAME_SET (R24): Sets frame parameters at an activation frame. -/
  | frameSet (r : Request)
  /-- FRAME_GET (R396): Returns current and pending frame parameters, anchor and current frame. -/
  | frameGet (r : Request)
  /-- FRAME_SET_GROUP (R39): Sets job tag and group at an activation frame. -/
  | frameSetGroup (r : Request)
  /-- FRAME_GET_STATS (R35): Returns per-child outcome counts and the skipped-frame counter. -/
  | frameGetStats (r : Request)
  /-- FRAME_GET_PRESENCE (R37): Returns presence maps of a frame. -/
  | frameGetPresence (r : Request)
  /-- FRAME_GET_CONTRIBUTION (R44): Reads one of the last 64 contributions. -/
  | frameGetContribution (r : Request)
  /-- TIME_GET (R77): Returns time, lock and servo state. -/
  | timeGet (r : Request)
  /-- TIME_SET (R53): Writes time on a parentless UNLOCKED or FREE unit. -/
  | timeSet (r : Request)
  /-- TIME_SET_SOURCE (R67): Sets a root hub's time source and PTP domain. -/
  | timeSetSource (r : Request)
  /-- TIME_SET_TOD (R69): Sets the seconds for the next external pulse. -/
  | timeSetTod (r : Request)
  /-- TIME_SET_CAL (R57): Sets per-door asymmetry, PHY delays and cable delay. -/
  | timeSetCal (r : Request)
  /-- TIME_SET_SERVO (R78): Sets servo settings of Table TIM-8. -/
  | timeSetServo (r : Request)
  /-- TIME_SET_UTC (R51): Sets the UTC offset and leap bits on the primary root. -/
  | timeSetUtc (r : Request)
  /-- TIME_STEP_ROOT (R71): Schedules a fleet time step at frame F on the primary root. -/
  | timeStepRoot (r : Request)
  /-- WIN_GET (R106): Returns per-port declaration, enable and counts. -/
  | winGet (r : Request)
  /-- WIN_SET_ENABLE (R87): Disables or enables a port at frame F. -/
  | winSetEnable (r : Request)
  /-- WIN_GET_STREAM (R97): Returns a stream entity's stall and lateness state. -/
  | winGetStream (r : Request)
  /-- CTR_READ (R92): Reads live or snapshot copies of up to 512 counters. -/
  | ctrRead (r : Request)
  /-- CTR_CLEAR (R91): Clears a counter range at frame F. -/
  | ctrClear (r : Request)
  /-- CTR_GET_MAP (R85): Returns names and owners of counter indices. -/
  | ctrGetMap (r : Request)
  /-- SEN_READ (R100): Returns sensor values and flags. -/
  | senRead (r : Request)
  /-- SEN_GET (R103): Returns the sensor map and trim versions. -/
  | senGet (r : Request)
  /-- SEN_STAGE_TRIM (R105): Stages a signed trim table image. -/
  | senStageTrim (r : Request)
  /-- SEN_ACTIVATE_TRIM (R104): Activates the staged trim at frame F. -/
  | senActivateTrim (r : Request)
  /-- RED_STAGE_CATALOGUE (R123): Stages a signed metric catalogue. -/
  | redStageCatalogue (r : Request)
  /-- RED_ACTIVATE_CATALOGUE (R124): Activates a staged catalogue at frame F. -/
  | redActivateCatalogue (r : Request)
  /-- RED_GET_CATALOGUE (R135): Returns active and staged catalogues of a group. -/
  | redGetCatalogue (r : Request)
  /-- RED_GET_SUMMARY (R135): Returns the unit's own summary of a recent frame. -/
  | redGetSummary (r : Request)
  /-- RED_GET_RETURNED (R135): Returns the last accepted returned summary. -/
  | redGetReturned (r : Request)
  /-- RED_TEST (R135): Reduces given FP32 values without touching frame state. -/
  | redTest (r : Request)
  /-- RED_GET_CHECK (R158): Returns a root's check basis, digests and outcome. -/
  | redGetCheck (r : Request)
  /-- DOOR_GET (R171): Returns per-door state and counts. -/
  | doorGet (r : Request)
  /-- DOOR_SET (R171): Enables or disables a door and sets flap limit and quarantine time at frame F. -/
  | doorSet (r : Request)
  /-- DOOR_RETRAIN (R141): Retrains a door at once. -/
  | doorRetrain (r : Request)
  /-- DOOR_CLEAR_QUARANTINE (R141): Ends a door's quarantine. -/
  | doorClearQuarantine (r : Request)
  /-- DOOR_GET_STATS (R171): Returns per-door per-class statistics. -/
  | doorGetStats (r : Request)
  /-- FEA_STAGE_TABLE (R191): Stages a feature table image. -/
  | feaStageTable (r : Request)
  /-- FEA_ACTIVATE_TABLE (R192): Activates the staged feature table at frame F. -/
  | feaActivateTable (r : Request)
  /-- FEA_GET_TABLE (R195): Returns feature table images and versions. -/
  | feaGetTable (r : Request)
  /-- FEA_GET_VECTOR (R195): Returns one entity's feature vector. -/
  | feaGetVector (r : Request)
  /-- PLN_READ (R190): Returns the state of up to 256 trackers. -/
  | plnRead (r : Request)
  /-- PLN_RESET (R193): Restarts trackers of a metric at frame F. -/
  | plnReset (r : Request)
  /-- PLN_GET_ALARMS (R195): Returns alarm counts per tracker metric. -/
  | plnGetAlarms (r : Request)
  /-- GLEN_STAGE_PAGE (R200): Stages a signed model page. -/
  | glenStagePage (r : Request)
  /-- GLEN_ACTIVATE (R219): Activates a staged model at frame F. -/
  | glenActivate (r : Request)
  /-- GLEN_DEACTIVATE (R221): Deactivates the active model at frame F. -/
  | glenDeactivate (r : Request)
  /-- GLEN_GET (R222): Returns model versions, mode and evaluation state. -/
  | glenGet (r : Request)
  /-- GLEN_SET_MODE (R212): Sets the engine mode and spans at frame F. -/
  | glenSetMode (r : Request)
  /-- GLEN_SET_STRAGGLER (R217): Sets the straggler rule at frame F. -/
  | glenSetStraggler (r : Request)
  /-- GLEN_EVAL (R222): Evaluates the active model on one entity with overrides. -/
  | glenEval (r : Request)
  /-- GLEN_TEST_LINK (R207): Returns logistic intermediates for given values. -/
  | glenTestLink (r : Request)
  /-- GLEN_GET_FINDINGS (R216): Returns the findings ring. -/
  | glenGetFindings (r : Request)
  /-- GLEN_GET_HISTORY (R222): Returns head and straggler histories. -/
  | glenGetHistory (r : Request)
  /-- PROBE_INSTALL_PACK (R228): Verifies, decompresses and stages a probe pack. -/
  | probeInstallPack (r : Request)
  /-- PROBE_ACTIVATE_PACK (R230): Activates the staged pack at frame F. -/
  | probeActivatePack (r : Request)
  /-- PROBE_PUSH_PACK (R231): Distributes a pack through a hub's subtree. -/
  | probePushPack (r : Request)
  /-- PROBE_END_PUSH (R231): Ends distribution of a push to late children. -/
  | probeEndPush (r : Request)
  /-- PROBE_GET_PUSH (R231): Returns push outcome counts. -/
  | probeGetPush (r : Request)
  /-- PROBE_SET (R245): Sets probe settings at frame F. -/
  | probeSet (r : Request)
  /-- PROBE_GET (R246): Returns probe settings and per-tile state. -/
  | probeGet (r : Request)
  /-- PROBE_GET_COVERAGE (R236): Returns coverage cells of tiles. -/
  | probeGetCoverage (r : Request)
  /-- PROBE_CLEAR_COVERAGE (R242): Clears cells and retests at frame F. -/
  | probeClearCoverage (r : Request)
  /-- PROBE_DISABLE_TILE (R246): Stops scheduling on a tile at frame F. -/
  | probeDisableTile (r : Request)
  /-- PROBE_RESUME_TILE (R226): Re-enables a disabled or hung tile at frame F. -/
  | probeResumeTile (r : Request)
  /-- PROBE_RUN (R246): Queues one probe on one tile for the next window. -/
  | probeRun (r : Request)
  /-- ERR_SET_ROUTE (R260): Sets the delivery route of a die unit or hub. -/
  | errSetRoute (r : Request)
  /-- ERR_FETCH (R264): Returns and releases held records per reporter. -/
  | errFetch (r : Request)
  /-- ERR_GET (R272): Returns ring and exporter state. -/
  | errGet (r : Request)
  /-- ERR_READ_RING (R272): Reads own ring entries without releasing. -/
  | errReadRing (r : Request)
  /-- ERR_INJECT (R272): Raises a record of an integrator class. -/
  | errInject (r : Request)
  /-- ERR_SET_EXPORT (R266): Sets export collector, session, enables and periods. -/
  | errSetExport (r : Request)
  /-- ERR_GET_SIGNATURES (R270): Returns current signatures and overflow. -/
  | errGetSignatures (r : Request)
  /-- PSN_GET_BIRTHS (R253): Returns birth table entries. -/
  | psnGetBirths (r : Request)
  /-- PSN_GET_COUNTS (R255): Returns poison counts. -/
  | psnGetCounts (r : Request)
  /-- TRC_SET (R275): Sets trace settings at frame F. -/
  | trcSet (r : Request)
  /-- TRC_GET (R304): Returns trace settings and per-source state. -/
  | trcGet (r : Request)
  /-- TRC_TRIGGER (R293): Raises a COMMAND trigger or a tray trigger. -/
  | trcTrigger (r : Request)
  /-- TRC_ARM (R295): Ends a freeze or LOCAL stop and re-arms watchpoint triggers. -/
  | trcArm (r : Request)
  /-- TRC_GET_TRIGGERS (R294): Returns the trigger log and freeze state. -/
  | trcGetTriggers (r : Request)
  /-- TRC_READ (R285): Reads LOCAL ring chunks. -/
  | trcRead (r : Request)
  /-- TRC_READ_HISTORY (R288): Reads history store entries. -/
  | trcReadHistory (r : Request)
  /-- TRC_SET_HISTORY (R289): Sets history region size and discards it. -/
  | trcSetHistory (r : Request)
  /-- TRC_GET_STATS (R304): Returns per-door trace statistics. -/
  | trcGetStats (r : Request)
  /-- WPT_SET (R300): Sets and arms watchpoints at frame F. -/
  | wptSet (r : Request)
  /-- WPT_GET (R304): Returns watchpoint settings and counts. -/
  | wptGet (r : Request)
  /-- WPT_ENABLE_DATA (R301): Authorises data capture until an expiry frame. -/
  | wptEnableData (r : Request)
  /-- WPT_DISABLE_DATA (R301): Ends data capture and zeroes the store. -/
  | wptDisableData (r : Request)
  /-- WPT_READ_CAPTURE (R302): Returns capture entries, optionally clearing the store. -/
  | wptReadCapture (r : Request)
  /-- SHUTTER_SET (R307): Enables stop sources at frame F. -/
  | shutterSet (r : Request)
  /-- SHUTTER_STOP (R308): Requests an immediate stop with a scan mode. -/
  | shutterStop (r : Request)
  /-- SHUTTER_ARM_TIMED (R311): Arms a timed cut over a scope. -/
  | shutterArmTimed (r : Request)
  /-- SHUTTER_CANCEL_TIMED (R314): Cancels a timed cut before T. -/
  | shutterCancelTimed (r : Request)
  /-- SHUTTER_SCAN (R320): Starts a scan in STOPPED or SCANNED. -/
  | shutterScan (r : Request)
  /-- SHUTTER_ABORT_SCAN (R321): Ends a scan after the segments in progress. -/
  | shutterAbortScan (r : Request)
  /-- SHUTTER_RESUME (R323): Releases stopped regions at once or at an instant. -/
  | shutterResume (r : Request)
  /-- SHUTTER_SET_HANG (R325): Sets hang detection at frame F. -/
  | shutterSetHang (r : Request)
  /-- SHUTTER_STAGE_PROGRAM (R328): Stages a signed scan program. -/
  | shutterStageProgram (r : Request)
  /-- SHUTTER_ACTIVATE_PROGRAM (R328): Swaps scan program slots at frame F. -/
  | shutterActivateProgram (r : Request)
  /-- SHUTTER_GET (R330): Returns Shutter state, arm and hang state. -/
  | shutterGet (r : Request)
  /-- SHUTTER_GET_CUT (R312): Returns cut outcomes or counts. -/
  | shutterGetCut (r : Request)
  /-- SHUTTER_SET_AREA (R320): Sets the image area size at frame F. -/
  | shutterSetArea (r : Request)
  /-- SHUTTER_LIST_IMAGES (R330): Lists image heads. -/
  | shutterListImages (r : Request)
  /-- SHUTTER_READ_IMAGE (R330): Reads image bytes from an offset. -/
  | shutterReadImage (r : Request)
  /-- SHUTTER_RELEASE_IMAGE (R320): Frees an image. -/
  | shutterReleaseImage (r : Request)
  /-- SHUTTER_READ_SCAN (R321): Reads scan output over the host door, advancing the scan. -/
  | shutterReadScan (r : Request)
  /-- CDC_GET (R348): Returns codec context and use state. -/
  | cdcGet (r : Request)
  /-- CDC_TEST (R348): Runs a test compression or decompression. -/
  | cdcTest (r : Request)
  /-- EVR_READ (R359): Reads recorder entries by sequence. -/
  | evrRead (r : Request)
  /-- EVR_GET (R371): Returns recorder state. -/
  | evrGet (r : Request)
  /-- EVR_CLEAR (R360): Starts clearing the recorder. -/
  | evrClear (r : Request)
  /-- EVR_READ_MIRROR (R371): Reads a unit's mirror log. -/
  | evrReadMirror (r : Request)
  /-- EVR_GET_MIRROR (R371): Returns mirror log state. -/
  | evrGetMirror (r : Request)
  /-- EVR_CLEAR_MIRROR (R361): Clears named mirror logs. -/
  | evrClearMirror (r : Request)
  /-- SRM_GET (R371): Returns bank states and error counts. -/
  | srmGet (r : Request)
  /-- SRM_SET_BANK (R367): Changes the state of named banks. -/
  | srmSetBank (r : Request)
  /-- SRM_GET_MAP (R365): Returns the bank allocation. -/
  | srmGetMap (r : Request)
  /-- HSH_GET (R441): Returns audit channel state. -/
  | hshGet (r : Request)
  /-- HSH_SET_AUDIT (R435): Sets audit channels or seeds at frame F. -/
  | hshSetAudit (r : Request)
  /-- HSH_GET_DIGEST (R441): Returns sealed records or nodes per key. -/
  | hshGetDigest (r : Request)
  /-- HSH_GET_JOB_DIGEST (R439): Returns a job record and digest. -/
  | hshGetJobDigest (r : Request)
  /-- SEC_GET (R441): Returns boundary, ownership and slot state. -/
  | secGet (r : Request)
  /-- SEC_GET_CERT (R420): Returns the certificate chain and an attestation. -/
  | secGetCert (r : Request)
  /-- SEC_OPEN_SESSION (R422): Checks a grant and opens a session. -/
  | secOpenSession (r : Request)
  /-- SEC_CLOSE_SESSION (R423): Closes a session. -/
  | secCloseSession (r : Request)
  /-- SEC_ROTATE_KEY (R424): Rotates a session key, anchor or ownership key, or zeroises. -/
  | secRotateKey (r : Request)
  /-- SEC_SELF_TEST (R416): Repeats the boundary self-tests. -/
  | secSelfTest (r : Request)
  /-- SEC_STAGE_FIRMWARE (R429): Stages a firmware image in the inactive slot. -/
  | secStageFirmware (r : Request)
  /-- SEC_HANDOVER (R430): Schedules a firmware handover at frame F. -/
  | secHandover (r : Request)
  /-- CMD_GET (R397): Returns session, queue and refusal counts. -/
  | cmdGet (r : Request)
  /-- CMD_ECHO (R397): Returns its data unchanged. -/
  | cmdEcho (r : Request)
  /-- PWR_GET (R474): Returns power, reset and port state. -/
  | pwrGet (r : Request)
  /-- PWR_SET (R463): Sets idle gating and lane park at frame F. -/
  | pwrSet (r : Request)
  /-- PNL_GET (R474): Returns per-cage panel state. -/
  | pnlGet (r : Request)
  /-- PNL_SET_LED (R472): Sets LED modes and the locate lamp at once. -/
  | pnlSetLed (r : Request)
  /-- PNL_GET_LOG (R471): Reads the panel log. -/
  | pnlGetLog (r : Request)
  /-- SUPPLY_LOSS (R462): PC_SUPPLY_OK falls and the block loses power, losing all state except what lies outside it or in kept store memory. -/
  | supplyLoss
  /-- REGION_RELEASED (R306): A released region drops SP_ACK_r, and the Shutter leaves RESUMING for IDLE when every stopped region is released. -/
  | regionReleased (region : Nat)
  /-- STORAGE_READY_CHANGE (R458): SS_RDY changes and the storage port becomes usable or unusable, enabling mirror credit and the hub's cold boot from the firmware store. -/
  | storageReadyChange (ready : Bool) (capacity : Nat)
  deriving DecidableEq, Repr

end Sys2Proof
end

