-- ==== Sys2Proof/Machine/Bytes.lean ====
section
/-! DEFINITION. Bytes, fields and integers: little-endian order (R10), bit fields, LEB128 and zigzag (R276),
CRC-32C (R138), saturating counts, and association lists in one canonical form. -/
namespace Sys2Proof.Machine

/-! ### Little-endian integers (R10) -/

/-- The number that a byte string spells, first byte least significant. -/
def le : Bytes → Nat
  | [] => 0
  | b :: bs => b.toNat + 256 * le bs

/-- `n` bytes of a number, first byte least significant. -/
def toLe : Nat → Nat → Bytes
  | 0, _ => []
  | n + 1, v => BitVec.ofNat 8 v :: toLe n (v / 256)

/-- `len` bytes from `off` on. -/
def slice (bs : Bytes) (off len : Nat) : Bytes := (bs.drop off).take len

/-- The `n`-byte integer at `off`; bytes past the end read as nothing. -/
def rd (bs : Bytes) (off n : Nat) : Nat := le (slice bs off n)

/-- The byte at `off`, 0 past the end. -/
def byteAt (bs : Bytes) (off : Nat) : Nat := (bs.getD off 0).toNat

/-- Bits `[lo + n - 1 : lo]` of a number. -/
def bits (v lo n : Nat) : Nat := (v / 2 ^ lo) % 2 ^ n

/-- Bit `k` of a number. -/
def bit (v k : Nat) : Bool := bits v k 1 == 1

/-- 1 for true. -/
def b2n (b : Bool) : Nat := if b then 1 else 0

/-- `n` zero bytes (R11: reserved fields are written 0). -/
def zeros (n : Nat) : Bytes := List.replicate n 0

/-- Whether a run of bytes is all zero. -/
def allZero (bs : Bytes) : Bool := bs.all (· == 0)

/-- A byte string extended with zeros to a multiple of `k`. -/
def padTo (k : Nat) (bs : Bytes) : Bytes := bs ++ zeros ((k - bs.length % k) % k)

/-- A byte string cut or extended with zeros to exactly `n` bytes. -/
def fit (n : Nat) (bs : Bytes) : Bytes := (bs ++ zeros (n - bs.length)).take n

/-- `bs` with `new` written from `off` on. -/
def splice (bs : Bytes) (off : Nat) (new : Bytes) : Bytes :=
  bs.take off ++ new ++ bs.drop (off + new.length)

/-- A two's complement reading of an `n`-bit number. -/
def signed (n v : Nat) : Int := if v ≥ 2 ^ (n - 1) then (v : Int) - 2 ^ n else v

/-- The `n`-bit two's complement pattern of an integer. -/
def unsigned (n : Nat) (v : Int) : Nat := (v % (2 ^ n : Int)).toNat

/-- `n` bytes of a signed integer. -/
def toLeS (n : Nat) (v : Int) : Bytes := toLe n (unsigned (8 * n) v)

/-- Cut a byte string into runs of `k` bytes; `fuel` bounds the number of runs. -/
def chunksOf (fuel k : Nat) (bs : Bytes) : List Bytes :=
  match fuel with
  | 0 => []
  | f + 1 => if bs.isEmpty then [] else bs.take k :: chunksOf f k (bs.drop k)

/-- The fixed-size records of a byte string. -/
def records (k : Nat) (bs : Bytes) : List Bytes := chunksOf bs.length k bs

/-! ### Counts -/

/-- A sum that stops at `max` (R90, R257, R354). -/
def satAdd (max a b : Nat) : Nat := min max (a + b)

/-- The largest value of a counter of the counter file (R90). -/
def u64Max : Nat := 2 ^ 64 - 1
def u32Max : Nat := 2 ^ 32 - 1
def u16Max : Nat := 2 ^ 16 - 1

/-! ### LEB128 and zigzag (R276) -/

/-- Unsigned LEB128 in its shortest form. `fuel` bounds the groups. -/
def leb128F : Nat → Nat → Bytes
  | 0, v => [BitVec.ofNat 8 (v % 128)]
  | f + 1, v => if v < 128 then [BitVec.ofNat 8 v] else BitVec.ofNat 8 (128 + v % 128) :: leb128F f (v / 128)

def leb128 (v : Nat) : Bytes := leb128F 10 v

/-- Reads one LEB128 value: the value and the bytes left. -/
def unleb128 : Bytes → Option (Nat × Bytes)
  | [] => none
  | b :: bs =>
    if b.toNat < 128 then some (b.toNat, bs)
    else (unleb128 bs).map fun (v, r) => (b.toNat % 128 + 128 * v, r)

/-- The zigzag value of a signed delta. -/
def zigzag (d : Int) : Nat := if d ≥ 0 then (2 * d).toNat else (-2 * d - 1).toNat

/-! ### CRC-32C (R138) -/

/-- One bit of the reflected CRC-32C, polynomial 0x1EDC6F41 (reflected 0x82F63B78). -/
def crcBit (c : BitVec 32) : BitVec 32 :=
  if c.getLsbD 0 then (c >>> 1) ^^^ 0x82F63B78#32 else c >>> 1

def crcByte (c : BitVec 32) (b : Byte) : BitVec 32 :=
  (crcBit ∘ crcBit ∘ crcBit ∘ crcBit ∘ crcBit ∘ crcBit ∘ crcBit ∘ crcBit) (c ^^^ b.setWidth 32)

/-- CRC-32C of a byte string: initial value and final XOR all ones, reflected input and output. -/
def crc32c (bs : Bytes) : Nat := ((bs.foldl crcByte 0xFFFFFFFF#32) ^^^ 0xFFFFFFFF#32).toNat

/-! ### Sparse tables: sorted association lists -/

/-- The value of a key, `d` when the table has no entry. -/
def tget {α : Type} (d : α) (k : Nat) : List (Nat × α) → α
  | [] => d
  | (k', v) :: r => if k' = k then v else tget d k r

/-- The entry of a key, if there is one. -/
def tfind {α : Type} (k : Nat) : List (Nat × α) → Option α
  | [] => none
  | (k', v) :: r => if k' = k then some v else tfind k r

/-- A table without a key. -/
def tdel {α : Type} (k : Nat) (t : List (Nat × α)) : List (Nat × α) := t.filter fun e => e.1 != k

/-- A table with an entry put at its place in rising key order; an older entry of the key goes. -/
def tput {α : Type} (k : Nat) (v : α) : List (Nat × α) → List (Nat × α)
  | [] => [(k, v)]
  | (k', v') :: r =>
    if k' < k then (k', v') :: tput k v r
    else if k' = k then (k, v) :: r
    else (k, v) :: (k', v') :: r

/-- Replace element `i` of a list. -/
def modifyAt {α : Type} (i : Nat) (f : α → α) : List α → List α
  | [] => []
  | a :: r => match i with
    | 0 => f a :: r
    | j + 1 => a :: modifyAt j f r

/-- The last `n` elements. -/
def lastN {α : Type} (n : Nat) (l : List α) : List α := l.drop (l.length - n)

/-- Insertion sort by a strict "comes before" test, stable. -/
def insertBy {α : Type} (lt : α → α → Bool) (x : α) : List α → List α
  | [] => [x]
  | y :: ys => if lt x y then x :: y :: ys else y :: insertBy lt x ys

def sortBy {α : Type} (lt : α → α → Bool) (l : List α) : List α :=
  l.foldr (insertBy lt) []

/-- The first of the elements that no other comes before. -/
def bestBy {α : Type} (lt : α → α → Bool) : List α → Option α
  | [] => none
  | x :: xs => match bestBy lt xs with
    | none => some x
    | some y => if lt y x then some y else some x

/-- The distinct elements of a list, first occurrence kept. -/
def dedup {α : Type} [BEq α] (l : List α) : List α :=
  l.foldl (fun acc x => if acc.contains x then acc else acc ++ [x]) []

/-- The sum of a list of numbers. -/
def sumN (l : List Nat) : Nat := l.foldl (· + ·) 0

/-- The first index of a list whose element passes. -/
def findIdx {α : Type} (p : α → Bool) : List α → Option Nat
  | [] => none
  | x :: xs => if p x then some 0 else (findIdx p xs).map (· + 1)

/-- ASCII bytes of a text. -/
def ascii (t : String) : Bytes := t.toList.map fun c => BitVec.ofNat 8 c.toNat

end Sys2Proof.Machine
end

