-- ==== Sys2Proof/Machine/Hash.lean ====
section
/-! DEFINITION. The approved algorithms of Table SEC-1 that are functions of their inputs: SHA-256 (FIPS 180-4),
HMAC-SHA-256 (FIPS 198-1), the Merkle Tree Hash of RFC 9162 (R436), ECDSA P-384 verification (FIPS 186-5) and
AES-256-GCM (SP 800-38D). PRESUMED: the standards' own constants, which the spec names but does not print. -/
namespace Sys2Proof.Machine

/-! ### SHA-256 -/

/-- `n` words packed in a number, the first in its highest bits. -/
def packedWords (n x : Nat) : List Word := (List.range n).map fun i => BitVec.ofNat 32 (x / 2 ^ (32 * (n - 1 - i)))

/-- The round constants of FIPS 180-4, sixteen to a number. -/
def shaK : List Word := [0x428a2f9871374491b5c0fbcfe9b5dba53956c25b59f111f1923f82a4ab1c5ed5d807aa9812835b01243185be550c7dc372be5d7480deb1fe9bdc06a7c19bf174,
  0xe49b69c1efbe47860fc19dc6240ca1cc2de92c6f4a7484aa5cb0a9dc76f988da983e5152a831c66db00327c8bf597fc7c6e00bf3d5a7914706ca635114292967,
  0x27b70a852e1b21384d2c6dfc53380d13650a7354766a0abb81c2c92e92722c85a2bfe8a1a81a664bc24b8b70c76c51a3d192e819d6990624f40e3585106aa070,
  0x19a4c1161e376c082748774c34b0bcb5391c0cb34ed8aa4a5b9cca4f682e6ff3748f82ee78a5636f84c878148cc7020890befffaa4506cebbef9a3f7c67178f2].flatMap (packedWords 16)

/-- The working words of SHA-256 as two histories, newest first: a standard round moves `a`, `b`, `c`, `d` along one and `e`, `f`, `g`, `h`
along the other. -/
structure Sha where
  up : List Word
  low : List Word
  deriving DecidableEq, Repr

def shaInit : Sha := ⟨packedWords 4 0x6a09e667bb67ae853c6ef372a54ff53a, packedWords 4 0x510e527f9b05688c1f83d9ab5be0cd19⟩

def ror (x : Word) (n : Nat) : Word := (x >>> n) ||| (x <<< (32 - n))

/-- The sum of the rotations of a word. -/
def spin (ns : List Nat) (x : Word) : Word := ns.foldl (fun t n => t ^^^ ror x n) 0

/-- A round: `kw` is the round's constant plus the schedule's word. -/
def shaRound (s : Sha) (kw : Word) : Sha :=
  match s.up, s.low with
  | [u0, u1, u2, u3], [l0, l1, l2, l3] =>
    let choose := l2 ^^^ (l0 &&& (l1 ^^^ l2))
    let most := (u0 &&& (u1 ||| u2)) ||| (u1 &&& u2)
    let t := kw + l3 + choose + spin [6, 11, 25] l0
    ⟨[t + most + spin [2, 13, 22] u0, u0, u1, u2], [u3 + t, l0, l1, l2]⟩
  | _, _ => s

/-- One more word of the message schedule; the window holds the last 16 words, oldest first. -/
def shaExtend (w : List Word) : List Word :=
  let at_ (i : Nat) : Word := w.getD i 0
  let near := spin [17, 19] (at_ 14) ^^^ (at_ 14 >>> 10)
  let far := spin [7, 18] (at_ 1) ^^^ (at_ 1 >>> 3)
  w.drop 1 ++ [near + at_ 9 + far + at_ 0]

/-- The rounds of one block: each takes the oldest word of the window and extends it. -/
def shaRounds : List Word → List Word → Sha → Sha
  | [], _, s => s
  | k :: ks, w, s => shaRounds ks (shaExtend w) (shaRound s (k + w.headD 0))

def be32 (b : Bytes) : Word := BitVec.ofNat 32 (le b.reverse)

def shaBlock (s : Sha) (blk : Bytes) : Sha :=
  let r := shaRounds shaK ((chunksOf 16 4 blk).map be32) s
  ⟨List.zipWith (· + ·) s.up r.up, List.zipWith (· + ·) s.low r.low⟩

def shaPad (m : Bytes) : Bytes :=
  let z := (119 - m.length % 64) % 64
  m ++ [0x80] ++ zeros z ++ (toLe 8 (8 * m.length)).reverse

/-- SHA-256 of a byte string, 32 bytes in the order the standard produces (R10). -/
def sha256 (m : Bytes) : Bytes :=
  let p := shaPad m
  let r := (chunksOf (p.length / 64) 64 p).foldl shaBlock shaInit
  (r.up ++ r.low).flatMap fun w => (toLe 4 w.toNat).reverse

/-! ### HMAC-SHA-256 (R373) -/

def hmac (key msg : Bytes) : Bytes :=
  let k := fit 64 (if key.length > 64 then sha256 key else key)
  sha256 (k.map (· ^^^ 0x5C) ++ sha256 (k.map (· ^^^ 0x36) ++ msg))

/-- The trailer of R373: the first 16 bytes of the HMAC of the MAC input. -/
def trailerOf (key target header body : Bytes) : Bytes := (hmac key (target ++ header ++ body)).take 16

/-! ### Merkle trees (R436, R438) -/

def leafHash (chunk : Bytes) : Bytes := sha256 (0x00 :: chunk)
def nodeHash (l r : Bytes) : Bytes := sha256 (0x01 :: (l ++ r))

/-- One pass of pairing; an odd last node rises unpaired, which gives RFC 9162's split at powers of two. -/
def pairUp : List Bytes → List Bytes
  | a :: b :: r => nodeHash a b :: pairUp r
  | l => l

def merkleF : Nat → List Bytes → Bytes
  | 0, l => l.headD []
  | n + 1, l => match l with
    | [] => sha256 []
    | [a] => a
    | l => merkleF n (pairUp l)

/-- The Merkle Tree Hash over leaf hashes. An empty stream has SHA-256 of no bytes (R436). -/
def merkleRoot (leaves : List Bytes) : Bytes :=
  match leaves with
  | [] => sha256 []
  | l => merkleF (l.length + 1) l

/-- A node of R438: all zeros over two all-zero children. -/
def auditNode (l r : Bytes) : Bytes := if allZero l && allZero r then zeros 32 else nodeHash l r

/-- The node over `2^k` leaves given by a look-up (R438). -/
def auditTree (leaf : Nat → Bytes) : Nat → Nat → Bytes
  | 0, i => leaf i
  | k + 1, i => auditNode (auditTree leaf k (2 * i)) (auditTree leaf k (2 * i + 1))

/-! ### ECDSA P-384 verification -/

def p384 : Nat := 2 ^ 384 - 2 ^ 128 - 2 ^ 96 + 2 ^ 32 - 1
def n384 : Nat := 0xFFFFFFFFFFFFFFFFFFFFFFFFFFFFFFFFFFFFFFFFFFFFFFFFC7634D81F4372DDF581A0DB248B0A77AECEC196ACCC52973
def b384 : Nat := 0xB3312FA7E23EE7E4988E056BE3F82D19181D9C6EFE8141120314088F5013875AC656398D8A2ED19D2A85C8EDD3EC2AEF
def gx384 : Nat := 0xAA87CA22BE8B05378EB1C71EF320AD746E1D3B628BA79B9859F741E082542A385502F25DBF55296C3A545E3872760AB7
def gy384 : Nat := 0x3617DE4A96262C6F5D9E98BF9292DC29F8F41DBD289A147CE9DA3113B5F0B8C00A60B1CE1D7E819D7A431D7C90EA0E5F

/-- `a^e mod m`, `fuel` bounding the bits of `e`. -/
def powMod (m : Nat) : Nat → Nat → Nat → Nat
  | 0, _, _ => 1 % m
  | f + 1, a, e => if e = 0 then 1 % m else
    let h := powMod m f (a * a % m) (e / 2)
    if e % 2 = 1 then a * h % m else h

def invMod (m a : Nat) : Nat := powMod m 400 (a % m) (m - 2)

/-- An affine point; none is the point at infinity. -/
abbrev Pt := Option (Nat × Nat)

def ptAdd : Pt → Pt → Pt
  | none, q => q
  | p, none => p
  | some (x1, y1), some (x2, y2) =>
    if x1 = x2 then
      if (y1 + y2) % p384 = 0 then none
      else
        let l := (3 * x1 * x1 + (p384 - 3)) * invMod p384 (2 * y1) % p384
        let x := (l * l + 2 * p384 - x1 - x2) % p384
        some (x, (l * (x1 + p384 - x) + p384 - y1) % p384)
    else
      let l := (y2 + p384 - y1) * invMod p384 (x2 + p384 - x1) % p384
      let x := (l * l + 2 * p384 - x1 - x2) % p384
      some (x, (l * (x1 + p384 - x) + p384 - y1) % p384)

def ptMul : Nat → Nat → Pt → Pt
  | 0, _, _ => none
  | f + 1, k, p => if k = 0 then none else
    let h := ptMul f (k / 2) (ptAdd p p)
    if k % 2 = 1 then ptAdd p h else h

def onCurve (x y : Nat) : Bool :=
  decide (x < p384) && decide (y < p384) && y * y % p384 == (x * x * x + (p384 - 3) * x + b384) % p384

/-- ECDSA P-384 verification over a SHA-256 digest; `x y r s` little-endian integers (R10). -/
def ecdsaVerify (x y r s : Nat) (digest : Bytes) : Bool :=
  if r = 0 || r ≥ n384 || s = 0 || s ≥ n384 || !onCurve x y then false
  else
    let z := le digest.reverse % n384
    let w := invMod n384 s
    match ptAdd (ptMul 385 (z * w % n384) (some (gx384, gy384))) (ptMul 385 (r * w % n384) (some (x, y))) with
    | none => false
    | some (vx, _) => vx % n384 == r

/-! ### AES-256 and GCM -/

/-- The S-box of FIPS 197, a row per high nibble; the entry of low nibble 0 comes first. -/
def sboxRows : List Nat := [
  0x637C777BF26B6FC53001672BFED7AB76, 0xCA82C97DFA5947F0ADD4A2AF9CA472C0,
  0xB7FD9326363FF7CC34A5E5F171D83115, 0x04C723C31896059A071280E2EB27B275,
  0x09832C1A1B6E5AA0523BD6B329E32F84, 0x53D100ED20FCB15B6ACBBE394A4C58CF,
  0xD0EFAAFB434D338545F9027F503C9FA8, 0x51A3408F929D38F5BCB6DA2110FFF3D2,
  0xCD0C13EC5F974417C4A77E3D645D1973, 0x60814FDC222A908846EEB814DE5E0BDB,
  0xE0323A0A4906245CC2D3AC629195E479, 0xE7C8376D8DD54EA96C56F4EA657AAE08,
  0xBA78252E1CA6B4C6E8DD741F4BBD8B8A, 0x703EB5664803F60E613557B986C11D9E,
  0xE1F8981169D98E949B1E87E9CE5528DF, 0x8CA1890DBFE6426841992D0FB054BB16]

/-- Bytes as numbers, for the cipher. -/
def xtime (b : Nat) : Nat := if b < 128 then 2 * b else (2 * b) ^^^ 0x11B

def subByte (b : Nat) : Nat := (sboxRows.getD (b / 16) 0 / 256 ^ (15 - b % 16)) % 256

def xorN (a b : List Nat) : List Nat := List.zipWith (· ^^^ ·) a b

def xorB (a b : Bytes) : Bytes := List.zipWith (· ^^^ ·) a b

/-- The 60 words of the AES-256 key schedule, built word by word. -/
def keyWords : Nat → List (List Nat) → List (List Nat)
  | 0, ws => ws
  | n + 1, ws =>
    let i := ws.length
    let t := ws.getD (i - 1) []
    let t := if i % 8 = 0 then xorN ((t.drop 1 ++ t.take 1).map subByte) [2 ^ (i / 8 - 1), 0, 0, 0]
      else if i % 8 = 4 then t.map subByte else t
    keyWords n (ws ++ [xorN (ws.getD (i - 8) []) t])

def mixCol : List Nat → List Nat
  | [a, b, c, d] =>
    let m := fun (x y z w : Nat) => xtime x ^^^ xtime y ^^^ y ^^^ z ^^^ w
    [m a b c d, m b c d a, m c d a b, m d a b c]
  | l => l

/-- The first `n` groups of four. -/
def groups : Nat → List Nat → List (List Nat)
  | 0, _ => []
  | n + 1, l => l.take 4 :: groups n (l.drop 4)

def shiftRows (s : List Nat) : List Nat := (List.range 16).map fun i => s.getD ((i + 4 * (i % 4)) % 16) 0

/-- AES-256 of one block. -/
def aesBlock (ks : List (List Nat)) (blk : Bytes) : Bytes :=
  let rk := fun r => ((ks.drop (4 * r)).take 4).flatten
  let s := (List.range 13).foldl (fun s r => xorN (((groups 4 (shiftRows (s.map subByte))).map mixCol).flatten) (rk (r + 1)))
    (xorN (blk.map (·.toNat)) (rk 0))
  (xorN (shiftRows (s.map subByte)) (rk 14)).map (BitVec.ofNat 8)

def aesKeys (key : Bytes) : List (List Nat) := keyWords 52 (groups 8 (key.map (·.toNat)))

/-- A block as GCM's bit string: first bit most significant. -/
def beN (b : Bytes) : Nat := le b.reverse
def toBe (n v : Nat) : Bytes := (toLe n v).reverse

/-- Multiplication in GF(2^128) as GCM orders bits. -/
def ghMulF : Nat → Nat → Nat → Nat → Nat
  | 0, _, _, z => z
  | n + 1, x, v, z =>
    let z := if x.testBit n then z ^^^ v else z
    let v := if v % 2 = 1 then (v / 2) ^^^ (0xE1 * 2 ^ 120) else v / 2
    ghMulF n x v z

def ghash (h : Nat) (data : Bytes) : Nat :=
  (records 16 data).foldl (fun y b => ghMulF 128 (y ^^^ beN (fit 16 b)) h 0) 0

/-- AES-256-GCM decryption with a 12-byte IV: the plaintext when the tag holds. -/
def gcmOpen (key iv aad ct tag : Bytes) : Option Bytes :=
  let ks := aesKeys key
  let h := beN (aesBlock ks (zeros 16))
  let ctr := fun i => aesBlock ks (iv ++ toBe 4 i)
  let s := ghash h (padTo 16 aad ++ padTo 16 ct ++ toBe 8 (8 * aad.length) ++ toBe 8 (8 * ct.length))
  let want := xorB (toBe 16 s) (ctr 1)
  if want = tag then
    some (((records 16 ct).zipIdx.map fun (b, i) => xorB b (ctr (i + 2))).flatten)
  else none

end Sys2Proof.Machine
end

