-- ==== Sys2Proof/Config.lean ====
section
/-! DEFINITION. The free values: what the spec gives an effect and leaves the value open. Each is a constant with no
body, so nothing in Lean can tell its value; State's `free` counts the draws. -/
namespace Sys2Proof

/-- Byte `pos` of free draw `n`. Drawn for the bytes that no rule fixes: the data of a
granule that the watch port does not present (R302), the engine load of HSH.GET
(R441) and the words of a lane's buffer past the features of its vector (R197). -/
opaque Config.freeByte (n pos : Nat) : Byte

/-- A free number: draw `n`. Drawn, and reduced to its width, for a source's region cycle count at an edge at which it
presents none (R278), the payload length of a scan image that the host begins to read before the codec has ended (R321), how
far a recorder entry was written when a reset came (R350, R358), the severity of a gap record for released entries (R264),
the parts of an expected hello that R147 leaves open, and the busy cycles of a probe run that never reported (R226, R234). -/
opaque Config.freeNat (n : Nat) : Nat

/-- The hottest temperature that a contribution reports in a frame in which no channel has a conversion (Table RED-13
states none). -/
opaque Config.noTemperature (frame n : Nat) : Nat

/-- Bulk credits that a peer grants beside those for one whole bulk message (R145 gives no number). -/
opaque Config.bulkCredit : Nat

/-- Where a flit's first bit passes a door after a block clock edge, in 1/32 ns, at a cycle: the lane clock edge and the
bit's position after it (R446), which the block measures. Used for the flits that leave, and for a time flit that comes
as a FLIT_RECEIVE; TIME_FLIT_ARRIVAL presents the distance. -/
opaque Config.lanePhase (door cycle : Nat) : Nat

/-- Where the first die-clock edge at or after an instant lies, in 1/16 ns behind it, before reduction to a die cycle: the phase
that a die unit measures (R313). -/
opaque Config.diePhase (t : Nat) : Nat

/-- The compressor's tokens for an input block after a history at a target: a function of the three, whose choice of
matches is not part of the format (R337). -/
opaque Config.tokens (input history : Bytes) (target : Nat) : Bytes

/-- The 96 B signature of an attestation digest under the identity key, with the random nonce of draw `n` (R415, R420): the key is
never read out of the boundary. -/
opaque Config.attestation (n : Nat) (digest : Bytes) : Bytes

/-- What stands in a returned summary's digest field in a frame whose digest cannot be formed (R416). -/
opaque Config.noDigest (frame : Nat) : Bytes

/-- The identification of the `n`-th IPv6 packet that a hub fragments (R454 states none). -/
opaque Config.fragmentIdent (n : Nat) : Nat

/-- `k` bytes of free draw `n`. -/
def Config.freeBytes (n k : Nat) : Bytes := (List.range k).map (Config.freeByte n)

end Sys2Proof
end

