-- ==== Sys2Proof/Machine/Fp.lean ====
section
/-! DEFINITION. IEEE 754-2019 arithmetic as the spec uses it (R12): the single rounding of R115, the classes of
Table RED-1, FP64 addition and multiplication (R180), comparisons (R202) and the square root of Table RED-3. -/
namespace Sys2Proof.Machine

/-- A binary format: precision, least and greatest exponent (R115). -/
structure Fmt where
  p : Nat
  emin : Int
  emax : Int
  width : Nat
  deriving DecidableEq, Repr

def fmt32 : Fmt := ⟨24, -126, 127, 32⟩
def fmt64 : Fmt := ⟨53, -1022, 1023, 64⟩

/-- Number of bits of a natural number. -/
def bitlen (n : Nat) : Nat := if n = 0 then 0 else n.log2 + 1

/-- `x / y < 2^e` for naturals, `e` an integer. -/
def ltPow (a q : Nat) (e : Int) : Bool :=
  match e with
  | .ofNat k => decide (a < q * 2 ^ k)
  | .negSucc k => decide (a * 2 ^ (k + 1) < q)

/-- The exponent of R115: `2^e ≤ a / q < 2^(e+1)`. -/
def exponentOf (a q : Nat) : Int :=
  let e : Int := (bitlen a : Int) - (bitlen q : Int)
  if ltPow a q e then e - 1 else e

/-- The encoding of `m × 2^(e - p + 1)` with a sign, after the overflow test of R115. -/
def packFp (f : Fmt) (neg : Bool) (m : Nat) (e : Int) : Nat :=
  let sgn := if neg then 2 ^ (f.width - 1) else 0
  if e > f.emax then sgn + (2 * (f.emax.toNat) + 1) * 2 ^ (f.p - 1)
  else if m < 2 ^ (f.p - 1) then sgn + m
  else sgn + (e + f.emax).toNat * 2 ^ (f.p - 1) + (m - 2 ^ (f.p - 1))

/-- `round(a, q, p, emin, emax)` of R115, to the bit pattern of the format. -/
def roundFp (f : Fmt) (a : Int) (q : Nat) : Nat :=
  if a = 0 then 0 else
  let neg := decide (a < 0)
  let n := a.natAbs
  let e0 := exponentOf n q
  let e := if e0 < f.emin then f.emin else e0
  let sh : Int := e - (f.p : Int) + 1
  let (x, y) := match sh with
    | .ofNat k => (n, q * 2 ^ k)
    | .negSucc k => (n * 2 ^ (k + 1), q)
  let m := x / y
  let r := x - m * y
  let m := if 2 * r > y || (2 * r = y && m % 2 = 1) then m + 1 else m
  let (m, e) := if m = 2 ^ f.p then (2 ^ (f.p - 1), e + 1) else (m, e)
  packFp f neg m e

def round32 (a : Int) (q : Nat) : F32 := BitVec.ofNat 32 (roundFp fmt32 a q)
def round64 (a : Int) (q : Nat) : F64 := BitVec.ofNat 64 (roundFp fmt64 a q)

/-! ### Fields and classes (R108, Table RED-1) -/

def f32exp (x : F32) : Nat := bits x.toNat 23 8
def f32frac (x : F32) : Nat := bits x.toNat 0 23
def f32neg (x : F32) : Bool := x.getLsbD 31
def f64exp (x : F64) : Nat := bits x.toNat 52 11
def f64frac (x : F64) : Nat := bits x.toNat 0 52
def f64neg (x : F64) : Bool := x.getLsbD 63

def isNaN32 (x : F32) : Bool := f32exp x == 255 && f32frac x != 0
def isInf32 (x : F32) : Bool := f32exp x == 255 && f32frac x == 0
def isFinite32 (x : F32) : Bool := f32exp x != 255
def isNaN64 (x : F64) : Bool := f64exp x == 2047 && f64frac x != 0
def isInf64 (x : F64) : Bool := f64exp x == 2047 && f64frac x == 0

/-- NaN as the block writes it (R116). -/
def nan32 : F32 := 0x7FC00000#32
def nan64 : F64 := 0x7FF8000000000000#64
def inf32 (neg : Bool) : F32 := if neg then 0xFF800000#32 else 0x7F800000#32
def inf64 (neg : Bool) : F64 := if neg then 0xFFF0000000000000#64 else 0x7FF0000000000000#64

/-- `M` and `ee` of R108. -/
def f32mant (x : F32) : Nat := if f32exp x = 0 then f32frac x else 2 ^ 23 + f32frac x
def f32ee (x : F32) : Nat := if f32exp x = 0 then 1 else f32exp x

/-- A finite FP32 value times 2^149. -/
def f32scaled (x : F32) : Int :=
  let m : Int := (f32mant x * 2 ^ (f32ee x - 1) : Nat)
  if f32neg x then -m else m

/-- A finite FP64 value times 2^1074. -/
def f64scaled (x : F64) : Int :=
  let m : Int := if f64exp x = 0 then (f64frac x : Nat)
    else ((2 ^ 52 + f64frac x) * 2 ^ (f64exp x - 1) : Nat)
  if f64neg x then -m else m

/-- FP32 to FP64, exact; a NaN becomes the block's NaN. -/
def widen (x : F32) : F64 :=
  if isNaN32 x then nan64
  else if isInf32 x then inf64 (f32neg x)
  else if f32scaled x = 0 then (if f32neg x then 0x8000000000000000#64 else 0#64)
  else round64 (f32scaled x) (2 ^ 149)

/-- "To FP32": one rounding to nearest-even (R180). -/
def narrow (x : F64) : F32 :=
  if isNaN64 x then nan32
  else if isInf64 x then inf32 (f64neg x)
  else if f64scaled x = 0 then (if f64neg x then 0x80000000#32 else 0#32)
  else
    let r := round32 (f64scaled x) (2 ^ 1074)
    r

/-- FP64 addition, round to nearest-even, gradual underflow (R180). -/
def fadd (x y : F64) : F64 :=
  if isNaN64 x || isNaN64 y then nan64
  else if isInf64 x then (if isInf64 y && f64neg x != f64neg y then nan64 else x)
  else if isInf64 y then y
  else
    let s := f64scaled x + f64scaled y
    if s = 0 then (if f64neg x && f64neg y then 0x8000000000000000#64 else 0#64)
    else round64 s (2 ^ 1074)

def fneg (x : F64) : F64 := x ^^^ 0x8000000000000000#64

def fsub (x y : F64) : F64 := if isNaN64 y then nan64 else fadd x (fneg y)

/-- FP64 multiplication, rounded once. -/
def fmul (x y : F64) : F64 :=
  let neg := f64neg x != f64neg y
  if isNaN64 x || isNaN64 y then nan64
  else if isInf64 x || isInf64 y then
    (if (!isInf64 x && f64scaled x = 0) || (!isInf64 y && f64scaled y = 0) then nan64 else inf64 neg)
  else
    let m := f64scaled x * f64scaled y
    let r := if m = 0 then 0 else roundFp fmt64 (m.natAbs : Int) (2 ^ 2148)
    BitVec.ofNat 64 (r + if neg then 2 ^ 63 else 0)

/-- The order of non-NaN values as an integer key: −∞ below every finite value, the two zeros equal (R121, R202). -/
def key32 (x : F32) : Int :=
  let m : Int := (bits x.toNat 0 31 : Nat)
  if f32neg x then -m else m
def key64 (x : F64) : Int :=
  let m : Int := (bits x.toNat 0 63 : Nat)
  if f64neg x then -m else m

/-- `x < y` of IEEE 754 values; false when either is NaN. -/
def flt32 (x y : F32) : Bool := !isNaN32 x && !isNaN32 y && decide (key32 x < key32 y)
def fle32 (x y : F32) : Bool := !isNaN32 x && !isNaN32 y && decide (key32 x ≤ key32 y)
def flt64 (x y : F64) : Bool := !isNaN64 x && !isNaN64 y && decide (key64 x < key64 y)

/-- An unsigned integer as FP32, round to nearest-even (R114, R175). -/
def nat32 (n : Nat) : F32 := round32 (n : Int) 1
/-- 2^−k as FP64 (R180). -/
def pow2neg64 (k : Nat) : F64 := round64 1 (2 ^ k)

/-- √(a/q) rounded once to nearest-even (Table RED-3, spread). The root is taken of a scaled integer wide enough
that its floor and a sticky bit decide the rounding. -/
def sqrtFp (f : Fmt) (a : Nat) (q : Nat) : Nat :=
  if a = 0 then 0 else
  -- x = a/q; t = floor(√x × 2^k) with k even growth so that t has more than p + 2 bits
  let e := exponentOf a q
  let k : Nat := ((f.p : Int) + 4 - e / 2).toNat
  let num := a * 2 ^ (2 * k)
  let t := Nat.sqrt (num / q)
  let exact := decide (t * t * q = num)
  -- √x lies in [t, t+1) / 2^k; represent it as (2t + sticky) / 2^(k+1)
  roundFp f ((2 * t + (if exact then 0 else 1) : Nat) : Int) (2 ^ (k + 1))

end Sys2Proof.Machine
end

