-- ==== Sys2Proof/Machine/State.lean ====
section
/-! DEFINITION. The state of the block: plain data, every field with its value after block reset.
One structure per unit of Table SCO-2. Sizes the spec gives a register stand in INVENTORY.md beside the rule that
names it; a `Nat` here holds a count whose width and saturation the operation that writes it keeps. -/
namespace Sys2Proof.Machine

/-- Reasons the machine would stop with a fault. The spec stops the block nowhere: every error it names is a status, a
flag, a record or a reset, so no meaning raises one and the type has no constructor (safe). -/
inductive Fault where
  deriving DecidableEq, Repr

/-- Reasons a command has no meaning here. -/
inductive Refusal where
  /-- Raised by the dispatch for a row that has no meaning yet (safe). -/
  | notModelled (mnemonic : String)
  deriving DecidableEq, Repr

/-! ### Identity, power and start-up -/

/-- Profile and hash build, fixed when the block is built (R1, R3). -/
structure Build where
  hub : Bool := false
  wide : Bool := false
  deriving DecidableEq, Repr

/-- What a unit is (R1, R2). -/
inductive Role where
  | die | tray | pod | root
  deriving DecidableEq, Repr

/-- Where the block stands between supplies and service (R462, R464). -/
inductive Phase where
  | off | inReset | starting | working
  deriving DecidableEq, Repr

/-- The accepted start-up configuration (Table PWR-15). -/
structure StartCfg where
  flags : Nat := 0
  unitId : Word := 0
  ipv6 : Bytes := []
  udpPort : Nat := 5707
  mac : Bytes := []
  gateway : Bytes := []
  vlan : Nat := 0
  doorMap : Bytes := []
  cageMap : Bytes := []
  deriving DecidableEq, Repr

/-- Power, reset and the power-control port (R355, R442, R460 to R467). -/
structure Pwr where
  phase : Phase := .inReset
  supplyOk : Bool := true
  pcycleIn : Nat := 0
  hoursIn : Nat := 0
  cause : Nat := 0                       -- PC_RCAUSE, codes of Table EVR-2
  warm : Bool := false                   -- the last reset was judged warm (R355)
  ready : Bool := false                  -- PC_READY
  cfgFault : Bool := false               -- PC_CFG_FAULT
  hoursOut : Nat := 0                    -- PC_HOURS_OUT
  cycles : Nat := 0                      -- block clock cycles since power-up
  leftAt : Nat := 0                      -- time of leaving reset, 2^-32 ns
  readyAt : Nat := 0                     -- time at which PC_READY rose, 2^-32 ns
  idleGating : Bool := true              -- R463
  lanePark : Bool := false               -- R463
  sramError : Option (Nat × Nat) := none -- bank and address of R369, kept for the record after the reset
  watchdogFrame : Option Nat := none     -- frame of the last serviced tick, for the CORE_WATCHDOG record after the reset
  deriving DecidableEq, Repr

/-! ### Frame engine -/

/-- Frame parameters (Tables FRM-1 and RED-19). Times in ns. -/
structure FrameParams where
  anchor : Nat := 0
  anchorNs : Nat := 0
  period : Nat := 1000
  emit : Nat := 200
  tray : Nat := 400
  pod : Nat := 550
  root : Nat := 650
  ret : Nat := 800
  grace : Nat := 10
  limit : Nat := 32
  trayScope : Bool := false
  stale : Nat := 4
  deriving DecidableEq, Repr

/-- Where the work of a frame stands (Table FRM-4). -/
inductive Step where
  | idle | snapshot | trackers | evaluate | sent
  deriving DecidableEq, Repr

/-- The frame engine (R15 to R46). -/
structure FrameEng where
  params : FrameParams := {}
  pending : Option FrameParams := none   -- the pending block: anchor is F (R24)
  adopt : Option (FrameParams × Option FrameParams) := none  -- R25
  fleet : Option (FrameParams × Option FrameParams) := none  -- the fleet's parameters held in tray scope (R26)
  awaitFleet : Bool := false             -- R26: fleet scope, no fleet parameters yet
  muted : Bool := false                  -- R25: frames run under the wrong parameters
  last : Option Nat := none              -- last frame begun (R19)
  tickAt : Nat := 0                      -- time of the last tick, 2^-32 ns
  endAt : Option Nat := none             -- end of a stepped frame (R71), 2^-32 ns
  skipped : Nat := 0
  step : Step := .idle
  stepAt : Nat := 0                      -- block cycles at which the running step began (R189)
  reducedAt : Nat := 0                   -- block cycles at which step 3 ends (R189)
  tag : Word := 0
  group : Nat := 0
  transition : Bool := false
  cursor : Nat := 0                      -- rotation cursor (R28)
  evaluated : Nat := 0
  cutoff : Bool := false                 -- evaluation of the frame has stopped (R27): the send cutoff or a hub's return mark has passed
  history : List (Nat × Bytes) := []     -- contribution history, 64 (R44)
  seq : Nat := 0                         -- door sequence of contributions (R149)
  carryFindings : List Bytes := []       -- carry queue (R30)
  carryProbes : List Bytes := []
  carryLost : Nat := 0
  overrun : Bool := false                -- the last contribution's flag
  summary : Option (Nat × Bytes) := none -- last returned summary accepted (R45, R46)
  good : Option (Nat × Bytes) := none    -- the last accepted returned summary not flagged DIVERGENT (R46)
  usable : Option (Nat × Bytes) := none  -- the summary in use in the frame: `good` at its tick (R46)
  gotReturned : Option Nat := none       -- frame whose returned summary has been accepted (R165)
  closes : List (Nat × Nat) := []        -- frames whose returned summary is still taken, with their return close (R45)
  lateReturned : Nat := 0
  dupReturned : Nat := 0
  locked : Bool := false                 -- the time base counted as locked at the last tick (R20)
  status : Nat := 0x100000FF             -- UZ_FRM_STATUS, which changes only at ticks (R410)
  deriving DecidableEq, Repr

/-! ### Time base -/

/-- Servo settings (Table TIM-8). -/
structure Servo where
  interval : Nat := 125                  -- µs
  delayLimit : Nat := 2000               -- ns
  stability : Nat := 50                  -- ppb
  holdLimit : Nat := 25                  -- ns
  stretch : Nat := 10                    -- 0.1 µs
  slew : Rat := 1                        -- ppm
  deriving DecidableEq, Repr

/-- One end's time exchanges on a door (R58 to R61). Stamps in 2^-16 ns. -/
structure Exchange where
  num : Nat := 0                         -- exchange number k
  t1 : Option Nat := none                -- of exchange k, at the parent's end, once its flit has left
  t4 : Option Nat := none
  held : Option (Nat × Nat × Option Nat) := none -- k, t2 and, once the answer has left, t3 that the child holds
  last8 : List Bool := []                -- validity of the last 8 exchanges, newest first
  streak : Nat := 0                      -- consecutive valid exchanges
  quiet : Nat := 0                       -- exchange intervals since the last valid one
  age : Nat := 0                         -- exchange intervals that `held` has waited
  invalid : Nat := 0
  delay : Option Int := none             -- d, 2^-17 ns
  asym : Int := 0                        -- A, 1/16 ns (R57)
  state : Nat := 3                       -- source state that the parent at the door last sent (Table TIM-4)
  deriving DecidableEq, Repr

/-- The PTP slave of a root hub (R68). -/
structure Ptp where
  domain : Nat := 0
  masters : List (PtpMsg × Nat) := []    -- the latest Announce of each master, and the cycle at which it came
  chosen : Option Bytes := none
  syncSeq : Option Nat := none
  t1 : Option Nat := none
  t2 : Option Nat := none
  t3 : Option Nat := none
  reqSeq : Nat := 0
  pairT1 : Option Nat := none
  pairT2 : Option Int := none            -- correction of a two-step Sync, 2^-16 ns
  interval : Int := 0
  ignored : Nat := 0
  valid : Nat := 0                       -- valid Syncs in the current filter period
  deriving DecidableEq, Repr

/-- The time base (R49 to R79). -/
structure TimeBase where
  now : Nat := 0                         -- global time, 2^-32 ns since the epoch
  running : Bool := false
  rate : Int := 0                        -- rate correction, 2^-32 ns per cycle
  freq : Rat := 0                        -- F, ppm
  lock : Nat := 0                        -- Table TIM-2
  source : Nat := 2                      -- 0 PTP, 1 EXTERNAL, 2 FREE
  ptp : Ptp := {}
  tod : Option Nat := none               -- seconds of the next pulse (R69)
  badPulses : Nat := 0
  ignoredPulses : Nat := 0
  cable : Int := 0
  txDelay : Nat := 0
  rxDelay : Nat := 0
  servo : Servo := {}
  servoNext : Option Servo := none       -- accepted settings waiting for the next filter period (R77)
  sourceNext : Option (Nat × Nat) := none
  calNext : List (Nat × Int) := []       -- accepted per-door A (R77)
  delaysNext : Option (Nat × Nat × Int) := none
  utcNext : Option (Int × Bool × Bool × Bool) := none
  parent : Option Nat := none            -- door of the time parent
  adopted : Nat := 125                   -- exchange interval that the time parent uses, µs (R58)
  utc : Int := 0
  utcValid : Bool := false
  leap59 : Bool := false
  leap61 : Bool := false
  offsets : List Int := []               -- offsets of the period's valid exchanges, 2^-17 ns
  m : Option Int := none                 -- the last period's m, 2^-17 ns
  good : Nat := 0                        -- consecutive periods with |m| ≤ 50 ns
  badRun : Nat := 0                      -- consecutive periods with |m| > 250 ns
  holdSince : Int := 0                   -- time of entry to HOLDOVER; it moves with a change of time
  returning : Bool := false              -- a root slews back to its reference (R62, R70)
  ownSource : Bool := false              -- a secondary root on its own source (R62)
  steps : Nat := 0
  stepped : Bool := false                -- STEPPED (W1C)
  stepPending : Option (Int × Nat) := none -- amount in ns and frame F (R71)
  deriving DecidableEq, Repr

/-! ### Windows, counters, sensors -/

/-- A declaration entry (Table WIN-2). -/
structure DeclEntry where
  index : Nat
  entity : Nat
  kind : Nat
  width : Nat
  slot : Nat
  rate : Nat
  deriving DecidableEq, Repr

/-- Temperature, voltage and frequency of a record, each with its range flag; none: absent (R248). -/
structure Sensed where
  temp : Option (Int × Bool) := none
  volt : Option (Int × Bool) := none
  freq : Option (Int × Bool) := none
  deriving DecidableEq, Repr

/-- A stored window event (Table WIN-5A) with the size kept until it is served. -/
structure QEvent where
  code : Nat
  port : Nat
  clock : Nat
  entity : Nat
  stamp : Nat                            -- 2^-32 ns
  payload : Bytes
  size : Option Nat
  at_ : Nat                              -- cycle of the capture (R73)
  unlocked : Bool                        -- the lock state at the capture (R349)
  cond : Sensed := {}                    -- conditions before the stamp, for an error event (R248)
  deriving DecidableEq, Repr

/-- A Window port (R80 to R99). -/
structure Port where
  state : Nat := 0                       -- 0 none, 1 accepted, 2 refused
  kind : Nat := 0
  region : Nat := 255
  latency : Nat := 0
  mask : Nat := 0
  entries : List DeclEntry := []
  decl : Bytes := []
  refusal : Nat := 0
  refEntry : Nat := 0
  enabled : Bool := false
  queue : List QEvent := []
  lost : Nat := 0
  firstLost : Nat := 0
  malformed : Nat := 0
  subsystem : Nat := 0                   -- subsystem-defined events counted
  awaiting : Nat := 0                    -- samples still to come in this frame
  got : List Nat := []                   -- samples of this frame received so far, in slot order
  late : Bool := false
  deriving DecidableEq, Repr

/-- What the block keeps of a stream entity (R97 to R99). -/
structure Stream where
  isOpen : Bool := false
  port : Nat := 0
  start : Nat := 0                       -- stamp of the STALL_START, 2^-32 ns
  accrued : Nat := 0                     -- last accrual, 2^-32 ns
  position : Bytes := []
  orphanStarts : Nat := 0
  orphanEnds : Nat := 0
  late : Option (Nat × Nat) := none      -- largest lateness of the running frame, and its source
  lateHeld : Option (Nat × Nat) := none  -- that of the frame ended by the tick
  deriving DecidableEq, Repr

/-- One counter of the counter file (R85, Table WIN-4). -/
structure Ctr where
  live : Nat := 0
  prev : Nat := 0
  delta : Option Nat := some 0           -- none: absent
  raw : Nat := 0
  saturated : Bool := false
  stale : Bool := false
  rebased : Bool := false
  declared : Bool := false
  rebase : Bool := false                 -- the next received sample rebaselines (R89)
  cleared : Option Nat := none           -- a sampled counter's live value before a CTR.CLEAR at this tick, until its sample (R91)
  newPrev : Nat := 0                     -- the snapshot being formed (step 1)
  newDelta : Option Nat := some 0
  newStale : Bool := false
  newRebased : Bool := false
  newSat : Bool := false
  snapSat : Bool := false                -- SATURATED of the completed snapshot (R92)
  satBefore : Bool := false              -- saturated before the frame began (R90)
  deriving DecidableEq, Repr

/-- A sensor channel (R100). Values in the units of Table WIN-6. -/
structure Chan where
  recent : List (Nat × Nat) := []        -- cycle and raw code of the last 256 conversions, newest first
  codes : List Nat := []                 -- raw codes seen in the running frame, each once
  value : Option Int := none             -- at the last tick
  vLow : Bool := false
  vHigh : Bool := false
  vMin : Option Int := none
  vMax : Option Int := none
  trim : List (Nat × Int) := []
  deriving DecidableEq, Repr

/-- A staged trim table (R105). -/
structure Trim where
  version : Nat
  channels : List (Nat × List (Nat × Int))
  deriving DecidableEq, Repr

structure Windows where
  ports : List Port := []
  lastServed : Nat := 0
  streams : List (Nat × Stream) := []
  ctrs : List (Nat × Ctr) := []
  snapFrame : Option Nat := none         -- frame of the completed snapshot (R92)
  chans : List Chan := []
  map : Option (List Word) := none
  mapStatus : Nat := 0
  untrimmed : Bool := true
  trimVersion : Nat := 0
  trimStaged : Option Trim := none
  requests : List Nat := []              -- outstanding conversion requests, oldest first
  abandoned : Nat := 0
  deriving DecidableEq, Repr

/-! ### Reduction -/

/-- A catalogue entry (Table RED-6). -/
structure Metric where
  index : Nat
  source : Nat
  sum : Bool
  squares : Bool
  min : Bool
  max : Bool
  sketch : Bool
  ret : Bool
  scale : Int
  unit : Nat
  ref : Nat
  kinds : Nat
  select : Nat
  deriving DecidableEq, Repr

structure Catalogue where
  group : Nat
  version : Nat
  metrics : List Metric
  image : Bytes
  deriving DecidableEq, Repr

/-- An extreme with its identity (R121). -/
structure Extreme where
  value : F32
  die : Nat
  entity : Nat
  deriving DecidableEq, Repr

/-- One metric's accumulators (R107 to R121). -/
structure Acc where
  n : Nat := 0
  pinf : Nat := 0
  ninf : Nat := 0
  nan : Nat := 0
  sum : Int := 0
  sq : Int := 0
  hasSum : Bool := false
  hasSq : Bool := false
  min : Option Extreme := none
  max : Option Extreme := none
  sketch : List (Nat × Nat) := []        -- bucket and count, rising
  sample : F32 := 0                      -- the addend while there is exactly one (R113)
  deriving DecidableEq, Repr

/-- Where an accepted item stands (R152). -/
inductive Stage where
  | held | accepted | begun | applied
  deriving DecidableEq, Repr

/-- An accepted frame item of a hub (R35, R152). -/
structure Item where
  door : Nat
  kind : Nat                             -- 1 contribution, 2 tray, 3 pod summary
  sender : Nat                           -- die ID, tray or pod number
  plane : Nat
  frame : Nat
  group : Nat
  seq : Nat
  body : Bytes
  at_ : Nat                              -- block cycles of the arrival (R153)
  stage : Stage
  deriving DecidableEq, Repr

/-- A root's settled check of a frame (R158). -/
structure Check where
  frame : Nat
  own : Bytes
  ownDigest : Bytes
  peer : Option Bytes
  outcome : Nat
  standby : Nat
  deriving DecidableEq, Repr

/-- A hub's frame collection and results (R31 to R43, R156 to R165). -/
structure HubFrame where
  frame : Option Nat := none             -- frame being collected
  isOpen : Bool := false                 -- before input close
  isClosed : Bool := false               -- its summary has been formed
  marked : Bool := false                 -- a root has passed its root mark
  items : List Item := []
  outcomes : List Nat := []              -- the 12 counts of the frame (R130)
  groupOf : List (Nat × Nat) := []       -- die ID and group of the frame's acceptances
  children : List (Nat × List Nat) := [] -- per child, by the identity that its hello gives: 12 counts and standby (R35)
  maps : List (Nat × Bytes) := []        -- presence maps of the last 64 frames
  summaries : List (Nat × Bytes) := []   -- own summaries of the last 64 frames
  seqs : List Nat := [0, 0]              -- door sequence per parent (R149)
  traceDropped : Nat := 0                -- at this level, since the last summary was formed
  levelDropped : Nat := 0                -- at this level, in the summary last formed
  full : Option (Nat × Bytes) := none    -- a root's full summary of the frame, before its flags are set
  ownCheck : Option (Nat × Bytes) := none
  peerCheck : Option Bytes := none
  checks : List Check := []
  standby : Nat := 0
  copies : List (Nat × Nat × Bytes) := [] -- complete returned copies held: source plane, frame, bytes
  chosen : Option (Nat × Option Nat) := none -- frame of the last select point and the source plane chosen at it
  forwarded : Option Nat := none         -- frame of the copy last forwarded
  through : Option (Nat × Nat) := none   -- source door and frame of a copy that goes down while it arrives (R164)
  discards : Nat := 0                    -- root checks outside their window
  deriving DecidableEq, Repr

/-! ### Doors and routing -/

inductive DoorState where
  | off | training | up | degraded | miswired
  deriving DecidableEq, Repr

/-- A message of a door (Table DOR-4). -/
structure Msg where
  kind : Nat                             -- flit kind, Table DOR-2
  type : Nat
  flags : Nat := 0
  target : Word := 0
  body : Bytes
  frame : Option Nat := none             -- frame of a frame-class item (R150)
  parent : Option Nat := none            -- parent plane of an item with a second door (R150)
  total : Option Nat := none             -- body length of a copy that is still arriving (R164)
  cut : Bool := false                    -- sent in part and given up: an ABORT flit ends it (R150, R165)
  deriving DecidableEq, Repr

/-- A flit in the replay buffer (R139). -/
structure Flit where
  seq : Nat
  kind : Nat
  som : Bool
  eom : Bool
  abort : Bool
  payload : Bytes
  deriving DecidableEq, Repr

/-- One door end. A split root door d has its second lane at index d + 100. -/
structure Door where
  dir : Nat := 0                         -- 0 off (unassigned), 1 down, 2 up, 3 peer
  mode : Nat := 0                        -- 0 full, 2 half, 3 split lane 0, 4 split lane 1
  state : DoorState := .off
  enabled : Bool := false
  quarantined : Bool := false
  quarantineAt : Nat := 0                -- cycles when the quarantine began
  lanesRetired : Nat := 0                -- lanes out of use since the door last trained
  retirements : Nat := 0                 -- lane retirements (R141)
  flapLimit : Nat := 8
  quarantineTime : Nat := 10
  retrainTimes : List Nat := []          -- cycles of the retrains of the last second
  retrains : Nat := 0
  attempts : Nat := 0
  quarantines : Nat := 0
  ownHello : Bytes := []
  peerHello : Bytes := []
  accepted : Bool := false               -- this end has accepted the peer's hello
  fresh : Bool := false                  -- the next hello carries FRESH
  nextSeq : Nat := 0
  replay : List Flit := []
  sendQ : List (Msg × Nat) := []         -- messages not wholly sent, with the flits already sent
  inFlight : List (Msg × Nat) := []      -- messages sent and not wholly acknowledged, with their last flit's number
  bulkUsed : Nat := 0                    -- bulk credits in use (R145)
  rxSeq : Nat := 4095                    -- last sequence number received in order
  nak : Bool := false
  replays : Nat := 0
  replayRun : Nat := 0                   -- consecutive replays of the same flit
  rx : List (Nat × Bytes) := []          -- message under reassembly, per kind
  bulkRx : List (Nat × Nat × Bytes) := [] -- subtype, transfer serial, bytes so far
  bulkTx : List (Nat × Nat × Bytes) := [] -- subtype, transfer serial and item of the transfers not wholly acknowledged
  slot : Option Nat := none              -- slot of the last accepted hello (R36)
  exch : Exchange := {}
  txLat : Nat := 0                       -- DR_TXLAT and DR_RXLAT, in 1/32 ns (R446)
  rxLat : Nat := 0
  flits : List Nat := [0, 0, 0, 0]       -- frame, control, bulk, trace
  crcErrors : Nat := 0
  syncErrors : List Nat := [0, 0]
  malformed : Nat := 0
  abandoned : Nat := 0
  overlong : Nat := 0
  resent : Nat := 0
  traceDropped : Nat := 0
  deriving DecidableEq, Repr

/-- A return tag (R387). -/
structure Tag where
  tag : Nat
  src : Endpoint
  at_ : Nat                              -- cycles when it was given
  deriving DecidableEq, Repr

/-- A command held without a route (R167). -/
structure Held where
  msg : Msg
  at_ : Nat
  deriving DecidableEq, Repr

/-- A datagram under reassembly (R386). -/
structure Reassembly where
  src : Endpoint
  ident : Nat
  at_ : Nat
  parts : List (Nat × Bytes)
  total : Option Nat
  deriving DecidableEq, Repr

/-- Doors, control routing and the management port (R136 to R171, R386, R387, R454). -/
structure Net where
  doors : List Door := []
  tags : List Tag := []
  nextTag : Nat := 0
  held : List Held := []
  unknownTags : Nat := 0
  reasm : List Reassembly := []
  discarded : Nat := 0
  badFrames : Nat := 0
  neighbours : List (Bytes × Bytes) := [] -- IPv6 address and MAC found by Neighbor Discovery
  fragmented : Nat := 0                  -- datagrams that this hub has sent in fragments
  bulkSerial : List (Nat × Nat) := []     -- per subtype, the last transfer serial given (Table DOR-5A)
  deriving DecidableEq, Repr

/-! ### Features, trackers, Glen -/

structure EntityDef where
  kind : Nat
  zone : Nat
  place : Nat                            -- wafer row and column, 0xFFFF unknown
  fw : Nat
  lot : Nat
  deriving DecidableEq, Repr

/-- Feature definition (Table FEA-6). -/
structure FeatDef where
  cls : Nat
  operand : Nat
  ref : Nat
  missing : F32
  kinds : Nat
  deriving DecidableEq, Repr

/-- Tracker metric definition (Table PLN-1). -/
structure TrkDef where
  signal : Nat
  kinds : Nat
  k : Nat
  kappa : F32
  h : F32
  window : Nat
  warmup : Nat
  raw : Bytes                            -- bytes 1 to 15, compared by R192
  deriving DecidableEq, Repr

structure FeatTable where
  version : Nat
  sigKinds : List Nat
  lookups : List (Nat × Nat)             -- first value, length
  values : List F32
  entities : List (Nat × EntityDef)
  features : List FeatDef
  sigMap : List (Nat × Nat × Nat)        -- entity, signal, reference
  trackers : List TrkDef
  image : Bytes
  deriving DecidableEq, Repr

/-- A Plain tracker (Table PLN-2) with the outputs of its last step 2 (R182). -/
structure Tracker where
  metric : Nat
  entity : Nat
  mean : F64 := 0
  var : F64 := 0
  su : F32 := 0
  sd : F32 := 0
  curMin : F32 := 0x7F800000
  curMax : F32 := 0xFF800000
  prevMin : F32 := 0x7F800000
  prevMax : F32 := 0xFF800000
  n : Nat := 0
  flags : Nat := 0
  last : Nat := 0
  outU : F32 := 0
  outD : F32 := 0
  resid : Option F64 := none
  deriving DecidableEq, Repr

structure Alarm where
  up : Nat := 0
  down : Nat := 0
  frame : Nat := 0
  entity : Nat := 0
  deriving DecidableEq, Repr

structure Features where
  active : Option FeatTable := none
  staged : Option FeatTable := none
  trackers : List Tracker := []
  alarms : List (Nat × Alarm) := []
  deriving DecidableEq, Repr

structure Head where
  purpose : Nat
  findings : Bool
  attribute_ : Bool
  k : Nat
  n : Nat
  kinds : Nat
  repeat_ : Nat
  base : F32
  service : F32
  link : F32
  deriving DecidableEq, Repr

structure Node where
  feature : Nat
  always : Bool
  threshold : F32
  deriving DecidableEq, Repr

structure Tree where
  head : Nat
  depth : Nat
  nodes : List Node
  leaves : List F32
  deriving DecidableEq, Repr

structure Page where
  version : Nat
  engine : Nat
  engines : Nat
  features : Nat
  tableVersion : Nat
  firstTree : Nat
  modelTrees : Nat
  heads : List Head
  trees : List Tree
  image : Bytes
  deriving DecidableEq, Repr

/-- The 16-bit history of an entity and head (R213). -/
structure Hist where
  bits : Nat := 0
  holds : Bool := false
  lastFinding : Option Nat := none
  deriving DecidableEq, Repr

/-- The straggler rule's settings (R217). -/
structure Straggler where
  on : Bool := false
  metric : Nat := 0
  margin : F32 := 0
  k : Nat := 8
  n : Nat := 16
  deriving DecidableEq, Repr

structure Glen where
  active : List Page := []
  staged : List Page := []
  coming : List Page := []               -- a hub's model in the frame its pages are copied (R220)
  mode : Nat := 1                        -- Table GLN-8
  modeSince : Nat := 0
  startSpan : Nat := 1024
  recSpan : Nat := 1024
  firstAct : Option Nat := none          -- frame of the first activation since reset
  started : Bool := false                -- the start-up span has elapsed (R212)
  modeSet : Bool := false                -- a GLEN.SET_MODE has taken effect
  recoverDue : Bool := false             -- R212, R323
  hists : List (Nat × Hist) := []        -- key 16 × entity + head
  ring : List Bytes := []                -- last 256 findings (R216)
  rule : Straggler := {}
  ruleHist : Hist := {}
  todo : List Nat := []                  -- entities still to be assigned, in order
  lanes : List (Option Nat) := []        -- entity in each lane
  laneEnds : List Nat := []              -- block cycles at which each busy lane is free again (R209)
  fillEnd : Nat := 0                     -- block cycles at which the feature stage is free to fill the next lane
  draw : Nat := 0                        -- free draw of the frame's lane buffers (the model's own field)
  doneE : List Nat := []                 -- entities evaluated in the frame
  raisedNow : List Bytes := []           -- findings raised in the frame (Table ERR-8)
  outputs : List (Nat × F32) := []       -- head outputs of the frame, key 16 × entity + head
  lastEvaluated : Nat := 0
  side : Nat := 0                        -- the staging page of a die unit: 0 page A, 1 page B (R365)
  deriving DecidableEq, Repr

/-! ### Probes -/

structure ProbeDef where
  id : Word
  kernel : Nat
  mask : Nat
  duration : Nat
  seed : BitVec 64
  params : BitVec 64
  expected : BitVec 64
  deriving DecidableEq, Repr

structure Pack where
  version : Nat
  hash : Bytes
  probes : List ProbeDef
  deriving DecidableEq, Repr

/-- Coverage cell (Table PRB-6). -/
structure Cell where
  passes : Nat := 0
  fails : Nat := 0
  state : Nat := 0
  next : Nat := 0
  lastPass : Nat := 0
  deriving DecidableEq, Repr

structure Run where
  probe : Nat                            -- index in the active pack
  startedAt : Nat                        -- time, 2^-32 ns
  cycle : Nat                            -- block clock cycle of GO
  frame : Nat
  aborted : Bool := false
  retest : Bool := false                 -- a rerun of the pending retest
  queued : Bool := false                 -- a PROBE.RUN
  vStart : Option Int := none            -- latest voltage conversion before the start
  deriving DecidableEq, Repr

/-- A completed run that waits for the first conversion of its tile's temperature channel (R234). -/
structure Ended where
  run : Run
  probe : ProbeDef
  pack : Nat                             -- version of the pack then active
  outcome : Nat
  diff : BitVec 64
  busy : Nat
  cycles : Nat
  volt : Option Int                      -- v_V
  tag : Nat                              -- job tag at the run's end (R242)
  hung : Bool := false
  cleared : Bool := false                -- a PROBE.CLEAR_COVERAGE came after the run (R242)
  deriving DecidableEq, Repr

structure Retest where
  probe : Word                           -- probe ID
  cell : Nat
  runs : Nat := 1                        -- runs that count, the first fail included
  openedAt : Nat := 0
  diff : BitVec 64 := 0
  deriving DecidableEq, Repr

/-- A tile of the probe scheduler. -/
structure Tile where
  run : Option Run := none
  ended : Option Ended := none
  retest : Option Retest := none
  hung : Bool := false
  disabled : Bool := false
  started : Bool := false                -- has started a run in the frame
  idleFrames : Nat := 0                  -- frames since the last completed run
  starveFrames : Nat := 0                -- non-window-short frames without a completed run
  starvedAt : Option Nat := none         -- frame of the entry to starvation (R241)
  yields : Nat := 0
  stops : Nat := 0
  skips : Nat := 0
  dropped : Nat := 0                     -- passing records dropped (R243)
  outside : Nat := 0                     -- outside cursor
  order : Option (Nat × Request × Nat) := none -- queued PROBE.RUN: probe ID, request, first frame whose window it may start in
  deriving DecidableEq, Repr

/-- Probe settings (Table PRB-11). -/
structure ProbeSet where
  on : Bool := true
  nominal : List Nat := List.replicate 40 3000
  target : Nat := 4
  background : Nat := 1000
  starve : Nat := 60000
  retest : Nat := 10000
  conc : Nat := 8
  neighbours : List (List Nat) := []     -- per tile; empty list: the default grid (R235)
  custom : Bool := false
  deriving DecidableEq, Repr

structure Push where
  hash : Bytes
  pack : Bytes
  frame : Option Nat
  counts : List (Nat × Nat) := []        -- status and count
  done : List Nat := []                  -- children already served, in the form of the target block
  ended : Bool := false                  -- PROBE.END_PUSH has ended its distribution
  source : Option Nat := none            -- door that it came through; none: this hub's own PROBE.PUSH_PACK
  deriving DecidableEq, Repr

structure Probes where
  lib : Nat := 0
  kernels : Nat := 0
  active : Option Pack := none
  staged : Option Pack := none
  set : ProbeSet := {}
  cells : List (Nat × Cell) := []        -- key 128 × tile + cell
  tiles : List Tile := List.replicate 40 {}
  cursor : Nat := 0
  lastStarted : Option Nat := none
  window : Bool := false
  pass : Nat := 0                        -- scheduler passes made in the window
  shortFrames : Nat := 0
  install : Option (Option Request × Bytes × Option Nat) := none -- a pack in the decompressor: its command (none: a push), its bytes, F
  pushes : List Push := []               -- pushes since reset (R231)
  deriving DecidableEq, Repr

/-! ### Errors, export -/

/-- A loss mark (R257). -/
structure Mark where
  count : Nat
  severity : Nat
  cause : Nat
  deriving DecidableEq, Repr

/-- An entry of the outbound ring. -/
structure RingEntry where
  seq : Nat
  severity : Nat
  bytes : Bytes
  mark : Option Mark := none
  deriving DecidableEq, Repr

structure Birth where
  serial : Nat
  entity : Nat
  frame : Nat
  address : Nat
  tag : Word
  deriving DecidableEq, Repr

/-- What an exporter keeps of a reporter (R263). -/
structure Reporter where
  expected : Option Nat := none
  entries : List Bytes := []
  release : Nat := 0
  deriving DecidableEq, Repr

/-- A Borven signature (R268 to R270). -/
structure Sig where
  cls : Nat
  kind : Nat
  tbin : Option Nat
  vbin : Option Nat
  lbin : Option Nat
  freq : Option Nat
  probe : Nat
  fw : Nat
  format : Nat
  occurrences : Nat := 0
  dies : List Nat := []
  confirmed : Nat := 0
  transient : Nat := 0
  passes : Nat := 0
  deriving DecidableEq, Repr

structure Errors where
  next : Nat := 1                        -- next number to assign (R256)
  release : Nat := 0                     -- release point
  ring : List RingEntry := []
  tail : Option Mark := none
  tailSent : Option (Nat × Mark) := none -- the last tail gap's end and mark
  sent : Nat := 0                        -- highest number sent on the route
  resend : Bool := false                 -- the next message begins a resend
  fetched : Nat := 0                     -- UZ_ERR_FETCHED
  fleet : Bool := false                  -- route: false bench or EXPORT, true fleet or FORWARD
  drops : List Nat := [0, 0, 0, 0]
  births : List Birth := []
  consumed : List (Nat × Nat × Word) := [] -- origin, serial, tag already reported
  birthCount : Nat := 0
  consumedCount : Nat := 0
  repeatBirths : Nat := 0
  reporters : List (Nat × Reporter) := []
  passedUp : List (Nat × Nat) := []      -- reporters whose entries a FORWARD hub passed, with the next number not yet passed
  tailDue : Bool := false                -- a tail gap is to be sent once every entry has been (R259)
  via : Option Nat := none               -- door last sent through (R262)
  owed : List Nat := []                  -- reporters whose entries could not be stored and owe a resend (R263)
  deriving DecidableEq, Repr

structure Export where
  collector : Endpoint := ⟨[], 0⟩
  session : Nat := 0
  enables : Nat := 15                    -- bit per kind of Table ERR-8
  decimation : Nat := 1000
  period : Nat := 60000
  failingOnly : Bool := true
  seq : Nat := 0
  sigs : List Sig := []
  overflow : Nat := 0
  deriving DecidableEq, Repr

/-! ### Trace and watchpoints -/

structure TraceSet where
  mode : Nat := 0
  enable : List Bool := List.replicate 64 false
  prio : List Nat := List.replicate 64 1
  timeInt : Nat := 10
  sync : Nat := 4096
  flush : Nat := 50
  sources : Nat := 15                    -- trigger sources, bit per kind
  codes : List Nat := []
  confirmedOnly : Bool := false
  delay : Nat := 200000
  deriving DecidableEq, Repr

structure Chunk where
  source : Nat
  prio : Nat
  count : Nat
  bytes : Bytes
  openedAt : Nat
  closedAt : Nat := 0                    -- when it was closed, 2^-32 ns: the arrival of a hub's own chunk (R288)
  deriving DecidableEq, Repr

structure Source where
  kind : Nat := 0
  region : Nat := 255
  entity : Nat := 0
  pos : Word := 0
  runN : Nat := 0                        -- pending RUN
  refTime : Nat := 0                     -- ns of the last SYNC or TIME
  refCyc : Nat := 0
  cyc : Nat := 0                         -- region cycle count as last presented or drawn
  cycAt : Nat := 0                       -- block clock cycle that it belongs to
  synced : Bool := false                 -- a SYNC has been formed since the source's settings changed
  sinceSync : Nat := 0
  needSync : Option Nat := some 0        -- reason of the SYNC that the next packet needs
  quiet : Bool := true                   -- no bundle since the last SYNC or TIME
  dropping : Bool := false
  lost : Nat := 0
  lowPower : Option Nat := none
  chunk : Option Chunk := none
  written : Nat := 0
  dropped : Nat := 0
  deriving DecidableEq, Repr

structure TrigLog where
  die : Nat
  kind : Nat
  index : Nat
  serial : Nat
  stamp : Nat
  setStop : Bool
  deriving DecidableEq, Repr

/-- Per-door trace ingress of a tray hub (R286). -/
structure Ingress where
  waiting : List (Nat × Bytes) := []     -- arrival time and body of admitted messages that the store port has not taken
  dropSrc : List (Nat × Nat) := []       -- sources being dropped to their next SYNC, with counts
  admitted : Nat := 0
  discarded : Nat := 0
  frozen : Nat := 0
  stored : Nat := 0
  deriving DecidableEq, Repr

structure Trace where
  set : TraceSet := {}
  srcs : List Source := List.replicate 64 {}
  queue : List Chunk := []               -- closed chunks, oldest first
  notices : List Bytes := []
  stopAt : Option Nat := none            -- pending stop instant, 2^-32 ns
  stopped : Bool := false                -- LOCAL stopped, or history frozen
  triggered : Bool := false              -- TRIGGERED (W1C)
  edgeTrig : Option (Nat × Nat × Nat × Nat) := none -- cycle, kind, index and serial of the last trigger (R290)
  serial : Nat := 0
  log : List TrigLog := []
  trayAt : List Nat := []                -- tray triggers named for T, 2^-32 ns
  ingress : List (Nat × Ingress) := []
  history : List Bytes := []
  histSize : Nat := 720
  readouts : List Bytes := []            -- trace readouts received from other hubs (R168)
  deriving DecidableEq, Repr

structure WatchPoint where
  on : Bool := false
  mask : Nat := 0
  base : Nat := 0
  limit : Nat := 0
  dir : Nat := 0
  acts : Nat := 0                        -- [0] COUNT [1] EVENT [2] TRIGGER [3] SHUTTER [4] DATA
  trigSpent : Bool := false
  shutSpent : Bool := false
  hits : Nat := 0                        -- of the running frame
  prevHits : Nat := 0                    -- of the previous frame
  refused : Nat := 0                     -- refused Shutter requests
  deriving DecidableEq, Repr

structure Watch where
  buses : List Word := []
  points : List WatchPoint := List.replicate 32 {}
  auth : Option (Nat × Nat) := none      -- authorising session and expiry frame
  store : List Bytes := []
  full : Bool := false                   -- CAPTURE_FULL (RS)
  refused : Nat := 0
  waiting : List (Nat × List (Bytes × Bool)) := [] -- bus and heads of captures that wait for read data, and whether the first granule is in range
  deriving DecidableEq, Repr

/-! ### Shutter -/

/-- A declared region in a stop (R309, R322). -/
structure Region where
  index : Nat
  latency : Nat
  refused : Bool := false
  stopped : Bool := false
  done : Bool := false                   -- stopped or timed out in this stop
  clock : Nat := 0
  noAck : Bool := false
  late : Bool := false
  n : Nat := 0
  wait : Nat := 0                        -- wait count of a timed stop (R313)
  stopCycle : Nat := 0
  offset : Int := 0
  deriving DecidableEq, Repr

structure Channel where
  region : Nat
  link : Nat
  capacity : Nat
  isClosed : Bool := false
  status : Nat := 0
  flits : Nat := 0
  offset : Int := 0
  deriving DecidableEq, Repr

structure Segment where
  lane : Nat
  op : Nat
  region : Nat
  recirc : Bool
  length : Nat
  vector : Nat
  deriving DecidableEq, Repr

structure Program where
  version : Nat
  tck : Nat
  target : Nat
  capture : Nat
  segments : List Segment
  image : Bytes
  deriving DecidableEq, Repr

structure Arm where
  serial : Word                          -- 0 for a cut of the die unit itself
  at_ : Nat                              -- T, 2^-32 ns
  mode : Nat
  resume : Option Nat
  deriving DecidableEq, Repr

/-- The stop record and image head fields of the last stop. -/
structure StopRec where
  serial : Nat := 0
  cut : Word := 0
  ref : Nat := 0                         -- reference stamp, 2^-32 ns
  frame : Nat := 0
  tag : Word := 0
  cause : Nat := 15
  flags : Nat := 0
  smear : Nat := 0
  resume : Option Nat := none
  mode : Nat := 0                        -- of its last scan
  edge : Nat := 0                        -- cycle of the request that was accepted (R308)
  deriving DecidableEq, Repr

/-- How far the lanes have run the program (R319). -/
structure Scan where
  started : Bool := false                -- the image's stream is open
  seg : Nat := 0                         -- segments run or skipped, in program order
  part : Nat := 0                        -- bytes of the next segment that are in the image
  lengths : List Nat := []               -- the segment list: bits shifted; 0 for a skipped segment
  flags : Nat := 0                       -- flags of the image, once the scan has ended
  deriving DecidableEq, Repr

structure HangSet where
  counters : List Nat := []
  limit : Nat := 500
  action : Nat := 1                      -- 0 NONE, 1 DUMP, 2 STOP
  items : Nat := 0x167                   -- Table SHT-8 defaults: 0, 1, 2, 5, 6, 8
  deriving DecidableEq, Repr

/-- A cut a hub knows (R312). -/
structure Cut where
  serial : Word
  at_ : Nat
  outcomes : List (Nat × Nat)            -- tray hub: slot, code; pod and root: door × 16 + code, count
  via : List Nat := []                   -- doors that the cut came by
  deriving DecidableEq, Repr

structure Image where
  die : Nat
  serial : Nat
  kind : Nat
  bytes : Bytes
  deriving DecidableEq, Repr

structure Shutter where
  state : Nat := 0                       -- Table SHT-1
  sources : Nat := 1                     -- bit per cause of Table SHT-2
  clockKHz : Nat := 0
  regions : List Region := []
  channels : List Channel := []
  arm : Option Arm := none
  stopRec : StopRec := {}
  stopSerial : Nat := 0
  mode : Nat := 0                        -- current or last scan
  wantScan : Nat := 0                    -- scan mode the stop's request named
  reserving : Option Nat := none         -- serial of the outstanding reservation
  toHost : Bool := false                 -- the scan sends to the host door
  scan : Scan := {}
  scanRaw : Bytes := []                  -- captured bytes of a scan without codec
  hostHead : Option Bytes := none        -- head and entries that the host reads first
  hostRead : Nat := 0
  imageLost : Bool := false
  building : Option (Bytes × Bytes) := none -- head and entries of the image whose codec stream is under way
  aborting : Bool := false
  resumeAt : Option Nat := none
  stopEvent : Bool := false              -- W1C
  imageFail : Bool := false              -- W1C
  scanStatus : Nat := 0                  -- of the last scan: 0 none or well, 1 NO_SPACE, 2 LOST
  active : Option Program := none
  staged : Option Program := none
  hang : HangSet := {}
  hangCount : Nat := 0
  hung : Bool := false
  hangFrame : Nat := 0
  episode : Nat := 0
  dumpHead : Option Bytes := none        -- head of the dump that is declared or under way
  dumpDue : Bool := false                -- its items are copied at the next tick
  dumpTodo : List (Nat × Bytes) := []    -- items that the codec has not taken: code and bytes
  dumpDone : List (Nat × Nat × Bytes) := [] -- items through the codec: code, length and coded bytes
  liveRun : Bool := false                -- the dump's LIVE segments are on the lanes
  skippedDumps : Nat := 0
  cuts : List Cut := []
  cutCount : Nat := 0
  area : Nat := 16
  images : List Image := []
  reserved : List (Nat × Nat × Nat) := [] -- die, image serial, bytes reserved
  outcomeDue : Option (Word × Nat) := none -- an outcome waiting for the die door (R312)
  deriving DecidableEq, Repr

/-! ### Codec -/

/-- A codec context (Tables CDC-4 and CDC-5). -/
structure Ctx where
  history : Bytes := []
  hasHist : Bool := false
  decomp : Bool := false
  ended : Bool := false
  broken : Bool := false
  target : Nat := 0
  blocks : Nat := 0
  inBytes : Nat := 0
  outBytes : Nat := 0
  limit : Nat := 0
  exact : Bool := false
  active : Bool := false                 -- a job is in progress
  isEnd : Bool := false                  -- END: the input is the stream's last
  feed : Bytes := []                     -- the producer's bytes that stand in no input chain yet
  more : Bool := false                   -- the producer has more to bring
  input : Bytes := []                    -- gathered from the input chain and not yet consumed
  output : Bytes := []
  inFirst : Nat := 0                     -- block SRAM offsets of the chains' first descriptors (R340)
  outFirst : Nat := 0
  outPos : Nat := 0                      -- bytes of the output chain that are filled
  status : Nat := 0
  failBlock : Nat := 0
  space : Nat := 0                       -- room left in the output chain
  coded : Nat := 0                       -- blocks coded, raw and decoded, and errors by code, of the context's use
  rawB : Nat := 0
  decoded : Nat := 0
  errors : List (Nat × Nat) := []
  deriving DecidableEq, Repr

structure Codec where
  ctxs : List Ctx := []
  active : Nat := 15                     -- ACTIVE_CTX of UZ_CDC_STATUS
  busy : Nat := 0                        -- STATE of UZ_CDC_STATUS
  loaded : Nat := 15                     -- context whose state the engine holds (R344)
  chainMem : List Host.Cell := []        -- descriptors and buffers of the chains (R340): SRAM offset, or 2^64 + store address; unlisted reads 0
  lastError : Nat := 0
  error : Bool := false                  -- W1C
  outFull : Bool := false                -- W1C
  test : Option Request := none          -- CDC.TEST whose result is outstanding
  testState : Bool := false              -- it asks for the state after the last block
  testWas : Ctx := {}                    -- the test context before it
  deriving DecidableEq, Repr

/-! ### Event recorder, mirror, block memory -/

/-- An entry waiting in the recorder queue (R352). -/
structure EvrEntry where
  code : Nat
  origin : Nat
  clock : Nat
  unlocked : Bool
  entity : Nat
  kind : Nat
  stamp : Nat
  frame : Nat
  payload : Bytes
  edge : Nat := 0                        -- cycle at which it entered the queue
  deriving DecidableEq, Repr

structure Recorder where
  valid : Bool := false                  -- the retention block's CRC holds
  base : Nat := 1
  head : Nat := 1
  refFull : Nat := 0
  refBusy : Nat := 0
  pcc : Nat := 0
  hours : Nat := 0
  hourCtr : Nat := 0
  slots : List Bytes := []               -- slot i at position i, for the entries below the head
  torn : Bytes := []                     -- what a reset has left in the slot at head − base (R358)
  queue : List EvrEntry := []
  clearing : Bool := false
  clearAt : Nat := 0                     -- cycle at which the clear began
  new : Bool := false                    -- NEW (W1C)
  firstRefusal : Option Nat := none
  mirrorNext : Nat := 0                  -- next entry a die unit sends to its tray hub
  corrupt : List Nat := []               -- slots with an uncorrectable error
  deriving DecidableEq, Repr

structure Log where
  entries : List Bytes := []
  highest : Nat := 0
  refused : Nat := 0
  written : Nat := 0                     -- entries whose block write has completed
  deriving DecidableEq, Repr

/-- The firmware store on the tray SSD (Table PWR-13). -/
structure FwStore where
  hub : List Bytes := [[], []]           -- slots X and Y
  hubActive : Nat := 0
  die : List Bytes := [[], []]
  dieActive : Nat := 0
  dieStaged : Bool := false
  deriving DecidableEq, Repr

structure StorageCmd where
  tag : Nat
  area : Nat                             -- mirror log index, or 256 and above for other areas
  upTo : Nat                             -- entries stored once it completes
  retried : Bool := false
  deriving DecidableEq, Repr

/-- Block SRAM, the store port and the storage port (R362 to R369, R456 to R459). -/
structure Mem where
  banks : List Nat := []                 -- Table SRM-3
  changing : List (Nat × Nat × Nat) := [] -- bank, old state, target
  bankReply : Option (Request × List Nat) := none
  repairs : List Nat := []               -- fuse repair entries read at a cold reset
  ignoredRepairs : Nat := 0
  corrected : List (Nat × Nat) := []     -- per bank
  scrubbed : List (Nat × Nat) := []
  storeRdy : List Bool := List.replicate 6 false
  ssRdy : Bool := false
  ssCap : Nat := 0
  cmds : List StorageCmd := []
  failed : List Nat := []                -- failed areas
  failures : List (Nat × Nat) := []
  mirrorWait : List (Nat × Bytes) := []  -- die and entries that arrived while the storage port was not usable
  logs : List (Nat × Log) := []          -- mirror logs: key die ID, or 2^18 for the hub
  fw : FwStore := {}
  deriving DecidableEq, Repr

/-! ### Audit -/

structure AuditCh where
  role : Nat := 0
  entity : Nat := 0
  bytes : Nat := 0
  incomplete : Bool := false
  leaves : List Bytes := []              -- leaf hashes of whole chunks
  part : Bytes := []                     -- the chunk in progress
  deriving DecidableEq, Repr

structure AuditSet where
  roles : List (Nat × Nat) := []         -- per channel: role, entity
  tiles : Nat := 0                       -- tile mask
  seal_ : Option Nat := none
  deriving DecidableEq, Repr

/-- An open key of a hub's audit tree (R438). -/
structure AuditKey where
  tag : Word
  sealF : Nat
  leaves : List (Nat × Bytes) := []      -- slot, tray position, or pod + 64 × plane: digest or node
  parts : List (Nat × Nat × Nat × Nat) := [] -- leaf, with its dies, tiles and late records
  late : Nat := 0                        -- records excluded as late at this level
  isClosed : Bool := false
  node : Bytes := []
  deriving DecidableEq, Repr

structure Audit where
  chans : List AuditCh := List.replicate 16 {}
  set : AuditSet := {}
  start : Option Nat := none             -- frame at which the running audit began
  records : List Bytes := []             -- last 4 sealed records
  keys : List AuditKey := []
  excess : Nat := 0
  lateCount : Nat := 0
  seeds : List (Word × Bytes) := []
  jobs : List Bytes := []                -- job records
  deriving DecidableEq, Repr

/-! ### Security boundary, sessions, firmware -/

inductive Boundary where
  | selfTest | operational | error | zeroised
  deriving DecidableEq, Repr

/-- An owner anchor slot or the release anchor (R418, R424). -/
structure Anchor where
  x : Nat
  y : Nat
  mask : Nat
  revoked : Bool := false
  deriving DecidableEq, Repr

/-- A cached reply (R383). -/
structure Cached where
  seq : Nat
  trailer : Bytes
  status : Nat
  body : Option Bytes
  outstanding : Bool := false            -- executed, its reply still to come
  deriving DecidableEq, Repr

structure Session where
  id : Nat
  auth : Nat
  key : Bytes
  h : Nat := 0
  notAfter : Nat := 0                    -- 2^-32 ns
  cache : List Cached := []
  deriving DecidableEq, Repr

structure FwSlot where
  image : Bytes := []
  version : Nat := 0
  security : Nat := 0
  stateWritten : Nat := 0
  stateLowest : Nat := 0
  frameFormat : Nat := 4
  verified : Bool := false
  deriving DecidableEq, Repr

structure Security where
  boundary : Boundary := .selfTest
  selfTests : Nat := 0                   -- results of the last tests: 0 running, 1 passed, 2 failed
  testReply : Option Request := none     -- SEC.SELF_TEST awaiting its end
  identity : Bool := true                -- the identity key is present
  generation : Nat := 0
  ownership : List (Nat × Bytes) := [(0, [])] -- generation keys not revoked
  anchors : List (Option Anchor) := List.replicate 8 none
  release : Anchor := ⟨0, 0, 0x2A, false⟩
  owned : Bool := false
  minimum : Nat := 0                     -- security minimum, thermometer fuses
  chain : Bytes := []                    -- the three certificates
  sessions : List Session := []
  slots : List FwSlot := [{}, {}]
  active : Option Nat := none            -- running slot; none: BOOT
  booted : Nat := 0                      -- slot that runs or is to run
  trial : Option Nat := none             -- frames left on trial
  coreFree : Nat := 0                    -- cycle from which the slot that starts has taken over (R430)
  waiting : List (Path × Bytes) := []    -- the command queue: packets taken while a slot takes over (R389, R394)
  fetching : Bool := false
  refusals : List (Nat × Nat) := []      -- counts by 3 × row of Table CMD-5 + path (0 host, 1 door, 2 management)
  earlyAt : List Nat := []               -- cycles of the replies of rows 1 to 4 sent on network paths in the last second (R385)
  discardedReplies : Nat := 0
  deriving DecidableEq, Repr

/-! ### Commands and host door -/

/-- An image under assembly (R392). -/
structure Assembly where
  slot : Nat                             -- opcode, and engine or group in the upper part
  session : Nat
  total : Nat
  bytes : Bytes
  deriving DecidableEq, Repr

/-- The host door's registers and windows (R398 to R413). -/
structure HostDoor where
  cmdWin : List Host.Cell := []          -- command window; unlisted reads 0 (R368)
  replyWin : Bytes := []
  busy : Bool := false
  replyReady : Bool := false
  ignored : Nat := 0
  badAccess : Bool := false
  badAddr : Word := 0
  irqEnable : Word := 3
  ctrSel : Word := 0
  ctrSelHi : Word := 0
  ctrFlags : Nat := 0
  ctrAbsent : Bool := false
  ctrData : BitVec 64 := 0
  timLatch : Nat × Nat × Nat := (0, 0, 0)  -- seconds, ns, sub-ns
  frmLatch : Nat := 0
  evrHead : Nat := 0
  evrBase : Nat := 0
  errLatch : Nat × Nat × Nat := (0, 0, 0)  -- head, tail, fetched
  errStatus : Word := 0
  rdata : Word := 0                      -- data of the last host read
  deriving DecidableEq, Repr

/-! ### Deferred changes -/

/-- What a pending change does at its tick (R390, R391). -/
inductive Change where
  | group (tag : Word) (grp : Nat)
  | stepRoot (ns : Int)
  | winEnable (port : Nat) (on : Bool)
  | ctrClear (ranges : List (Nat × Nat))
  | trim
  | catalogue (grp : Nat)
  | door (d : Nat) (en : Option Bool) (flap : Option Nat) (time : Option Nat)
  | table
  | plnReset (metric : Option Nat)
  | glenActivate (version : Nat)
  | glenDeactivate
  | glenMode (mode : Option Nat) (start : Option Nat) (recov : Option Nat)
  | straggler (r : Straggler)
  | pack
  | probeSet (p : ProbeSet)
  | clearCoverage (tiles : List Nat)
  | tileOn (tile : Nat) (on : Bool)
  | trcSet (t : TraceSet)
  | history (gb : Nat)
  | wptSet (points : List (Nat × WatchPoint))
  | shutSources (mask : Nat)
  | hang (h : HangSet)
  | program
  | area (gb : Nat)
  | audit (a : AuditSet)
  | seeds (tag : Word) (data : Bytes)
  | handover
  | dieBoot
  | pwr (gating : Bool) (park : Bool)
  deriving DecidableEq, Repr

structure Pend where
  opcode : Nat
  object : Nat
  frame : Nat
  change : Change
  deriving DecidableEq, Repr

/-! ### Panel -/

structure Cage where
  present : Bool := false
  touched : Bool := false
  windowOpen : Bool := false
  closeAt : Option Nat := none           -- 2^-32 ns
  releaseAt : Nat := 0                   -- stamp of the last accepted release
  returnAt : Nat := 0                    -- stamp of the last return of presence
  recent : List (Nat × Nat × Option Nat) := [] -- unattributed losses of the last 100 ms: stamp, kind, record
  led : Nat := 4                         -- 0 OFF, 1 ON, 2 SLOW, 3 FAST, 4 AUTO
  attributed : Nat := 0
  unattributed : Nat := 0
  glitches : Nat := 0
  hist : List Nat := [0, 0, 0, 0, 0]     -- retrains, lanes retired, quarantines, CRC failures, replays since the last presence change
  windows : List (Nat × Option Nat) := [] -- windows opened: start, end
  deriving DecidableEq, Repr

structure Panel where
  cages : List Cage := []
  lamp : Bool := false
  holdSince : Option Nat := none
  holdCounted : Bool := false
  locateGlitches : Nat := 0
  holdGlitches : Nat := 0
  log : List Bytes := []
  logSeq : Nat := 0
  deriving DecidableEq, Repr

/-! ### Outputs -/

/-- Where an Ethernet frame goes (R454): its destination, none where Neighbor Discovery has yet to yield it, and its VLAN tag. -/
structure FrameHead where
  mac : Option Bytes
  vlan : Nat
  deriving DecidableEq, Repr

/-- A reply before its header and trailer (R377). -/
structure Reply where
  status : Nat
  tlvs : List Tlv := []
  more : Bool := false
  dup : Bool := false
  deriving DecidableEq, Repr

/-- What the block presents at its ports in the course of one command. -/
inductive Output where
  | reply (path : Path) (opcode : Nat) (session : Nat) (seq : Nat) (r : Reply)
  | packet (path : Path) (bytes : Bytes)
  | datagram (frame : FrameHead) (dst : Endpoint) (payload : Bytes)
  | fragment (frame : FrameHead) (dst : Endpoint) (part : Fragment) (payload : Bytes)
  | icmp (dst : Bytes) (echo : Bool) (data : Bytes)
  | flit (door : Nat) (bytes : Bytes)
  | laneEnable (door : Nat) (on : Bool)
  | sample (port : Nat)
  | senseRequest (channel : Nat)
  | probeGo (tile : Nat) (p : ProbeDef)
  | probeDrop (tile : Nat)
  | probeAbort (tile : Nat)
  | stopRegion (region : Nat) (wait : Nat)
  | releaseRegion (region : Nat) (wait : Nat)
  | scanStart (mode : Nat) (tck : Nat)
  | scanShift (lane : Nat) (op : Nat) (bits : Nat) (tdi : Bytes)
  | storageWrite (tag : Nat) (area : Nat)
  | hoursOut (hours : Nat)
  | ptpDelayReq (seq : Nat) (stamp : Nat)
  | hostRead (data : Word)
  deriving DecidableEq, Repr

/-! ### The whole -/

structure State where
  build : Build := {}
  cfg : StartCfg := {}
  pwr : Pwr := {}
  frame : FrameEng := {}
  time : TimeBase := {}
  win : Windows := {}
  cats : List (Nat × Catalogue) := []    -- active catalogues: key 0 on a die unit, the group on a hub
  catsStaged : List (Nat × Catalogue) := []
  work : List (Nat × Acc) := []          -- the frame's pre-reduction, by metric index
  hub : HubFrame := {}
  net : Net := {}
  fea : Features := {}
  glen : Glen := {}
  prb : Probes := {}
  err : Errors := {}
  exp : Export := {}
  trc : Trace := {}
  wpt : Watch := {}
  sht : Shutter := {}
  cdc : Codec := {}
  evr : Recorder := {}
  mem : Mem := {}
  aud : Audit := {}
  sec : Security := {}
  asm : List Assembly := []
  queueHigh : Nat := 0                   -- command queue high-water mark
  host : HostDoor := {}
  pend : List Pend := []
  pnl : Panel := {}
  out : List Output := []                -- outputs of the last command (the model's own field)
  free : Nat := 0                        -- index of the next free value (the model's own field)
  pending : List Instr := []             -- the commands that wait, first in, first out
  deriving DecidableEq, Repr

/-- The state right after block reset of a block of the given build. -/
def State.resetFor (b : Build) : State :=
  { build := b
    frame := { status := if b.hub then 0xFF else 0x100000FF }
    win := { ports := List.replicate (if b.hub then 32 else 64) {}, chans := List.replicate 80 {} }
    net := { doors := List.replicate (if b.hub then 200 else 1) {} }
    cdc := { ctxs := List.replicate (if b.hub then 1 else 4) {} }
    mem := { banks := List.replicate (if b.hub then 256 else 32) 0 }
    pnl := { cages := if b.hub then List.replicate 96 {} else [] }
    glen := { lanes := List.replicate 16 none } }

/-- The machine right after reset: a die unit of the standard build (log entries 2 and 3). -/
def State.reset : State := State.resetFor {}

end Sys2Proof.Machine
end

