-- ==== Sys2Proof/Machine/Ops.lean ====
section
/-! DEFINITION. Shared operations: outputs, the passing of time (R52), identity, stamps (R50), frame instants (R15,
R22), the block's own counters (R90), the recorder queue (R352), deferred changes (R390, R391) and byte memory. -/
namespace Sys2Proof.Machine

/-! ### Outputs and free values -/

/-- The state a command starts from: the outputs of the command before are gone. -/
def State.fresh (s : State) : State := { s with out := [] }

/-- Present an output. -/
def State.emit (o : Output) (s : State) : State := { s with out := s.out ++ [o] }

/-- Present several outputs. -/
def State.emits (os : List Output) (s : State) : State := { s with out := s.out ++ os }

/-! ### Datagrams (R454) -/

/-- The gateway of the configuration, or, when that field is 0, what Neighbor Discovery has yielded for the destination. -/
def frameHead (addr : Bytes) (s : State) : FrameHead :=
  { mac := if allZero s.cfg.gateway then (s.net.neighbours.find? (·.1 == addr)).map (·.2) else some s.cfg.gateway, vlan := s.cfg.vlan }

/-- UDP payload of an unfragmented packet of 1,280 B, and of the first and the further fragments of a longer one. -/
def wholePayload : Nat := 1232
def firstPart : Nat := 1224

/-- The fragments of a payload: offset, more to come, bytes. -/
def fragmentParts (p : Bytes) : List (Nat × Bool × Bytes) :=
  (0, true, p.take firstPart) :: (List.range ((p.length - firstPart + wholePayload - 1) / wholePayload)).map fun i =>
    let o := firstPart + wholePayload * i
    (o, decide (o + wholePayload < p.length), slice p o wholePayload)

/-- A UDP datagram leaves; an IPv6 packet that would exceed 1,280 B leaves in fragments. -/
def sendDatagram (dst : Endpoint) (p : Bytes) (s : State) : State :=
  if p.length ≤ wholePayload then State.emit (.datagram (frameHead dst.addr s) dst p) s
  else
    let ident := Config.fragmentIdent s.net.fragmented % 2 ^ 32
    State.emits ((fragmentParts p).map fun q => .fragment (frameHead dst.addr s) dst ⟨ident, q.1, q.2.1⟩ q.2.2)
      { s with net := { s.net with fragmented := s.net.fragmented + 1 } }

/-- Draw `k` free bytes. -/
def drawBytes (k : Nat) (s : State) : Bytes × State :=
  (Config.freeBytes s.free k, { s with free := s.free + 1 })

/-! ### Time (R49 to R52) -/

/-- Units of 2^-32 ns in a nanosecond. -/
def nsUnit : Nat := 2 ^ 32

/-- Units of 2^-32 ns in a second. -/
def secUnit : Nat := 1000000000 * nsUnit

/-- What one block clock cycle adds to global time (R52): 1 ns and the rate correction. -/
def cycleUnits (s : State) : Nat := ((nsUnit : Int) + s.time.rate).toNat

/-- `k` block clock cycles pass. -/
def advance (k : Nat) (s : State) : State :=
  if s.pwr.phase == .off then s else
  { s with
    time := { s.time with now := if s.time.running then s.time.now + k * cycleUnits s else s.time.now }
    pwr := { s.pwr with cycles := s.pwr.cycles + k }
    evr := { s.evr with hourCtr := s.evr.hourCtr + k } }

/-- Cycles until global time first equals or passes `t` (R76). -/
def cyclesTo (t : Nat) (s : State) : Nat :=
  if t ≤ s.time.now then 0 else (t - s.time.now + cycleUnits s - 1) / cycleUnits s

/-- Time passes to the first block clock edge at or after global time `t` (R76). -/
def advanceTo (t : Nat) (s : State) : State :=
  if s.time.running then advance (cyclesTo t s) s else s

/-- Time passes until the block has run `c` cycles since power-up. -/
def advanceCycles (c : Nat) (s : State) : State := advance (c - s.pwr.cycles) s

/-- The start of a command that comes `after` cycles later. -/
def begin_ (after : Nat) (s : State) : State := advance after s.fresh

/-- Seconds, nanoseconds and sub-nanoseconds of a time (R49). -/
def secOf (t : Nat) : Nat := t / secUnit
def nsOf (t : Nat) : Nat := t / nsUnit % 1000000000
def subOf (t : Nat) : Nat := t / 2 ^ 16 % 2 ^ 16

/-- The short stamp of Table TIM-1. -/
def shortStamp (t : Nat) : Bytes := toLe 8 (secOf t) ++ toLe 4 (nsOf t)

/-- The full stamp of Table TIM-1. -/
def fullStamp (t : Nat) : Bytes := toLe 8 (secOf t) ++ toLe 4 (nsOf t) ++ toLe 2 (subOf t) ++ zeros 2

/-- The time that a full stamp names. -/
def stampTime (b : Bytes) : Nat :=
  rd b 0 8 * secUnit + bits (rd b 8 4) 0 30 * nsUnit + rd b 12 2 * 2 ^ 16

/-- The nanoseconds of a stamp are in their range (R49). -/
def stampOk (b : Bytes) : Bool := bits (rd b 8 4) 0 30 < 1000000000

/-- The rate correction's limit, 200 ppm, in 2^-32 ns per cycle (R52). -/
def rateLimit : Int := 858993

/-! ### Identity (R1 to R9) -/

/-- The identity in the form of bytes 28 to 31 of Table ERR-1 (R402). -/
def unitId (s : State) : Nat := s.cfg.unitId.toNat

def dieId (s : State) : Nat := bits (unitId s) 0 18
def hubAddr (s : State) : Nat := bits (unitId s) 0 16

/-- The role (R2): of a hub, from the hub address (Table SCO-7). -/
def role (s : State) : Role :=
  if s.build.hub then
    match bits (unitId s) 14 2 with
    | 2 => .pod
    | 3 => .root
    | _ => .tray
  else .die

/-- Plane of a hub: A or primary 0, B or secondary 1. -/
def plane (s : State) : Nat := bits (unitId s) 13 1
def hubNumber (s : State) : Nat := bits (unitId s) 0 11
def trayOf (die : Nat) : Nat := die / 128
def slotOf (die : Nat) : Nat := die % 128

/-- Slots 84 to 95 are reserved (R6). -/
def reservedSlot (n : Nat) : Bool := 84 ≤ n && n ≤ 95

def isDie (s : State) : Bool := !s.build.hub
def isTray (s : State) : Bool := role s == .tray
def isPod (s : State) : Bool := role s == .pod
def isRoot (s : State) : Bool := role s == .root
def isPrimary (s : State) : Bool := isRoot s && plane s == 0
def isSecondary (s : State) : Bool := isRoot s && plane s == 1

/-- The target block of R373. -/
def targetBlock (s : State) : Bytes := toLe 4 (unitId s) ++ zeros 4

/-- A value in the form of the target block is well formed: reserved bits 0, and with HUB bits [17:16] and the
address's reserved bits 0. -/
def unitFormOk (v : Nat) : Bool :=
  bits v 18 13 == 0 && (!bit v 31 || (bits v 16 2 == 0 && bits v 11 2 == 0))

/-- The block works: it has left reset and PC_READY is high (R464). -/
def working (s : State) : Bool := s.pwr.phase == .working

/-- Out of reset: start-up has begun (R464). -/
def outOfReset (s : State) : Bool := s.pwr.phase == .starting || s.pwr.phase == .working

/-! ### The frame (R15 to R22) -/

/-- The frame that the engine last began, 0 before the first. -/
def curFrame (s : State) : Nat := s.frame.last.getD 0

/-- The period in 2^-32 ns. -/
def periodUnits (p : FrameParams) : Nat := p.period * 1000 * nsUnit

/-- The tick of frame `n` under parameters `p` (R15). -/
def tickTime (p : FrameParams) (n : Nat) : Nat := p.anchorNs * nsUnit + (n - p.anchor) * periodUnits p

/-- The first frame whose tick under `p` lies at or after time `t`. -/
def frameAfter (p : FrameParams) (t : Nat) : Nat :=
  if t ≤ p.anchorNs * nsUnit then p.anchor
  else p.anchor + (t - p.anchorNs * nsUnit + periodUnits p - 1) / periodUnits p

/-- A mark of `m` per mille, in 2^-32 ns after the tick (R22). -/
def markUnits (p : FrameParams) (m : Nat) : Nat := p.period * m * nsUnit

/-- The instant of a mark of the running frame. -/
def markAt (m : Nat) (s : State) : Nat := s.frame.tickAt + markUnits s.frame.params m

/-- S of R22, whole microseconds: the time to send `limit` KiB at 4 Gb/s, rounded up, and 2 µs. -/
def sendTime (limit : Nat) : Nat := (limit * 1024 * 8 + 3999) / 4000 + 2

/-- Send cutoff of the running frame (R22). -/
def cutoffAt (s : State) : Nat :=
  s.frame.tickAt + (markUnits s.frame.params s.frame.params.emit - sendTime s.frame.params.limit * 1000 * nsUnit)

/-- Arrival grace in 2^-32 ns. -/
def graceUnits (s : State) : Nat := s.frame.params.grace * 1000 * nsUnit

/-- Input close of a hub (R31): the mark of the level below and G. -/
def inputCloseAt (s : State) : Nat :=
  let p := s.frame.params
  markAt (match role s with | .pod => p.tray | .root => p.pod | _ => p.emit) s + graceUnits s

/-- A hub's own mark (R33): a tray hub in tray scope keeps its tray mark. -/
def ownMarkAt (s : State) : Nat :=
  let p := s.frame.params
  markAt (match role s with | .pod => p.pod | .root => p.root | _ => p.tray) s

/-- Return close (R45). -/
def returnCloseAt (s : State) : Nat := markAt s.frame.params.ret s + graceUnits s

/-- Counted as locked for R20 (Table TIM-2): a unit other than a root leaves HOLDOVER by expiry (R65). -/
def countsLocked (s : State) : Bool :=
  s.time.lock == 1 || s.time.lock == 2 || (s.time.lock == 3 && isRoot s)

/-! ### The block's own counters (R85, R90); indices are this model's (log entry 8) -/

/-- First index of the window range (R85). -/
def windowFirst (s : State) : Nat := if s.build.hub then 2048 else 1024

/-- Number of counters in the file. -/
def ctrCount (s : State) : Nat := if s.build.hub then 16384 else 8192

def ctrPoison : Nat := 0
def ctrAlarm : Nat := 1
def ctrVolume (port cls : Nat) : Nat := 64 + 5 * port + cls
def ctrWatch (w : Nat) : Nat := 640 + w
def ctrStretchEpisodes (region : Nat) : Nat := 384 + 2 * region
def ctrStretchCycles (region : Nat) : Nat := 385 + 2 * region

/-- The store port works when every stack is ready (R456). -/
def storeUsable (s : State) : Bool := s.build.hub && s.mem.storeRdy.all id

/-- All banks of a range are on (Table SRM-3). -/
def banksOn (first n : Nat) (s : State) : Bool := ((List.range n).map (· + first)).all fun b => s.mem.banks.getD b 0 == 0

/-- The banks of the trace buffer and capture store are on (R367). -/
def traceBanksOn (s : State) : Bool := s.build.hub || banksOn 24 4 s

/-! ### Recorder queue (R351, R352, R354) -/

/-- The recorder holds 4,096 entries (R354). -/
def evrFull (s : State) : Bool := s.evr.head - s.evr.base ≥ 4096

/-- The place of an entry among those of its edge (R352): window events by port, then the block's own entries by code. -/
def evrKey (e : EvrEntry) : Nat := if 0x0F10 ≤ e.code && e.code < 0x1000 then e.code else e.origin

/-- An entry joins the queue, before those of its own edge that come after it. -/
def insertEvr (e : EvrEntry) : List EvrEntry → List EvrEntry
  | [] => [e]
  | x :: r => if x.edge == e.edge && evrKey e < evrKey x then e :: x :: r else x :: insertEvr e r

/-- Rows of both recorder banks that a clear has zeroed by now: one row a cycle, in ascending order (R360). -/
def clearedRows (s : State) : Nat := if s.evr.clearing then min 4096 (s.pwr.cycles - s.evr.clearAt) else 0

/-- A slot of a bank of which the first `rows` rows are zero: two 32 B rows a slot, 2,048 slots a bank (R353). -/
def zeroRows (rows i : Nat) (b : Bytes) : Bytes :=
  let n := 32 * min 2 (rows - 2 * (i % 2048))
  zeros (min n b.length) ++ b.drop n

/-- What stands in slot `i` now. -/
def slotNow (i : Nat) (s : State) : Bytes :=
  zeroRows (clearedRows s) i (if i == s.evr.head - s.evr.base then s.evr.torn else s.evr.slots.getD i [])

/-- An entry arises: it waits in the recorder queue, or is refused and counted. -/
def enqueueEvr (e : EvrEntry) (s : State) : State :=
  if evrFull s && !s.evr.clearing then
    { s with evr := { s.evr with refFull := satAdd u32Max s.evr.refFull 1
                                 firstRefusal := s.evr.firstRefusal.or (some e.stamp) } }
  else if s.evr.queue.length ≥ 64 then
    { s with evr := { s.evr with refBusy := satAdd u32Max s.evr.refBusy 1 } }
  else { s with evr := { s.evr with queue := insertEvr { e with edge := s.pwr.cycles } s.evr.queue } }

/-- The block's own entry of Table EVR-2, stamped with the time at which it arises. -/
def ownEntry (code : Nat) (entity kind : Nat) (payload : Bytes) (s : State) : State :=
  enqueueEvr { code := code, origin := 0xFF, clock := 0, unlocked := s.time.lock == 0, entity := entity, kind := kind
               stamp := s.time.now, frame := curFrame s, payload := fit 12 payload } s

/-- Add to a counter of the counter file (R85, R90): it saturates, and COUNTER_SATURATED arises once. -/
def addCtr (i n : Nat) (s : State) : State :=
  let c := tget {} i s.win.ctrs
  let v := satAdd u64Max c.live n
  let hit := v == u64Max && !c.saturated && n > 0
  let s := { s with win := { s.win with ctrs := tput i { c with live := v, saturated := (c.saturated || hit) } s.win.ctrs } }
  if hit then ownEntry 0x0F00 0 0 (toLe 2 i) s else s

/-! ### Entities (R7, R8, R194) -/

/-- The kind of an entity: the active feature table's; without one, entity 0 is the die (R7) and the rest have the
kind that the caller names. -/
def entityKind (i dflt : Nat) (s : State) : Nat :=
  if i == 0 then 0 else
  match s.fea.active with
  | some t => match tfind i t.entities with
    | some e => e.kind
    | none => dflt
  | none => dflt

/-- The entity index that stands for a door or its link: the door's number (log entry 9). -/
def doorEntity (d : Nat) : Nat := d % 100

/-! ### Deferred changes (R390, R391) -/

/-- The pending change of an object. -/
def pendOf (opcode object : Nat) (s : State) : Option Pend :=
  s.pend.find? fun p => p.opcode == opcode && p.object == object

/-- Put a pending change, in ascending opcode and object order; an older one of the object is replaced. -/
def setPend (p : Pend) (s : State) : State :=
  let rest := s.pend.filter fun q => !(q.opcode == p.opcode && q.object == p.object)
  let before (a b : Pend) : Bool := a.opcode < b.opcode || (a.opcode == b.opcode && a.object < b.object)
  { s with pend := insertBy before p rest }

/-- Take the pending change of an object away. -/
def dropPend (opcode object : Nat) (s : State) : State :=
  { s with pend := s.pend.filter fun q => !(q.opcode == opcode && q.object == object) }

/-! ### Byte memory: cells with strictly rising addresses, none equal to what an unlisted address reads as, 0 (R368) -/

/-- The byte at an address. -/
def memGet (m : List Host.Cell) (a : Nat) : Byte := tget 0 a m

/-- Write one byte; a zero takes the cell away. -/
def memPut (m : List Host.Cell) (a : Nat) (b : Byte) : List Host.Cell :=
  if b = 0 then tdel a m else tput a b m

/-- Write bytes from an address on. -/
def memWrite : List Host.Cell → Nat → Bytes → List Host.Cell
  | m, _, [] => m
  | m, a, b :: bs => memWrite (memPut m a b) (a + 1) bs

/-- Read `n` bytes from an address on. -/
def memRead (m : List Host.Cell) (a n : Nat) : Bytes := (List.range n).map fun i => memGet m (a + i)

/-- The canonical form. -/
def Memory.wf : List Host.Cell → Bool
  | [] => true
  | (_, b) :: [] => b != 0
  | (a, b) :: (a', b') :: r => b != 0 && decide (a < a') && Memory.wf ((a', b') :: r)

end Sys2Proof.Machine
end

