-- ==== Sys2Proof/Machine/Operands.lean ====
section
/-! DEFINITION. Operand forms of the opcodes: TLVs (R374 to R376), replies (R377 to R379), status codes (R380), and
the checks of rows 8 to 10 of Table CMD-5 that every opcode shares. -/
namespace Sys2Proof.Machine

/-! ### Status codes (Table CMD-4) -/
def stOk : Nat := 0x0000
def stDeferred : Nat := 0x0001
def stBadOpcode : Nat := 0x0100
def stBadLength : Nat := 0x0101
def stBadParam : Nat := 0x0102
def stRange : Nat := 0x0103
def stState : Nat := 0x0104
def stBusy : Nat := 0x0105
def stSpace : Nat := 0x0106
def stAuth : Nat := 0x0200
def stPermit : Nat := 0x0201
def stSig : Nat := 0x0202
def stReplay : Nat := 0x0203
def stVersion : Nat := 0x0300
def stFormat : Nat := 0x0301

/-! ### TLV types (Table CMD-3) -/
def tFrame : Nat := 0x0001
def tTime : Nat := 0x0002
def tIndex : Nat := 0x0003
def tRange : Nat := 0x0004
def tChoice : Nat := 0x0005
def tUnit : Nat := 0x0006
def tEntity : Nat := 0x0007
def tSeq : Nat := 0x0008
def tOffset : Nat := 0x0009
def tCount : Nat := 0x000A
def tVersion : Nat := 0x000B
def tGroupTag : Nat := 0x000C
def tFlag : Nat := 0x000D
def tEndpoint : Nat := 0x000E
def tPiece : Nat := 0x000F
def tData : Nat := 0x0010
def tMask : Nat := 0x0011
def tSerial : Nat := 0x0012
def tSetting (r : Nat) : Nat := 0x0080 + r
def tEffect : Nat := 0x0100
def tDetail : Nat := 0x0101
def tReplaced : Nat := 0x0102
def tItems : Nat := 0x0103
def tPending : Nat := 0x0104
def tRecord : Nat := 0x0180
def tState (r : Nat) : Nat := 0x0200 + r

/-- A TLV that runs past its body, and the offset that marks nonzero padding: what a packet's bytes can carry and a
well-formed body cannot. -/
def tOverrun : Nat := 0x10000
def tBadPad : Nat := 0x20000

/-- The fixed value length of a request type, where it has one. -/
def fixedLen (ty : Nat) : Option Nat :=
  match ty with
  | 0x0001 | 0x0004 | 0x0008 | 0x0009 | 0x000C => some 8
  | 0x0002 => some 16
  | 0x0003 | 0x0005 | 0x0006 | 0x0007 | 0x000A | 0x000B | 0x000D | 0x0012 => some 4
  | 0x000E => some 20
  | _ => none

/-- No reserved bit or byte of a value is set. -/
def reservedClear (ty : Nat) (v : Bytes) : Bool :=
  match ty with
  | 0x0002 => bits (rd v 8 4) 30 2 == 0 && allZero (slice v 14 2)
  | 0x0005 | 0x000D => allZero (slice v 1 3)
  | 0x0006 => unitFormOk (rd v 0 4)
  | 0x0007 => bits (rd v 0 4) 12 20 == 0
  | 0x000C => allZero (slice v 1 3)
  | 0x000E => allZero (slice v 18 2)
  | _ => true

/-- One parameter of an opcode: its type, whether it may be left out, how often it may stand, and the length of a
SETTING's value. -/
structure Param where
  ty : Nat
  need : Bool := true
  max : Nat := 1
  len : Option Nat := none

def must (ty : Nat) : Param := { ty := ty }
def may (ty : Nat) : Param := { ty := ty, need := false }
def many (ty max : Nat) : Param := { ty := ty, max := max }
def mayMany (ty max : Nat) : Param := { ty := ty, max := max, need := false }
/-- An optional SETTING of `n` bytes. -/
def setting (r n : Nat) : Param := { ty := tSetting r, need := false, len := some n }
/-- A SETTING the opcode needs. -/
def mustSetting (r n : Nat) : Param := { ty := tSetting r, len := some n }

/-- The length fault of one TLV. -/
def lengthBad (p : Option Param) (t : Tlv) : Bool :=
  let ty := t.ty % tBadPad
  t.ty == tOverrun ||
  (match (p.bind (·.len)).or (fixedLen ty) with
   | some n => t.val.length != n
   | none => ty == tPiece && t.val.length < 8)

/-- The walk of R374: the first fault in body order decides. `seen` is the type before and how often it has stood. -/
def walk (ps : List Param) : List Tlv → Nat → Nat → Option Nat
  | [], _, _ => none
  | t :: r, prev, cnt =>
    let ty := t.ty % tBadPad
    let p := ps.find? (·.ty == ty)
    if lengthBad p t then some stBadLength else
    match p with
    | none => some stBadParam
    | some p =>
      let n := if ty == prev then cnt + 1 else 1
      if ty < prev || n > p.max || t.ty ≥ tBadPad || !reservedClear ty t.val then some stBadParam
      else walk ps r ty n

/-- Row 9: the walk, then a parameter that the opcode needs and the body lacks. -/
def checkBody (ps : List Param) (body : List Tlv) : Option Nat :=
  match walk ps body 0 0 with
  | some e => some e
  | none => if ps.any fun p => p.need && !body.any (·.ty == p.ty) then some stBadParam else none

/-! ### Reading parameters -/

/-- The values of a type, in order. -/
def vals (ty : Nat) (b : List Tlv) : List Bytes := (b.filter (·.ty == ty)).map (·.val)
def val? (ty : Nat) (b : List Tlv) : Option Bytes := (vals ty b).head?
/-- The number that the first value of a type spells. -/
def num? (ty : Nat) (b : List Tlv) : Option Nat := (val? ty b).map le
def num (ty : Nat) (b : List Tlv) : Nat := (num? ty b).getD 0
def nums (ty : Nat) (b : List Tlv) : List Nat := (vals ty b).map le
/-- A CHOICE or FLAG: its first byte. -/
def choice (b : List Tlv) : Nat := byteAt ((val? tChoice b).getD []) 0
def flag (b : List Tlv) : Bool := byteAt ((val? tFlag b).getD []) 0 == 1
/-- A FLAG other than 0 or 1 stands in the body. -/
def flagBad (b : List Tlv) : Bool := (nums tFlag b).any (· > 1)
def set? (r : Nat) (b : List Tlv) : Option Nat := num? (tSetting r) b
/-- RANGEs as first index and count. -/
def ranges (b : List Tlv) : List (Nat × Nat) := (vals tRange b).map fun v => (rd v 0 4, rd v 4 4)
/-- The members of a MASK. -/
def maskBits (v : Bytes) : List Nat := (List.range (8 * v.length)).filter fun n => bit (byteAt v (n / 8)) (n % 8)
/-- A MASK of `n` bits over the members of a list. -/
def toMask (n : Nat) (l : List Nat) : Bytes :=
  (List.range ((n + 7) / 8)).map fun i => BitVec.ofNat 8 (sumN ((List.range 8).map fun k => if l.contains (8 * i + k) then 2 ^ k else 0))

/-! ### Replies (R377 to R379) -/

def refuse (st : Nat) : Reply := { status := st }
/-- A DETAIL of a sub-code and an entry. -/
def detail (st code entry : Nat) : Reply :=
  { status := st, tlvs := [⟨tDetail, toLe 2 code ++ zeros 2 ++ toLe 4 entry⟩] }
def okay (tlvs : List Tlv) : Reply := { status := stOk, tlvs := tlvs }

def stU32 (r v : Nat) : Tlv := ⟨tState r, toLe 4 v⟩
def stU64 (r v : Nat) : Tlv := ⟨tState r, toLe 8 v⟩
def stU8 (r v : Nat) : Tlv := ⟨tState r, toLe 1 v⟩
def stBytes (r : Nat) (b : Bytes) : Tlv := ⟨tState r, b⟩
def stS (r n : Nat) (v : Int) : Tlv := ⟨tState r, toLeS n v⟩
def setU32 (r v : Nat) : Tlv := ⟨tSetting r, toLe 4 v⟩
def setU8 (r v : Nat) : Tlv := ⟨tSetting r, toLe 1 v⟩
def setBytes (r : Nat) (b : Bytes) : Tlv := ⟨tSetting r, b⟩
def record (b : Bytes) : Tlv := ⟨tRecord, b⟩
def effect (f : Nat) : Tlv := ⟨tEffect, toLe 8 f⟩
/-- An optional number as one present byte and its value. -/
def optNum (n : Nat) (v : Option Nat) : Bytes := toLe 1 (b2n v.isSome) ++ toLe n (v.getD 0)

/-- Bytes of a TLV with its padding. -/
def tlvBytes (t : Tlv) : Bytes := toLe 2 t.ty ++ toLe 2 t.val.length ++ padTo 4 t.val
def bodyBytes (ts : List Tlv) : Bytes := ts.flatMap tlvBytes

/-- A pending change in a reply: PENDING with EFFECT and then the settings (R378). -/
def pending_ (f : Nat) (settings : List Tlv) : Tlv := ⟨tPending, bodyBytes (effect f :: settings)⟩

/-- How many items, as RECORDs, fit in a space. -/
def fitting : Nat → List Bytes → Nat
  | _, [] => 0
  | space, b :: r =>
    let c := (tlvBytes (record b)).length
    if c ≤ space then fitting (space - c) r + 1 else 0

/-- The TLVs of a reply that has further items, in ascending type. -/
def withItems (fixed : List Tlv) (n next : Nat) (items : List Bytes) : List Tlv :=
  fixed.filter (·.ty < tItems) ++ [⟨tItems, toLe 4 n ++ zeros 4 ++ toLe 8 next⟩] ++
    (fixed.filter fun t => tItems ≤ t.ty && t.ty < tRecord) ++ items.map record ++ fixed.filter (tRecord ≤ ·.ty)

/-- A readout (R379): the whole items that fit beside the fixed TLVs, and ITEMS with MORE where others exist. `next`
gives the position of the first item left out. Version 1 has neither (R395). -/
def readout (version : Nat) (fixed : List Tlv) (items : List Bytes) (next : Nat → Nat) : Reply :=
  let room := 2016 - 8 - (bodyBytes fixed).length
  let n := fitting room items
  if n == items.length then
    okay (fixed.filter (·.ty < tRecord) ++ items.map record ++ fixed.filter (tRecord ≤ ·.ty))
  else if version == 1 then refuse stBadLength
  else
    let n := fitting (room - 20) items
    { status := stOk, tlvs := withItems fixed n (next n) (items.take n), more := true }

/-- A byte run read by OFFSET (R379): each run one RECORD of at most 1,984 B less the fixed TLVs. -/
def byteRun (version : Nat) (fixed : List Tlv) (data : Bytes) (off : Nat) : Reply :=
  let rest := data.drop off
  let room := min 1984 (2016 - 8 - (bodyBytes fixed).length - 24)
  if rest.length ≤ room then okay ((fixed.filter (·.ty < tRecord)) ++ [record rest] ++ fixed.filter (tRecord ≤ ·.ty))
  else if version == 1 then refuse stBadLength
  else
    let n := room / 4 * 4
    { status := stOk, tlvs := withItems fixed 1 (off + n) [rest.take n], more := true }

/-! ### Authorisations (Table SEC-2) -/
def authRead : Nat := 0
def authOperate : Nat := 1
def authUpdate : Nat := 2
def authKeys : Nat := 3
def authCapture : Nat := 4
def authClear : Nat := 5

/-- The session a request names, if the unit holds it. -/
def sessionOf (id : Nat) (s : State) : Option Session := s.sec.sessions.find? (·.id == id)

/-- The session holds an authorisation. -/
def holds (id a : Nat) (s : State) : Bool :=
  match sessionOf id s with
  | some x => bit x.auth a
  | none => false

/-- What an opcode is to rows 8 and 9: its code, the authorisation it needs, the units it is for, its parameters. -/
structure Op where
  code : Nat
  auth : Nat := authOperate
  params : List Param := []

/-- In BOOT the boot ROM executes the SEC and CMD opcodes and SHUTTER.STOP (R428). -/
def bootOpcode (code : Nat) : Bool := code / 256 == 0x15 || code / 256 == 0x16 || code == 0x1002

/-- Rows 4 and 8 to 10 of Table CMD-5 for a request that has passed the rows between: a boundary in SELF_TEST answers
BUSY and one in ERROR AUTH_FAIL (R416), an unknown session AUTH_FAIL, then the boot ROM's WRONG_STATE (R428), profile,
role and authorisation, the TLVs, and the chapter's own checks and effect in `act`. A refusal leaves the state
unchanged (R381). -/
def command (o : Op) (allowed : Bool) (r : Request) (act : List Tlv → State → Reply × State) (s : State) : Reply × State :=
  if !working s || s.sec.boundary == .selfTest then (refuse stBusy, s)
  else if s.sec.boundary == .error || (sessionOf r.session s).isNone then (refuse stAuth, s)
  else if s.sec.active.isNone && !bootOpcode o.code then (refuse stState, s)
  else if !allowed || !holds r.session o.auth s then (refuse stPermit, s)
  else match checkBody o.params r.body with
    | some e => (refuse e, s)
    | none => act r.body s

/-- A change at frame F (R390): F later than the current frame, then DEFERRED with EFFECT, and REPLACED for the pending
change of the object that it replaces (R391). -/
def defer (code object f : Nat) (c : Change) (s : State) : Reply × State :=
  if f ≤ curFrame s then (refuse stRange, s) else
  let old := (pendOf code object s).map fun p => (⟨tReplaced, toLe 8 p.frame⟩ : Tlv)
  ({ status := stDeferred, tlvs := effect f :: old.toList }, setPend ⟨code, object, f, c⟩ s)

end Sys2Proof.Machine
end

