-- ==== Sys2Proof/Machine/Raise.lean ====
section
/-! DEFINITION. Raising an error record (R247 to R251), the outbound ring (R256 to R259), and the Borven signatures
that a tray hub builds from records (R268 to R270). -/
namespace Sys2Proof.Machine

/-! ### Sensor conditions (R248) -/

def chanAt (c : Nat) (s : State) : Chan := s.win.chans.getD c {}

/-- The channels that the sensor map assigns to an entity, in a range of channels: a tile's by the tile field, another
entity's by the sensor-site entity (R101). -/
def chansOf (entity kind lo hi : Nat) (s : State) : List Nat :=
  match s.win.map with
  | none => []
  | some m => ((List.range (hi - lo)).map (· + lo)).filter fun c =>
      let w := (m.getD c 0).toNat
      if kind == 1 then bits w 12 6 == entity else bits w 0 12 == entity && entity != 0

/-- R102: raw code to value, with RANGE_LOW and RANGE_HIGH. -/
def trimValue : List (Nat × Int) → Nat → Int × Bool × Bool
  | [], _ => (0, false, false)
  | (c0, v0) :: r, c =>
    if c ≤ c0 then (v0, true, false)
    else
      let rec go (ci : Nat) (vi : Int) : List (Nat × Int) → Int × Bool × Bool
        | [] => (vi, false, true)
        | (cj, vj) :: r =>
          if c ≥ cj then go cj vj r
          else
            let n : Int := ((c : Int) - ci) * (vj - vi)
            let q : Int := (cj : Int) - ci
            (vi + (2 * n + q) / (2 * q), false, false)
      go c0 v0 r

/-- A raw code of a channel as a value under the channel's present trim; frequency channels have none (R102 to R104). -/
def reading (ch code : Nat) (k : Chan) : Int × Bool × Bool :=
  if ch ≥ 72 then ((code : Int), false, false) else trimValue k.trim code

/-- A channel's latest conversion by a cycle, with its range flag: none where the channel is missing, which is a channel with no
conversion in the running frame and none in the frame that the last tick ended (R100, log entry 136). -/
def convAt (c cycle : Nat) (s : State) : Option (Int × Bool) :=
  let k := chanAt c s
  if k.codes.isEmpty && k.value.isNone then none else
  (k.recent.find? fun x => x.1 ≤ cycle).map fun x => let r := reading c x.2 k; (r.1, r.2.1 || r.2.2)

/-- The temperature channel with the highest value of the frame. -/
def hottest (cycle : Nat) (s : State) : Option Nat :=
  let value (c : Nat) : Int := ((convAt c cycle s).map (·.1)).getD 0
  bestBy (fun a b => value a > value b) ((List.range 48).filter fun c => (convAt c cycle s).isSome)

/-- Temperature, voltage and frequency for a subject of the unit: the latest conversions by a cycle (R248). -/
def conditions (entity kind cycle : Nat) (s : State) : Sensed :=
  let read (c : Option Nat) : Option (Int × Bool) := c.bind fun c => convAt c cycle s
  let t := (chansOf entity kind 0 48 s).head?
  let v := (chansOf entity kind 48 72 s).head?
  let f := (chansOf entity kind 72 80 s).head?
  if s.win.map.isNone then {}
  else { temp := read (t.or (hottest cycle s)), volt := read (v.or (some 48)), freq := read (f.or (some 72)) }

/-! ### The ring (R257 to R259) -/

/-- Entries that the outbound ring holds (R257). -/
def ringCap (s : State) : Nat := if s.build.hub then 16384 else 4096

/-- merge of R258. -/
def mergeMarks (a b : Option Mark) : Option Mark :=
  match a, b with
  | none, b => b
  | a, none => a
  | some a, some b => some ⟨satAdd u16Max a.count b.count, max a.severity b.severity,
      if a.cause == 1 || b.cause == 1 then 1 else max a.cause b.cause⟩

/-- The mark of one loss. -/
def oneLoss (sev : Nat) : Option Mark := some ⟨1, sev, 0⟩

/-- The ring without entry `i`, its loss passed to the entry after it; none when it was the newest. -/
def dropAt : Nat → List RingEntry → List RingEntry × Option Mark
  | _, [] => ([], none)
  | 0, v :: r =>
    let m := mergeMarks v.mark (oneLoss v.severity)
    match r with
    | [] => ([], m)
    | w :: r' => ({ w with mark := mergeMarks w.mark m } :: r', none)
  | i + 1, v :: r =>
    let (r', m) := dropAt i r
    (v :: r', m)

/-- Index of the newest entry of the lowest severity. -/
def newestLowest (ring : List RingEntry) : Nat × Nat :=
  let low := ring.foldl (fun a e => min a e.severity) 3
  let idx := (ring.zipIdx.filter fun p => p.1.severity == low).foldl (fun _ p => p.2) 0
  (low, idx)

def countDrop (sev : Nat) (e : Errors) : Errors := { e with drops := modifyAt sev (· + 1) e.drops }

/-- place of R258. -/
def place (cap : Nat) (x : RingEntry) (e : Errors) : Errors :=
  if e.ring.length < cap then
    { e with ring := e.ring ++ [{ x with mark := e.tail }], tail := none }
  else
    let (low, i) := newestLowest e.ring
    if x.severity ≤ low then
      countDrop x.severity { e with tail := mergeMarks e.tail (oneLoss x.severity) }
    else
      let (ring, lost) := dropAt i e.ring
      let tail := mergeMarks e.tail lost
      countDrop low { e with ring := ring ++ [{ x with mark := tail }], tail := none }

/-! ### CBOR (R269) -/

/-- A CBOR head: major type and argument, shortest form, big-endian. -/
def cborHead (major v : Nat) : Bytes :=
  let m := 32 * major
  if v < 24 then [BitVec.ofNat 8 (m + v)]
  else if v < 256 then BitVec.ofNat 8 (m + 24) :: toBe 1 v
  else if v < 65536 then BitVec.ofNat 8 (m + 25) :: toBe 2 v
  else if v < 2 ^ 32 then BitVec.ofNat 8 (m + 26) :: toBe 4 v
  else BitVec.ofNat 8 (m + 27) :: toBe 8 v
def cborNat (v : Nat) : Bytes := cborHead 0 v
def cborBytes (b : Bytes) : Bytes := cborHead 2 b.length ++ b
def cborOpt (v : Option Nat) : Bytes := match v with | some n => cborNat n | none => [0xF6]
/-- A map of key and encoded value, in the order given. -/
def cborMap (kv : List (Nat × Bytes)) : Bytes := cborHead 5 kv.length ++ kv.flatMap fun p => cborNat p.1 ++ p.2

/-- Items 2 to 7 of Table ERR-9. -/
def sigKeys (g : Sig) : List (Nat × Bytes) :=
  [(2, cborNat g.cls), (3, cborNat g.kind),
   (4, cborMap [(1, cborOpt g.tbin), (2, cborOpt g.vbin), (3, cborOpt g.lbin), (4, cborOpt g.freq)]),
   (5, cborNat g.probe), (6, cborNat g.fw), (7, cborNat g.format)]

/-- The signature ID (R270). -/
def sigId (g : Sig) : Bytes := (sha256 (cborMap (sigKeys g))).take 8

/-- The Borven record of a signature over a period (Table ERR-9). -/
def borven (g : Sig) (first last : Nat) : Bytes :=
  cborMap ([(1, cborBytes (sigId g))] ++ sigKeys g ++
    [(8, cborMap [(1, cborNat g.occurrences), (2, cborNat g.dies.length), (3, cborNat g.confirmed),
                  (4, cborNat g.transient), (5, cborNat g.passes)]),
     (9, cborHead 4 2 ++ cborNat first ++ cborNat last)])

/-! ### Signatures (R268, R470) -/

/-- Temperature bin of Table PRB-5. -/
def tempBin (v : Int) : Option Nat := if 1920 ≤ v && v < 7040 then some ((v - 1920) / 640).toNat else none

/-- Classes from which signatures are built (Table ERR-3). -/
def sigClass (c : Nat) : Bool :=
  c == 0x0C || c == 0x0D || (0x11 ≤ c && c ≤ 0x14) || (0x17 ≤ c && c ≤ 0x1B) || (0x40 ≤ c && c ≤ 0x47) || c ≥ 0x80

/-- The door of a tray hub whose last hello named a die. -/
def doorOfDie (die : Nat) (s : State) : Option Nat :=
  findIdx (fun d => d.dir == 1 && d.accepted && rd d.peerHello 4 4 % 2 ^ 18 == die && byteAt d.peerHello 0 == 0) s.net.doors

/-- Highest bit that is set in a mask. -/
def topBit (v : Nat) : Nat := if v = 0 then 0 else v.log2

/-- Firmware and format version that a subject's last hello announced (R268), whatever its door's state is now. -/
def versionsOf (unit : Nat) (s : State) : Nat × Nat :=
  if bit unit 31 then
    (match s.sec.active with | some k => (s.sec.slots.getD k {}).version | none => 0, 4)
  else match findIdx (fun d => d.dir == 1 && rd d.peerHello 4 4 % 2 ^ 18 == bits unit 0 18 && !d.peerHello.isEmpty && byteAt d.peerHello 0 == 0) s.net.doors with
    | some d => let h := (s.net.doors.getD d {}).peerHello; (rd h 16 4, topBit (rd h 10 2))
    | none => (0, 0)

/-- The cage that carries a door (R469). -/
def cageOfDoor (d : Nat) (s : State) : Option Nat :=
  let m := s.cfg.cageMap
  if m.all (· == 0xFF) then
    (if d < (if isPod s then 64 else 96) then some d else none)
  else findIdx (fun b => b.toNat == d) m

/-- A stamp falls in a service window of a cage (R470). -/
def inWindow (cage stamp : Nat) (s : State) : Bool :=
  (s.pnl.cages.getD cage {}).windows.any fun w => w.1 ≤ stamp && (match w.2 with | some e => stamp ≤ e | none => true)

/-- A LANE_RETIRED or LINK_QUARANTINED record within a service window feeds no signature (R470). -/
def servicedRecord (rec : Bytes) (s : State) : Bool :=
  let c := byteAt rec 38
  let stamp := rd rec 8 8 * secUnit + rd rec 16 4 * nsUnit
  let unit := rd rec 32 4
  let door := if bit unit 31 then some (byteAt rec 52) else doorOfDie (bits unit 0 18) s
  (c == 0x0C || c == 0x0D) && (match door.bind fun d => cageOfDoor d s with
    | some g => inWindow g stamp s
    | none => false)

/-- A signature has a key. -/
def sigSame (key g : Sig) : Bool := { g with occurrences := 0, dies := [], confirmed := 0, transient := 0, passes := 0 } == key

/-- Add one occurrence to the signature of a key; one that finds no room of 4,096 is counted (R270). -/
def sigAdd (key : Sig) (die : Option Nat) (f : Sig → Sig) (e : Export) : Export :=
  let up (g : Sig) : Sig := f { g with occurrences := g.occurrences + 1, dies := match die with
    | some d => if g.dies.contains d then g.dies else g.dies ++ [d]
    | none => g.dies }
  match findIdx (sigSame key) e.sigs with
  | some i => { e with sigs := modifyAt i up e.sigs }
  | none => if e.sigs.length ≥ 4096 then { e with overflow := e.overflow + 1 } else { e with sigs := e.sigs ++ [up key] }

/-- The signature key of an error record (R268). -/
def recordKey (rec : Bytes) (s : State) : Sig :=
  let fl := byteAt rec 39
  let (fw, fmt) := versionsOf (rd rec 32 4) s
  let cls := byteAt rec 38
  { cls := cls, kind := bits (rd rec 36 2) 12 4
    tbin := if bit fl 4 then none else tempBin (signed 16 (rd rec 42 2))
    vbin := none, lbin := none
    freq := if bit fl 6 then none else some (rd rec 46 2 / 100 * 100)
    probe := if 0x11 ≤ cls && cls ≤ 0x14 then rd rec 52 4 else 0
    fw := fw, format := fmt }

/-- Bodies of an export item: at most 1,184 B each, at least one (R266). -/
def exportChunks (item : Bytes) : List Bytes := if item.isEmpty then [[]] else records 1184 item

/-- Export datagrams of an item (R266, R267): its kind is enabled, the collector is set and the session is held. -/
def exportItem (kind frame : Nat) (item : Bytes) (s : State) : State :=
  let x := s.exp
  match s.sec.sessions.find? (·.id == x.session) with
  | none => s
  | some k =>
    if !bit x.enables (kind - 1) || x.collector.addr.isEmpty then s else
    let cs := exportChunks item
    let one (s : State) (p : Bytes × Nat) : State :=
      let head := toLe 1 1 ++ toLe 1 kind ++ toLe 2 (hubAddr s) ++ toLe 4 (x.seq + p.2) ++ toLe 8 frame ++ toLe 2 p.2 ++ toLe 2 cs.length ++
        toLe 4 item.length ++ zeros 8
      sendDatagram x.collector (head ++ p.1 ++ trailerOf k.key (targetBlock s) head p.1) s
    cs.zipIdx.foldl one { s with exp := { x with seq := (x.seq + cs.length) % 2 ^ 32 } }

/-- First frame of the export period of a frame (R270). -/
def periodStart (f : Nat) (s : State) : Nat := f / s.exp.period * s.exp.period

/-- The die that a subject counts as among the tray's 128 slots; a hub counts as none (R270). -/
def ownSlot (unit : Nat) (s : State) : Option Nat :=
  if bit unit 31 || trayOf (bits unit 0 18) != hubNumber s then none else some (bits unit 0 18)

/-- One occurrence on a die joins a signature; PROBE_CONFIRMED exports the signature at once, with the period so far (R270). -/
def signOccurrence (key : Sig) (die : Option Nat) (s : State) : State :=
  let c := key.cls
  let f (g : Sig) : Sig := { g with confirmed := g.confirmed + b2n (c == 0x12), transient := g.transient + b2n (c == 0x13) }
  let s := { s with exp := sigAdd key die f s.exp }
  if c != 0x12 then s else
  match s.exp.sigs.find? (sigSame key) with
  | some g => exportItem 4 (curFrame s) (borven g (periodStart (curFrame s) s) (curFrame s)) s
  | none => s

/-- A tray hub builds signatures from a record that it raises, exports or forwards (R268). -/
def signRecord (rec : Bytes) (s : State) : State :=
  if isTray s && sigClass (byteAt rec 38) && !servicedRecord rec s then signOccurrence (recordKey rec s) (ownSlot (rd rec 32 4) s) s else s

/-! ### Raising -/

/-- What a record says beside what the reporter fills in. -/
structure Raised where
  cls : Nat
  sev : Nat := 1
  unit : Option Nat := none              -- subject unit; none: the reporter's own
  entity : Nat := 0
  kind : Nat := 0
  op : Nat := 0
  stamp : Option Nat := none             -- of a window event
  clock : Nat := 0
  cond : Option Sensed := none           -- of a window event
  ownTag : Option Nat := none            -- job tag of an earlier moment (R242)
  tag : Nat := 0                         -- of a subject below a hub (R248)
  detail : Bytes := []

/-- The 64 B of Table ERR-1. -/
def recordBytes (seq : Nat) (x : Raised) (s : State) : Bytes :=
  let own := x.unit.isNone || x.unit == some (unitId s)
  let c := if own then x.cond.getD (conditions x.entity x.kind s.pwr.cycles s) else {}
  let (t, v, f) := (c.temp, c.volt, c.freq)
  let rng := (t.map (·.2)).getD false || (v.map (·.2)).getD false
  let flags := x.sev + 4 * x.clock + 16 * b2n t.isNone + 32 * b2n v.isNone + 64 * b2n f.isNone + 128 * b2n rng
  let val (o : Option (Int × Bool)) : Bytes := toLeS 2 ((o.map (·.1)).getD 0)
  toLe 8 seq ++ shortStamp (x.stamp.getD s.time.now) ++ toLe 8 (curFrame s) ++ toLe 4 (unitId s) ++
    toLe 4 (x.unit.getD (unitId s)) ++ toLe 2 (x.entity + 4096 * x.kind) ++ toLe 1 x.cls ++ toLe 1 flags ++ toLe 2 x.op ++
    val t ++ val v ++ val f ++ toLe 4 (if own then x.ownTag.getD s.frame.tag.toNat else x.tag) ++ fit 12 x.detail

/-- Raise a record: it takes the next number (R256) and a place in the ring (R258). -/
def raise (x : Raised) (s : State) : State :=
  let rec_ := recordBytes s.err.next x s
  let e := place (ringCap s) { seq := s.err.next, severity := x.sev, bytes := rec_ } s.err
  signRecord rec_ { s with err := { e with next := s.err.next + 1 } }

/-- The arrival detail of Table ERR-3. -/
def arrivalDetail (door group count frame : Nat) : Bytes :=
  toLe 1 door ++ toLe 1 (group % 64) ++ toLe 2 (min u16Max count) ++ toLe 8 frame

/-- A gap record (R259, Table ERR-3). -/
def gapRecord (first last : Nat) (m : Mark) (s : State) : Bytes :=
  recordBytes first { cls := 0x01, sev := m.severity, detail := toLe 8 last ++ toLe 2 m.count ++ toLe 1 m.cause } s

/-- A record raised by the control core for a unit of its own. -/
def raiseOwn (cls sev op : Nat) (entity kind : Nat) (detail : Bytes) (s : State) : State :=
  raise { cls := cls, sev := sev, op := op, entity := entity, kind := kind, detail := detail } s

end Sys2Proof.Machine
end

