-- ==== Sys2Proof/Machine/Signed.lean ====
section
/-! DEFINITION. Signed images (R425, R426) and their assembly from pieces (R392, R393). -/
namespace Sys2Proof.Machine

/-- The anchor that a trailer or grant names: slots 0 to 7, or 0xFF for the release anchor; installed and unrevoked. -/
def anchorAt (k : Nat) (s : State) : Option Anchor :=
  let a := if k == 0xFF then some s.sec.release else if k < 8 then (s.sec.anchors.getD k none) else none
  a.filter fun x => !x.revoked

/-- R426: the image of a kind verifies. -/
def verified (kind : Nat) (img : Bytes) (s : State) : Bool :=
  let n := img.length - 128
  let t := img.drop n
  img.length ≥ 128 && rd t 0 2 == 1 && allZero (slice t 8 24) && byteAt t 2 == kind && rd t 4 4 == n &&
  (match anchorAt (byteAt t 3) s with
   | some a => bit a.mask kind &&
      ecdsaVerify a.x a.y (rd t 32 48) (rd t 80 48) (sha256 (img.take n ++ t.take 32))
   | none => false)

/-- What a piece comes to (Table CMD-6). -/
inductive Piece where
  | done (r : Reply) (s : State)         -- refused, or taken and more are wanted
  | whole (img : Bytes) (s : State)      -- the last piece: the image, its assembly ended

/-- What a staging opcode says of its slot: key, size, BUSY condition, whether the piece at offset 0 is a duplicate or
names another engine or group, and the state with nothing staged in the slot. -/
structure Slot where
  key : Nat
  limit : Nat
  busy : Bool := false
  dup : Bool := false
  mismatch : Bool := false
  cleared : State

/-- Table CMD-6, row by row. -/
def takePiece (k : Slot) (session : Nat) (b : List Tlv) (s : State) : Piece :=
  let v := (val? tPiece b).getD []
  let total := rd v 0 4
  let off := rd v 4 4
  let data := v.drop 8
  let a := s.asm.find? (·.slot == k.key)
  let got := (a.map (·.bytes.length)).getD 0
  let last := off + data.length == total
  let bad (st : Nat) : Piece := .done (refuse st) s
  if off == 0 && k.busy then bad stBusy
  else if off == 0 && total > k.limit then bad stSpace
  else if off == 0 && data.length < 64 && total ≥ 64 then bad stBadLength
  else if off == 0 && k.dup then .done { status := stOk, dup := true } s
  else if off == 0 && k.mismatch then bad stBadParam
  else if off > 0 && (a.isNone || (a.map (·.session)) != some session) then bad stState
  else if off > 0 && (a.map (·.total)) != some total then bad stBadParam
  else if off > 0 && off != got then bad stRange
  else if off + data.length > total then bad stBadLength
  else if !last && (val? tFrame b).isSome then bad stBadParam
  else
    let s1 := if off == 0 then k.cleared else s
    let bytes := if off == 0 then data else (a.map (·.bytes)).getD [] ++ data
    let rest := s1.asm.filter (·.slot != k.key)
    if last then .whole bytes { s1 with asm := rest }
    else .done (okay [stU32 0 bytes.length]) { s1 with asm := rest ++ [⟨k.key, session, total, bytes⟩] }

/-- The bytes of a piece at offset 0, for the rows that look into it. -/
def openingPiece (b : List Tlv) : Bytes :=
  let v := (val? tPiece b).getD []
  if rd v 4 4 == 0 then v.drop 8 else []

end Sys2Proof.Machine
end

