-- ==== Sys2Proof/Machine/Link.lean ====
section
/-! DEFINITION. The link layer of a door (R136 to R148): flits, replay, states, hellos, retrains and quarantine; the
panel log that losses feed (R470, R471). -/
namespace Sys2Proof.Machine

def doorAt (d : Nat) (s : State) : Door := s.net.doors.getD d {}
def setDoor (d : Nat) (f : Door → Door) (s : State) : State :=
  { s with net := { s.net with doors := modifyAt d f s.net.doors } }

/-- Only a door in UP or DEGRADED carries messages (R140). -/
def live (d : Door) : Bool := d.state == .up || d.state == .degraded
def liveAt (d : Nat) (s : State) : Bool := live (doorAt d s)

/-- The lowest-numbered live door that passes a test. -/
def liveDoor (p : Door → Bool) (s : State) : Option Nat := findIdx (fun d => live d && p d) s.net.doors

/-- Hub address that a door's accepted hello names (R150). -/
def peerHub (d : Door) : Nat := rd d.peerHello 2 2
def peerDie (d : Door) : Nat := rd d.peerHello 4 4 % 2 ^ 18
def peerIsHub (d : Door) : Bool := byteAt d.peerHello 0 == 1

/-- The live door to a parent hub of a plane (R150). -/
def upDoor (plane : Nat) (s : State) : Option Nat := liveDoor (fun d => d.dir == 2 && peerIsHub d && bits (peerHub d) 13 1 == plane) s

/-- The live door to the other root (R157). -/
def peerDoor (s : State) : Option Nat := liveDoor (fun d => d.dir == 3) s

/-! ### Panel log (R469 to R471) -/

def setCage (c : Nat) (f : Cage → Cage) (s : State) : State := { s with pnl := { s.pnl with cages := modifyAt c f s.pnl.cages } }

/-- The door that a cage carries; 0xFF for none. -/
def doorOfCage (c : Nat) (s : State) : Nat :=
  if s.cfg.cageMap.all (· == 0xFF) then (if c < (if isPod s then 64 else 96) then c else 0xFF)
  else byteAt s.cfg.cageMap c

/-- An entry of Table PNL-2; the oldest of 4,096 gives way. -/
def panelEntry (kind cage door flags stamp : Nat) (tail : Bytes) (s : State) : State :=
  let e := toLe 4 s.pnl.logSeq ++ shortStamp stamp ++ toLe 1 kind ++ toLe 1 cage ++ toLe 1 door ++ toLe 1 flags ++ fit 12 tail
  { s with pnl := { s.pnl with log := lastN 4096 (s.pnl.log ++ [e]), logSeq := s.pnl.logSeq + 1 } }

/-- Count into a cage's error history of a door: 0 retrains, 1 lanes, 2 quarantines, 3 CRC failures, 4 replays. -/
def cageCount (k d : Nat) (s : State) : State :=
  match if s.build.hub then cageOfDoor (d % 100) s else none with
  | some c => setCage c (fun g => { g with hist := modifyAt k (· + 1) g.hist }) s
  | none => s

/-- A loss on a door (R470): attributed to service in an open window of the door's cage, with a LOSS entry. -/
def doorLoss (d kind : Nat) (rec : Option Nat) (s : State) : State :=
  match if s.build.hub then cageOfDoor (d % 100) s else none with
  | none => s
  | some c =>
    if inWindow c s.time.now s then
      let s := setCage c (fun g => { g with attributed := g.attributed + 1 }) s
      panelEntry 4 c (d % 100) (4 * b2n rec.isSome) s.time.now (toLe 8 (rec.getD 0) ++ toLe 1 kind) s
    else setCage c (fun g => { g with unattributed := g.unattributed + 1
                                      recent := (g.recent.filter fun l => s.time.now ≤ l.1 + 100000000 * nsUnit) ++ [(s.time.now, kind, rec)] }) s

/-! ### Flits (R137 to R139) -/

/-- The body length that a message's head gives: the whole of it also while it still arrives (R164). -/
def bodyLength (m : Msg) : Nat := m.total.getD m.body.length

/-- The head and body of a message (Table DOR-4). -/
def msgBytes (m : Msg) : Bytes :=
  toLe 1 m.type ++ toLe 1 m.flags ++ zeros 2 ++ toLe 4 m.target.toNat ++ toLe 4 (bodyLength m) ++ zeros 4 ++ m.body

def flitCount (m : Msg) : Nat := (16 + bodyLength m + 119) / 120

/-- A flit of Table DOR-2. -/
def flitBytes (seq ack kind : Nat) (som eom abort nak : Bool) (payload : Bytes) : Bytes :=
  let h := seq * 2 ^ 20 + ack * 2 ^ 8 + kind * 2 ^ 5 + 16 * b2n som + 8 * b2n eom + 4 * b2n abort + 2 * b2n nak
  let b := toLe 4 h ++ fit 120 payload
  b ++ toLe 4 (crc32c b)

/-- Present a flit: it carries the current ACK, and a NAK that is due (R139). -/
def emitFlit (d : Nat) (f : Flit) (s : State) : State :=
  let x := doorAt d s
  State.emit (.flit d (flitBytes f.seq x.rxSeq f.kind f.som f.eom f.abort x.nak f.payload)) (setDoor d (fun x => { x with nak := false }) s)

/-- Send one flit of kinds 1 to 4: it takes the next number and stands in the replay buffer; a bulk flit uses a credit. -/
def sendFlit (d kind : Nat) (som eom abort : Bool) (payload : Bytes) (s : State) : State :=
  let f : Flit := ⟨(doorAt d s).nextSeq, kind, som, eom, abort, payload⟩
  emitFlit d f (setDoor d (fun x => { x with nextSeq := (x.nextSeq + 1) % 4096, replay := x.replay ++ [f], flits := modifyAt (kind - 1) (· + 1) x.flits
                                             bulkUsed := x.bulkUsed + b2n (kind == 3) }) s)

/-- A door stamp in 2^-16 ns, resolved to 0.5 ns (R55): a block clock edge and the measured distance from it in 1/32 ns (R446). -/
def doorStamp (t : Nat) (ui : Int) : Nat := (((t / 2 ^ 16 : Nat) + ui * 2 ^ 11) / 2 ^ 15 * 2 ^ 15).toNat

def setExch (d : Nat) (f : Exchange → Exchange) (s : State) : State := setDoor d (fun x => { x with exch := f x.exch }) s

/-- A time flit leaves: t1 of the parent's, t3 of the child's, at the serializer's output (R55, R446). -/
def stampSent (d : Nat) (m : Msg) (s : State) : State :=
  if m.type != 0x10 then s else
  let at_ := doorStamp s.time.now (Config.lanePhase d s.pwr.cycles % 132 + (doorAt d s).txLat : Nat)
  let k := byteAt m.body 1
  setExch d (fun x =>
    if byteAt m.body 0 == 0 then { x with t1 := if x.num == k then some at_ else x.t1 }
    else { x with held := x.held.map fun h => if h.1 == k then (h.1, h.2.1, some at_) else h }) s

/-- Present the flits of the replay buffer again, oldest first (R139). -/
def emitReplay (d : Nat) (s : State) : State := (doorAt d s).replay.foldl (fun s f => emitFlit d f s) s

/-- Priority of a waiting message (R144): time flits, then frame, control, bulk, trace. -/
def msgPrio (m : Msg) : Nat := if m.type == 0x10 then 0 else m.kind

/-- Credits that bulk has on a door: one bulk message at least (R145). -/
def bulkCredits : Nat := Config.bulkCredit + 35

/-- The next flit of a message can leave: its bytes are there, and a bulk flit has a credit. -/
def flitReady (x : Door) (p : Msg × Nat) : Bool :=
  (p.1.cut || p.1.total.isNone || 120 * (p.2 + 1) ≤ 16 + p.1.body.length) && (p.1.kind != 3 || x.bulkUsed < bulkCredits)

/-- Index of the message whose flit goes next: the highest priority, the oldest first; messages of one kind do not
interleave, but for time flits (R142, R144). -/
def nextMsg (x : Door) : Option Nat :=
  let first (p : Msg × Nat) (i : Nat) : Bool := msgPrio p.1 == 0 || (x.sendQ.take i).all fun q => q.1.kind != p.1.kind || msgPrio q.1 == 0
  (bestBy (fun a b => msgPrio a.1.1 < msgPrio b.1.1) (x.sendQ.zipIdx.filter fun p => first p.1 p.2 && flitReady x p.1)).map (·.2)

/-- Send flits while the door is live and the replay buffer has room (R139); `fuel` bounds the flits. -/
def pumpF (d : Nat) : Nat → State → State
  | 0, s => s
  | f + 1, s =>
    let x := doorAt d s
    if !live x || x.replay.length ≥ 256 then s else
    match nextMsg x with
    | none => s
    | some i =>
      match x.sendQ[i]? with
      | none => s
      | some (m, n) =>
        if m.cut then pumpF d f (setDoor d (fun y => { y with sendQ := y.sendQ.eraseIdx i }) (sendFlit d m.kind false true true [] s)) else
        let last := n + 1 ≥ flitCount m
        let s := stampSent d m (sendFlit d m.kind (n == 0) last false (slice (msgBytes m) (120 * n) 120) s)
        let sent := x.nextSeq
        let s := setDoor d (fun y =>
          if last then { y with sendQ := y.sendQ.eraseIdx i, inFlight := y.inFlight ++ [(m, sent)] }
          else { y with sendQ := modifyAt i (fun p => (p.1, p.2 + 1)) y.sendQ }) s
        pumpF d f s

def pump (d : Nat) (s : State) : State := pumpF d 256 s

/-- Queue a message on a door and send what can be sent. -/
def sendMsg (d : Nat) (m : Msg) (s : State) : State := pump d (setDoor d (fun x => { x with sendQ := x.sendQ ++ [(m, 0)] }) s)

/-- Subtype and transfer serial of a bulk message. -/
def bulkKey (m : Msg) : Nat × Nat := (byteAt m.body 0, rd m.body 4 4)

/-- The transfers of a door with a part still to be acknowledged. -/
def openTransfers (x : Door) : List (Nat × Nat × Bytes) :=
  let keys := ((x.sendQ ++ x.inFlight).filter (·.1.type == 0x31)).map fun p => bulkKey p.1
  x.bulkTx.filter fun t => keys.contains (t.1, t.2.1)

/-- An ACK frees the flits that it covers (R139). -/
def takeAck (d ack : Nat) (s : State) : State :=
  setDoor d (fun x =>
    match findIdx (fun (f : Flit) => f.seq == ack) x.replay with
    | none => x
    | some i =>
      let rest := x.replay.drop (i + 1)
      let gone := (x.replay.take (i + 1)).map (·.seq)
      let bulk := ((x.replay.take (i + 1)).filter (·.kind == 3)).length
      let x := { x with replay := rest, replayRun := 0, bulkUsed := x.bulkUsed - bulk, inFlight := x.inFlight.filter fun p => !gone.contains p.2 }
      { x with bulkTx := openTransfers x }) s

/-- The next transfer serial of a bulk subtype (Table DOR-5A). -/
def nextSerial (sub : Nat) (s : State) : Nat × State :=
  let n := tget 0 sub s.net.bulkSerial + 1
  (n, { s with net := { s.net with bulkSerial := tput sub n s.net.bulkSerial } })

/-- The messages of a bulk transfer (R143): at most 4,096 B of payload each, in order. -/
def bulkMsgs (sub serial : Nat) (item : Bytes) : List Msg :=
  let parts := if item.isEmpty then [[]] else records 4096 item
  parts.zipIdx.map fun (p, i) =>
    let fl := b2n (i == 0) + 2 * b2n (i + 1 == parts.length)
    { kind := 3, type := 0x31, body := toLe 1 sub ++ toLe 1 fl ++ zeros 2 ++ toLe 4 serial ++ toLe 8 (4096 * i) ++ toLe 8 item.length ++ p }

/-- Send an item as a bulk transfer on one door. -/
def sendBulk (d sub serial : Nat) (item : Bytes) (s : State) : State :=
  (bulkMsgs sub serial item).foldl (fun s m => sendMsg d m s) (setDoor d (fun x => { x with bulkTx := x.bulkTx ++ [(sub, serial, item)] }) s)

/-- Give up the messages of a door's queue that a test picks: one that has not begun goes, and one sent in part is cut. -/
def giveUp (p : Msg → Bool) (q : List (Msg × Nat)) : List (Msg × Nat) :=
  q.filterMap fun x => if !p x.1 || x.1.cut then some x else if x.2 == 0 then none else some ({ x.1 with cut := true, frame := none, parent := none }, x.2)

/-- Frame items of a door that leaves UP or DEGRADED go again, whole, on the other live door to their parent, while their
frame runs (R34, R150). -/
def moveItems (d : Nat) (s : State) : State :=
  let x := doorAt d s
  let now := curFrame s
  let goal (m : Msg) : Option Nat := if m.frame != some now then none else (m.parent.bind fun k => upDoor k s).filter (· != d)
  let moved := (x.inFlight ++ x.sendQ).filterMap fun p => (goal p.1).map fun o => (o, p.1)
  let s := setDoor d (fun y => { y with inFlight := y.inFlight.filter fun p => (goal p.1).isNone, sendQ := giveUp (fun m => (goal m).isSome) y.sendQ }) s
  moved.foldl (fun s p => sendMsg p.1 p.2 (setDoor p.1 (fun y => { y with resent := y.resent + 1 }) s)) s

/-! ### Returned summaries on their way down (R164, R165) -/

/-- Plane of the parent that a door leads to. -/
def sourcePlane (d : Nat) (s : State) : Nat := bits (peerHub (doorAt d s)) 13 1

/-- One live down door per child: the lowest-numbered of its doors (R150, R164). -/
def childDoors (s : State) : List Nat :=
  let ds := (s.net.doors.zipIdx.filter fun p => live p.1 && p.1.dir == 1)
  if isTray s then ds.map (·.2)
  else (ds.foldl (fun (acc : List Nat × List Nat) p =>
    if acc.1.contains (peerHub p.1) then acc else (acc.1 ++ [peerHub p.1], acc.2 ++ [p.2])) ([], [])).2

/-- A returned summary on its way down; `total` is its length while it still arrives. -/
def downMsg (b : Bytes) (total : Option Nat) : Msg := { kind := 1, type := 0x05, body := b, frame := some (rd b 8 8), total := total }

/-- Send a returned summary to every child. -/
def sendDown (b : Bytes) (s : State) : State := (childDoors s).foldl (fun s d => sendMsg d (downMsg b none) s) s

/-- Change the messages that still arrive, on every door, and send what can be sent. -/
def onThrough (f : List (Msg × Nat) → List (Msg × Nat)) (s : State) : State :=
  (List.range s.net.doors.length).foldl (fun s d =>
    if (doorAt d s).sendQ.any (·.1.total.isSome) then pump d (setDoor d (fun x => { x with sendQ := f x.sendQ }) s) else s) s

/-- The copy that goes down while it arrives has these bytes by now. -/
def growDown (b : Bytes) (s : State) : State :=
  onThrough (·.map fun p => if p.1.total.isSome then ({ p.1 with body := b }, p.2) else p) s

/-- It has arrived whole. -/
def endDown (b : Bytes) (s : State) : State :=
  let s := onThrough (·.map fun p => if p.1.total.isSome then ({ p.1 with body := b, total := none }, p.2) else p) s
  { s with hub := { s.hub with through := none } }

/-- The copy of a plane and frame that is held complete. -/
def copyOf (p n : Nat) (s : State) : Option Bytes := (s.hub.copies.find? fun c => c.1 == p && c.2.1 == n).map (·.2.2)

/-- A copy that was going down breaks off: its messages end with EOM and ABORT, and the other source's copy goes from its
start if it is held complete by then (R165). -/
def breakThrough (d : Nat) (s : State) : State :=
  match s.hub.through with
  | some (e, n) =>
    if e != d then s else
    let s := onThrough (giveUp fun m => m.total.isSome) { s with hub := { s.hub with through := none } }
    match copyOf (1 - sourcePlane d s) n s with
    | some b => sendDown b s
    | none => s
  | none => s

/-- What a door's leaving UP or DEGRADED means for the frame items that it sends and receives (R150, R165). -/
def leaveLive (d : Nat) (s : State) : State := if liveAt d s then moveItems d (breakThrough d s) else s

/-! ### Hellos (R147, R148) -/

/-- The firmware version of the active slot (R402). -/
def fwVersion (s : State) : Nat := match s.sec.active with | some k => (s.sec.slots.getD k {}).version | none => 0

/-- The frame format that the unit writes: its firmware's, 3 or this release's 4 (R130, R433, Table SEC-8). -/
def formatOut (s : State) : Nat :=
  match s.sec.active with | some k => if (s.sec.slots.getD k {}).frameFormat == 3 then 3 else 4 | none => 4

/-- The body of the hello that a door sends (Table DOR-7). -/
def helloBody (d : Nat) (s : State) : Bytes :=
  let x := doorAt d s
  let mode := if x.mode == 0 && x.lanesRetired > 0 then 1 else x.mode
  toLe 1 (b2n s.build.hub) ++ toLe 1 (b2n x.fresh + 2 * b2n x.accepted) ++ toLe 2 (if s.build.hub then hubAddr s else 0) ++
    toLe 4 (if s.build.hub then 0 else dieId s) ++ toLe 1 (d % 100) ++ toLe 1 mode ++ toLe 2 0x18 ++ toLe 2 3 ++
    toLe 2 x.rxSeq ++ toLe 4 (fwVersion s) ++ zeros 28

/-- Send a hello: a link message in one flit of kind 5 (R142, R147). -/
def sendHello (d : Nat) (s : State) : State :=
  let b := helloBody d s
  emitFlit d ⟨0, 5, true, true, false, msgBytes { kind := 5, type := 0x40, body := b }⟩ (setDoor d (fun x => { x with ownHello := b }) s)

/-- A door begins to train (R140). -/
def train (d : Nat) (s : State) : State :=
  let s := setDoor d (fun x => { x with state := .training, accepted := false, lanesRetired := 0, replayRun := 0 }) (leaveLive d s)
  sendHello d (State.emit (.laneEnable d true) s)

/-- A door goes to OFF; Lane park keeps its lanes enabled (R463). -/
def turnOff (d : Nat) (s : State) : State :=
  State.emit (.laneEnable d s.pwr.lanePark) (setDoor d (fun x => { x with state := .off, accepted := false }) (leaveLive d s))

def link : Nat := 2
def doorKind : Nat := 7

/-- Quarantine (R141): OFF for the quarantine time, recorded and raised against the link entity. -/
def quarantine (d recent : Nat) (s : State) : State :=
  let x := doorAt d s
  let s := turnOff d (setDoor d (fun x => { x with quarantined := true, quarantineAt := s.pwr.cycles, quarantines := x.quarantines + 1, retrainTimes := [] }) s)
  let s := ownEntry 0x0F22 (doorEntity d) doorKind (toLe 1 (d % 100) ++ zeros 1 ++ toLe 2 x.quarantineTime) s
  let n := s.err.next
  let s := raiseOwn 0x0D 1 0x8002 (doorEntity d) link (toLe 1 (d % 100) ++ toLe 1 (min 255 recent) ++ toLe 2 x.quarantineTime) s
  doorLoss d 2 (some n) (cageCount 2 d s)

/-- A retrain (R141): UP or DEGRADED to TRAINING, or to a quarantine when the flap limit is passed within 1 s. -/
def retrain (d : Nat) (s : State) : State :=
  if !liveAt d s then s else
  let s := setDoor d (fun x => { x with retrains := x.retrains + 1
                                        retrainTimes := (x.retrainTimes.filter fun t => s.pwr.cycles < t + 1000000000) ++ [s.pwr.cycles] }) s
  let recent := (doorAt d s).retrainTimes.length
  let s := ownEntry 0x0F20 (doorEntity d) doorKind (toLe 1 (d % 100) ++ toLe 1 (min 255 recent)) s
  let s := doorLoss d 0 none (cageCount 0 d s)
  if recent > (doorAt d s).flapLimit then quarantine d recent s else train d s

/-- Replay from the oldest unacknowledged flit (R139); after 8 replays of the same flit the door retrains instead. -/
def replay (d : Nat) (s : State) : State :=
  let x := doorAt d s
  if x.replay.isEmpty then s
  else if x.replayRun ≥ 8 then retrain d s
  else
    emitReplay d (setDoor d (fun x => { x with replays := x.replays + 1, replayRun := x.replayRun + 1 }) (cageCount 4 d s))

/-- After training: replay resumes past the peer's ACK, or, with FRESH, everything not wholly acknowledged is sent
again from its start, transfers as a whole, and those arriving are discarded (R143, R148). -/
def resumeLink (d : Nat) (peer : Bytes) (s : State) : State :=
  let x := doorAt d s
  if bit (byteAt peer 1) 0 then
    let again := ((x.inFlight ++ x.sendQ).map (·.1)).filter fun m => m.type != 0x31 && !m.cut
    let bulk := (openTransfers x).flatMap fun t => bulkMsgs t.1 t.2.1 t.2.2
    pump d (setDoor d (fun x => { x with replay := [], inFlight := [], sendQ := (again ++ bulk).map (·, 0), resent := x.resent + x.inFlight.length
                                         nextSeq := 0, rxSeq := 4095, rx := [], bulkRx := [], nak := false, bulkUsed := 0 }) s)
  else
    let s := takeAck d (rd peer 14 2 % 4096) s
    pump d (emitReplay d s)

end Sys2Proof.Machine
end

