-- ==== Sys2Proof/Machine/Route.lean ====
section
/-! DEFINITION. Routing of control traffic by target (R166) and the hold of 1 ms (R167). -/
namespace Sys2Proof.Machine

/-- Messages arrive only on a door in UP or DEGRADED of a working unit (R140). -/
def carries (d : Nat) (s : State) : Bool := working s && liveAt d s

/-- A malformed message is discarded and counted for its door (R142). -/
def malformedOn (d : Nat) (s : State) : State := setDoor d (fun x => { x with malformed := x.malformed + 1 }) s

/-- Hub addresses (Table SCO-7). -/
def trayAddr (t : Nat) : Nat := 0x4000 + t
def podAddr (p plane : Nat) : Nat := 0x8000 + 0x2000 * plane + p
def rootAddr (plane : Nat) : Nat := 0xC000 + 0x2000 * plane

/-- Target of a message head in the form of the target block (Table DOR-4). -/
def targetOf (flags target : Nat) : Nat := if bit flags 0 then 2 ^ 31 + bits target 0 16 else bits target 0 18

/-- The message head's flags and target for a unit. -/
def headFlags (unit : Nat) : Nat := b2n (bit unit 31)
def headTarget (unit : Nat) : Word := BitVec.ofNat 32 (unit % 2 ^ 18)

/-- The live down door to a die unit or to a hub. -/
def dieDoor (die : Nat) (s : State) : Option Nat := liveDoor (fun d => d.dir == 1 && !peerIsHub d && peerDie d == die) s
def hubDoor (addr : Nat) (s : State) : Option Nat := liveDoor (fun d => d.dir == 1 && peerIsHub d && peerHub d == addr) s

/-- The upward rule of R166: plane A or the primary first. -/
def uplink (s : State) : Option Nat := (upDoor 0 s).or (upDoor 1 s)

/-- The next hop towards a unit (R166). -/
def nextHop (t : Nat) (s : State) : Option Nat :=
  let hubT := bit t 31
  let addr := bits t 0 16
  let kind := bits addr 14 2
  let tray : Option Nat := if !hubT then some (trayOf t) else if kind == 1 then some (bits addr 0 11) else none
  match role s with
  | .die => none
  | .tray => if !hubT && trayOf t == hubNumber s then dieDoor t s else uplink s
  | .pod => match tray with
    | some n => if n / 32 == hubNumber s then hubDoor (trayAddr n) s else uplink s
    | none => uplink s
  | .root => match tray with
    | some n => (hubDoor (podAddr (n / 32) 0) s).or (hubDoor (podAddr (n / 32) 1) s)
    | none => if kind == 3 then peerDoor s else hubDoor addr s

/-- Send a control message towards its target, or hold it (R167). -/
def forwardMsg (m : Msg) (s : State) : State :=
  match nextHop (targetOf m.flags m.target.toNat) s with
  | some d => sendMsg d m s
  | none => if s.build.hub then { s with net := { s.net with held := s.net.held ++ [⟨m, s.pwr.cycles⟩] } } else s

/-- A door has come up: held messages that now have a next hop leave in the order of their arrival (R167). -/
def releaseHeld (s : State) : State :=
  s.net.held.foldl (fun s h => forwardMsg h.msg s) { s with net := { s.net with held := [] } }

end Sys2Proof.Machine
end

