-- ==== Sys2Proof/Machine/Reply.lean ====
section
/-! DEFINITION. Replies on their way: the packet (R372, R377), its trailer (R373), the reply cache (R383) and the three
paths (R386 to R388). -/
namespace Sys2Proof.Machine

/-- The reply packet without its trailer (R377): header and status block with the replier, then the TLVs. -/
def replyBytes (version code session seq : Nat) (p : Reply) (s : State) : Bytes × Bytes :=
  let body := toLe 2 p.status ++ zeros 2 ++ toLe 4 (unitId s) ++ bodyBytes p.tlvs
  (toLe 1 version ++ toLe 1 (1 + 2 * b2n p.dup + 4 * b2n p.more) ++ toLe 2 code ++ toLe 2 session ++ zeros 2 ++ toLe 4 seq ++ toLe 4 body.length, body)

/-- The whole packet; without a key its trailer is zero (R385). -/
def signedReply (key : Option Bytes) (version code session seq : Nat) (p : Reply) (s : State) : Bytes :=
  let (h, b) := replyBytes version code session seq p s
  h ++ b ++ (match key with
    | some k => trailerOf k (targetBlock s) h b
    | none => zeros 16)

/-- The key that a session's replies are authenticated with; in SELF_TEST and ERROR none can be formed (R416). -/
def replyKey (session : Nat) (s : State) : Option Bytes :=
  if s.sec.boundary == .selfTest || s.sec.boundary == .error then none else (sessionOf session s).map (·.key)

/-- A packet leaves on the path of its request: the reply window (R404), a reply message to the origin hub (R387), or a
datagram whose route prefix names the replier (R386). -/
def deliver (path : Path) (pkt : Bytes) (s : State) : State :=
  match path with
  | .host => State.emit (.packet .host pkt) { s with host := { s.host with replyWin := pkt, busy := false, replyReady := true } }
  | .door d origin =>
    let m : Msg := { kind := 2, type := 0x21, flags := 1, target := BitVec.ofNat 32 (rd origin 0 2), body := origin ++ pkt }
    if s.build.hub then forwardMsg m s else sendMsg d m s
  | .mgmt src => sendDatagram src (targetBlock s ++ pkt) s

/-- The cached result of an executed sequence (R383): the body only when it is at most 56 B. -/
def fillCache (session seq : Nat) (p : Reply) (s : State) : State :=
  let body := bodyBytes p.tlvs
  let put (c : Cached) : Cached :=
    if c.seq == seq && c.outstanding then { c with status := p.status, body := if 8 + body.length ≤ 56 then some body else none, outstanding := false } else c
  let up (x : Session) : Session := if x.id == session then { x with cache := x.cache.map put } else x
  { s with sec := { s.sec with sessions := s.sec.sessions.map up } }

/-- A packet is refused or discarded at a row of Table CMD-5, on a path (R397). -/
def countRefusal (row : Nat) (path : Path) (s : State) : State :=
  let k := 3 * row + (match path with | .host => 0 | .door _ _ => 1 | .mgmt _ => 2)
  { s with sec := { s.sec with refusals := tput k (tget 0 k s.sec.refusals + 1) s.sec.refusals } }

/-- The row that an opcode's refusal is counted at, by its status. -/
def rowOf (status : Nat) : Nat :=
  if status == stAuth then 4 else if status == stPermit then 8 else if status == stBadLength || status == stBadParam then 9 else 10

/-- A reply leaves on the path of its request, under a key or without one. -/
def answerPlain (key : Option Bytes) (code : Nat) (r : Request) (p : Reply) (s : State) : State :=
  deliver r.path (signedReply key r.version code r.session r.seq p s) (State.emit (.reply r.path code r.session r.seq p) s)

/-- The answer to a request under a key: a refusal is counted, the cache takes it, and the reply leaves. -/
def answerWith (key : Option Bytes) (code : Nat) (r : Request) (p : Reply) (s : State) : State :=
  let s := if p.status ≥ 0x100 then countRefusal (rowOf p.status) r.path s else s
  answerPlain key code r p (fillCache r.session r.seq p s)

/-- The answer to a request (R377). -/
def finish (code : Nat) (r : Request) (x : Reply × State) : State := answerWith (replyKey r.session x.2) code r x.1 x.2

end Sys2Proof.Machine
end

