-- ==== Sys2Proof/Machine/Reduce.lean ====
section
/-! DEFINITION. Reduction arithmetic (R107 to R135): long accumulators and spans, sketches, extremes, single rounding,
the metric catalogue, and the formats of contributions and summaries. An accumulator is the integer V of R107. -/
namespace Sys2Proof.Machine

/-! ### Accumulators and spans -/

/-- The sum addend of R108 in units of 2^-298. -/
def sumAddend (x : F32) : Int := f32scaled x * 2 ^ 149
/-- The squares addend of R108. -/
def sqAddend (x : F32) : Int := f32scaled x * f32scaled x

/-- Ten 64-bit words of an accumulator (R107). -/
def accWords (v : Int) : List Nat := (List.range 10).map fun j => bits (unsigned 640 v) (64 * j) 64

/-- A compact span in canonical form (R110, R111). -/
def spanBytes (v : Int) : Bytes :=
  let w := accWords v
  if v == 0 then toLeS 2 (-298) ++ zeros 6 else
  let b := (findIdx (· != 0) w).getD 0
  let fill (x : Nat) : Nat := if bit x 63 then 2 ^ 64 - 1 else 0
  let ok (t : Nat) : Bool := b ≤ t && (w.drop (t + 1)).all (· == fill (w.getD t 0))
  let t := ((List.range 10).find? ok).getD 9
  toLeS 2 (64 * b - 298) ++ toLe 1 (t + 1 - b) ++ zeros 5 ++ ((w.drop b).take (t + 1 - b)).flatMap (toLe 8)

/-- Reads a span: its value and its length; none when it breaks R110. -/
def readSpan (bs : Bytes) : Option (Int × Nat) :=
  let e := signed 16 (rd bs 0 2) + 298
  let n := byteAt bs 2
  let b := e.toNat / 64
  if e < 0 || e % 64 != 0 || b > 9 || n > 10 || b + n > 10 || bs.length < 8 + 8 * n then none
  else some (if n == 0 then 0 else signed (64 * n) (rd bs 8 (8 * n)) * 2 ^ (64 * b), 8 + 8 * n)

/-! ### Sketches (R117 to R120) -/

/-- T[1] to T[7] of Table RED-5. -/
def thresholds : List Nat := [759234, 1587185, 2490071, 3474676, 4548395, 5719293, 6996167]

/-- Bucket of an FP32 value that is no NaN (Table RED-1, R118). -/
def bucketOf (x : F32) (scale : Int) : Nat :=
  if isInf32 x then (if f32neg x then 0 else 255)
  else if f32neg x || f32mant x == 0 then 0
  else
    let sh := 24 - bitlen (f32mant x)
    let m := f32mant x * 2 ^ sh
    let e : Int := (f32ee x : Int) - 127 - sh
    let f := m - 2 ^ 23
    let j := (thresholds.filter (· ≤ f)).length
    let i := 8 * e + j - 8 * scale + 1
    if i < 1 then 0 else if i > 254 then 255 else i.toNat

/-- Add counts into a sketch. -/
def sketchAdd (b n : Nat) (k : List (Nat × Nat)) : List (Nat × Nat) := tput b (tget 0 b k + n) k
def sketchMerge (a b : List (Nat × Nat)) : List (Nat × Nat) := b.foldl (fun k p => sketchAdd p.1 p.2 k) a
def sketchTotal (k : List (Nat × Nat)) : Nat := sumN (k.map (·.2))

/-- The smallest positive FP32 pattern from `lo` on whose bucket is at least `i`, by halving `n` times. -/
def seekBucket (scale : Int) (i : Nat) : Nat → Nat → Nat → Nat
  | 0, lo, _ => lo
  | n + 1, lo, hi =>
    if lo ≥ hi then lo else
    let mid := (lo + hi) / 2
    if bucketOf (BitVec.ofNat 32 mid) scale ≥ i then seekBucket scale i n lo mid else seekBucket scale i n (mid + 1) hi
def lowestIn (scale : Int) (i : Nat) : F32 := BitVec.ofNat 32 (seekBucket scale i 34 1 0x7F800000)

/-- A percentile of p per mille: its value and its flag, 0 in range, 1 LOW, 2 HIGH, 3 NONE (R120). -/
def percentile (k : List (Nat × Nat)) (scale : Int) (pm : Nat) : F32 × Nat :=
  let n := sketchTotal k
  if n == 0 then (nan32, 3) else
  let rank := max 1 ((pm * n + 999) / 1000)
  let b := (k.foldl (fun (acc : Nat × Option Nat) p =>
    let c := acc.1 + p.2
    (c, if acc.2.isNone && c ≥ rank then some p.1 else acc.2)) (0, none)).2.getD 0
  if b == 0 then (0, 1)
  else if b == 255 then (lowestIn scale 255, 2)
  else
    let lo := f32scaled (lowestIn scale b)
    let up := f32scaled (lowestIn scale (b + 1))
    (round32 (2 * lo * up) ((lo + up).toNat * 2 ^ 149), 0)

/-! ### Extremes (R121) -/

/-- Candidate a wins over b as minimum. -/
def beatsMin (a b : Extreme) : Bool :=
  flt32 a.value b.value || (!flt32 b.value a.value && (a.die < b.die || (a.die == b.die && a.entity < b.entity)))
def beatsMax (a b : Extreme) : Bool :=
  flt32 b.value a.value || (!flt32 a.value b.value && (a.die < b.die || (a.die == b.die && a.entity < b.entity)))
def pick (beats : Extreme → Extreme → Bool) (a b : Option Extreme) : Option Extreme :=
  match a, b with
  | none, b => b
  | a, none => a
  | some a, some b => if beats b a then some b else some a

/-! ### A metric's accumulators -/

/-- What a catalogue entry says of the accumulators. -/
structure Shape where
  sum : Bool
  squares : Bool
  min : Bool := false
  max : Bool := false
  sketch : Option Int := none

/-- A sum as the 640-bit two's complement integer that holds it (R107, R109). -/
def wrap640 (v : Int) : Int := (v + 2 ^ 639) % 2 ^ 640 - 2 ^ 639

/-- One addend enters (Table RED-1). -/
def addValue (k : Shape) (x : F32) (die entity : Nat) (a : Acc) : Acc :=
  let a := { a with sample := x, hasSum := k.sum, hasSq := k.squares }
  if isNaN32 x then { a with nan := a.nan + 1 } else
  let e : Option Extreme := some ⟨x, die, entity⟩
  let a := { a with min := if k.min then pick beatsMin a.min e else a.min, max := if k.max then pick beatsMax a.max e else a.max
                    sketch := match k.sketch with | some s => sketchAdd (bucketOf x s) 1 a.sketch | none => a.sketch }
  if isInf32 x then (if f32neg x then { a with ninf := a.ninf + 1 } else { a with pinf := a.pinf + 1 })
  else { a with n := a.n + 1, sum := if k.sum then wrap640 (a.sum + sumAddend x) else a.sum, sq := if k.squares then wrap640 (a.sq + sqAddend x) else a.sq }

def addends (a : Acc) : Nat := a.n + a.pinf + a.ninf + a.nan

/-- Two parts of a metric merge (R109, R119, R121). -/
def mergeAcc (a b : Acc) : Acc :=
  { n := a.n + b.n, pinf := a.pinf + b.pinf, ninf := a.ninf + b.ninf, nan := a.nan + b.nan, sum := wrap640 (a.sum + b.sum), sq := wrap640 (a.sq + b.sq)
    hasSum := a.hasSum || b.hasSum, hasSq := a.hasSq || b.hasSq, min := pick beatsMin a.min b.min, max := pick beatsMax a.max b.max
    sketch := sketchMerge a.sketch b.sketch, sample := if addends a == 0 then b.sample else a.sample }

def mergeAccs (a b : List (Nat × Acc)) : List (Nat × Acc) := b.foldl (fun t p => tput p.1 (mergeAcc (tget {} p.1 t) p.2) t) a

/-! ### Results (R116) -/

/-- Table RED-3A: what a metric's non-finite addends make of its results. -/
inductive Finite where
  | finite | nan | plus | minus
  deriving DecidableEq, Repr

def finiteness (a : Acc) : Finite :=
  if a.nan > 0 || (a.pinf > 0 && a.ninf > 0) then .nan else if a.pinf > 0 then .plus else if a.ninf > 0 then .minus else .finite

/-- Numerator of the population variance over n² × 2^596. -/
def varNum (a : Acc) : Int := a.n * a.sq * 2 ^ 298 - a.sum * a.sum

structure Results where
  sum64 : F64
  mean64 : F64
  var64 : F64
  sum32 : F32
  mean32 : F32
  spread32 : F32
  var32 : F32
  spread64 : F64

def resultsOf (a : Acc) : Results :=
  let q := 2 ^ 298
  match finiteness a with
  | .nan => ⟨nan64, nan64, nan64, nan32, nan32, nan32, nan32, nan64⟩
  | .plus => ⟨inf64 false, inf64 false, nan64, inf32 false, inf32 false, nan32, nan32, nan64⟩
  | .minus => ⟨inf64 true, inf64 true, nan64, inf32 true, inf32 true, nan32, nan32, nan64⟩
  | .finite =>
    if a.n == 0 then ⟨0, nan64, nan64, 0, nan32, nan32, nan32, nan64⟩ else
    let v := varNum a
    let vq := a.n * a.n * 2 ^ 596
    { sum64 := round64 a.sum q, mean64 := round64 a.sum (a.n * q), sum32 := round32 a.sum q, mean32 := round32 a.sum (a.n * q)
      var64 := if a.hasSq then round64 v vq else nan64
      spread32 := if a.hasSq then BitVec.ofNat 32 (sqrtFp fmt32 v.toNat vq) else nan32
      var32 := if a.hasSq then round32 v vq else nan32
      spread64 := if a.hasSq then BitVec.ofNat 64 (sqrtFp fmt64 v.toNat vq) else nan64 }

/-- The five percentiles with their two-bit flags; without SKETCH, NaN and NONE (R132). -/
def percentiles (a : Acc) (scale : Option Int) : List (F32 × Nat) :=
  [100, 500, 900, 990, 999].map fun pm => match scale with | some s => percentile a.sketch s pm | none => (nan32, 3)

/-- Result flags of Table RED-17. -/
def resultFlags (a : Acc) (scale : Option Int) : Nat :=
  let ps := percentiles a scale
  sumN ((ps.zipIdx).map fun (p, i) => p.2 * 4 ^ i) + 1024 * b2n (a.n == 0) + 2048 * b2n (finiteness a != .finite) +
    4096 * b2n (scale.isSome && sketchTotal a.sketch < a.n + a.pinf + a.ninf)

/-- RESULTS record (Table RED-17). -/
def resultRecord (i : Nat) (a : Acc) (scale : Option Int) : Bytes :=
  let r := resultsOf a
  toLe 2 i ++ toLe 2 (resultFlags a scale) ++ toLe 4 a.n ++ toLe 8 r.sum64.toNat ++ toLe 8 r.mean64.toNat ++ toLe 8 r.var64.toNat ++
    toLe 4 r.sum32.toNat ++ toLe 4 r.mean32.toNat ++ toLe 4 r.spread32.toNat ++ (percentiles a scale).flatMap fun p => toLe 4 p.1.toNat

/-! ### Sections (R126) -/

def section_ (ty count : Nat) (body : Bytes) : Bytes :=
  let b := padTo 8 body
  toLe 1 ty ++ zeros 1 ++ toLe 2 count ++ toLe 4 b.length ++ b

/-- Sections of a byte string: type, record count, body. -/
def sectionsF : Nat → Bytes → Option (List (Nat × Nat × Bytes))
  | 0, _ => none
  | f + 1, b =>
    if b.isEmpty then some [] else
    let n := rd b 4 4
    if b.length < 8 + n || n % 8 != 0 then none
    else (sectionsF f (b.drop (8 + n))).map fun r => (byteAt b 0, rd b 2 2, slice b 8 n) :: r

/-- All sections of a byte string; each takes at least its 8 B header. -/
def sections (b : Bytes) : Option (List (Nat × Nat × Bytes)) := sectionsF (b.length / 8 + 1) b

/-- METRICS record of a unit: VALUE for one addend on a die unit, else SPAN (R113, Table RED-9). -/
def metricRecord (hubForm : Bool) (i : Nat) (a : Acc) : Bytes :=
  let fl := b2n a.hasSum + 2 * b2n a.hasSq
  if addends a == 1 && !hubForm then toLe 2 i ++ toLe 1 fl ++ zeros 1 ++ toLe 4 a.sample.toNat
  else toLe 2 (i + 1024) ++ toLe 1 fl ++ zeros 1 ++ toLe 4 a.n ++ toLe 4 a.pinf ++ toLe 4 a.ninf ++ toLe 4 a.nan ++ zeros 4 ++
    (if a.hasSum then spanBytes a.sum else []) ++ (if a.hasSq then spanBytes a.sq else [])

/-- Reads METRICS records. -/
def readMetrics : Nat → Bytes → Option (List (Nat × Acc))
  | 0, _ => some []
  | n + 1, b =>
    let i := rd b 0 2 % 1024
    let form := bits (rd b 0 2) 10 2
    let fl := byteAt b 2
    let k : Shape := { sum := bit fl 0, squares := bit fl 1 }
    if b.length < 8 || form > 1 || (k.squares && !k.sum) then none
    else if form == 0 then
      (readMetrics n (b.drop 8)).map fun r => (i, addValue k (BitVec.ofNat 32 (rd b 4 4)) 0 0 {}) :: r
    else if b.length < 24 then none
    else
      let base : Acc := { n := rd b 4 4, pinf := rd b 8 4, ninf := rd b 12 4, nan := rd b 16 4, hasSum := k.sum, hasSq := k.squares }
      let b := b.drop 24
      match (if k.sum then readSpan b else some (0, 0)) with
      | none => none
      | some (v, l1) => match (if k.squares then readSpan (b.drop l1) else some (0, 0)) with
        | none => none
        | some (w, l2) => (readMetrics n (b.drop (l1 + l2))).map fun r => (i, { base with sum := v, sq := w }) :: r

/-- EXTREMES record (Table RED-10). -/
def extremeRecord (i : Nat) (a : Acc) : Bytes :=
  let half (e : Option Extreme) : Bytes := match e with
    | some e => toLe 4 e.value.toNat ++ toLe 4 e.die ++ toLe 2 e.entity ++ zeros 2
    | none => zeros 12
  toLe 2 i ++ toLe 1 (b2n a.min.isSome + 2 * b2n a.max.isSome) ++ zeros 1 ++ half a.min ++ half a.max ++ zeros 4

def readExtreme (b : Bytes) : Nat × Acc :=
  let half (off : Nat) : Extreme := ⟨BitVec.ofNat 32 (rd b off 4), rd b (off + 4) 4 % 2 ^ 18, rd b (off + 8) 2 % 4096⟩
  let fl := byteAt b 2
  (rd b 0 2 % 1024, { min := if bit fl 0 then some (half 4) else none, max := if bit fl 1 then some (half 16) else none })

/-- SKETCHES record of a die unit or of a hub (Table RED-11); each record is padded with zeros to a multiple of 8 B
(R126 and the 16 B of a one-entry record in R128; DEDUCED). -/
def sketchRecord (hubForm : Bool) (i : Nat) (k : List (Nat × Nat)) : Bytes :=
  if !hubForm then toLe 2 i ++ toLe 2 k.length ++ zeros 4 ++ (k.flatMap fun p => toLe 3 p.2 ++ toLe 1 p.1) ++ zeros (4 * (k.length % 2))
  else if k.length ≤ 127 then toLe 2 i ++ zeros 2 ++ toLe 2 k.length ++ zeros 2 ++ k.flatMap fun p => toLe 1 p.1 ++ zeros 3 ++ toLe 4 p.2
  else toLe 2 i ++ toLe 1 1 ++ zeros 1 ++ toLe 2 256 ++ zeros 2 ++ (List.range 256).flatMap fun j => toLe 4 (tget 0 j k)

/-- Reads SKETCHES records of either form. -/
def readSketches (hubForm : Bool) : Nat → Bytes → Option (List (Nat × Acc))
  | 0, _ => some []
  | n + 1, b =>
    if b.length < 8 then none else
    let i := rd b 0 2 % 1024
    let dense := hubForm && byteAt b 2 == 1
    let m := if hubForm then rd b 4 2 else rd b 2 2
    let w := if dense then 4 else if hubForm then 8 else 4
    if b.length < 8 + w * m || (hubForm && byteAt b 2 > 1) || m == 0 || m > 256 then none else
    let es := (List.range m).map fun j =>
      let e := slice b (8 + w * j) w
      if dense then (j, le e) else if hubForm then (byteAt e 0, rd e 4 4) else (byteAt e 3, rd e 0 3)
    let k := (es.filter (·.2 > 0)).foldl (fun k p => sketchAdd p.1 p.2 k) []
    (readSketches hubForm n (b.drop (8 + (w * m + 7) / 8 * 8))).map fun r => (i, { sketch := k }) :: r

/-- Metrics, extremes and sketches of a set of accumulators as sections; a version 3 item has no SKETCHES. -/
def dataSections (hubForm : Bool) (version : Nat) (t : List (Nat × Acc)) : List Bytes :=
  let t := t.filter fun p => addends p.2 > 0
  let ex := t.filter fun p => p.2.min.isSome || p.2.max.isSome
  let sk := t.filter fun p => !p.2.sketch.isEmpty
  (if t.isEmpty then [] else [section_ 2 t.length (t.flatMap fun p => metricRecord hubForm p.1 p.2)]) ++
  (if ex.isEmpty then [] else [section_ 3 ex.length (ex.flatMap fun p => extremeRecord p.1 p.2)]) ++
  (if sk.isEmpty || version == 3 then [] else [section_ 4 sk.length (sk.flatMap fun p => sketchRecord hubForm p.1 p.2.sketch)])

/-- The accumulators that sections carry; a version 3 item's SKETCHES are skipped (R129). -/
def readData (hubForm : Bool) (version : Nat) (secs : List (Nat × Nat × Bytes)) : Option (List (Nat × Acc)) :=
  secs.foldl (fun acc (ty, n, body) =>
    match acc with
    | none => none
    | some t =>
      let part := match ty with
        | 2 => readMetrics n body
        | 3 => if body.length < 32 * n then none else some ((records 32 (body.take (32 * n))).map readExtreme)
        | 4 => if version == 3 then some [] else readSketches hubForm n body
        | _ => some []
      part.map (mergeAccs t)) (some [])

/-! ### Contributions (R127, R129) -/

structure Contribution where
  version : Nat
  flags : Nat
  die : Nat
  group : Nat
  frame : Nat
  tag : Nat
  seq : Nat
  length : Nat
  catVersion : Nat
  accs : List (Nat × Acc)
  findings : List Bytes
  probes : List Bytes
  headerOnly : Bool

def parseContribution (b : Bytes) : Option Contribution :=
  if b.length < 64 || byteAt b 1 != 1 || rd b 44 4 != b.length then none else
  match sections (b.drop 64) with
  | none => none
  | some secs =>
    let v := byteAt b 0
    if (secs.filter (·.1 == 1)).length != 1 then none else
    match readData false v secs with
    | none => none
    | some accs =>
      let recs (ty size : Nat) : List Bytes := secs.flatMap fun (t, n, body) => if t == ty then (records size body).take n else []
      some { version := v, flags := rd b 2 2, die := rd b 4 4 % 2 ^ 18, group := bits (rd b 4 4) 18 6, frame := rd b 8 8, tag := rd b 16 4
             seq := rd b 20 4, length := b.length, catVersion := rd b 48 4, accs := accs, findings := recs 5 48
             probes := if v == 3 then [] else recs 6 40
             headerOnly := !(secs.any fun x => x.1 == 2 || x.1 == 3 || (x.1 == 4 && v != 3)) }

/-! ### Summaries (R130 to R134) -/

structure GroupBlock where
  group : Nat
  tag : Nat
  catVersion : Nat
  dies : Nat
  trays : Nat
  pods : Nat
  accs : List (Nat × Acc)

structure Summary where
  version : Nat
  kind : Nat
  flags : Nat
  hub : Nat
  frame : Nat
  seq : Nat
  dropped : Nat
  outcomes : List Nat
  maps : Bytes
  groups : List GroupBlock

def groupBlocksF (version : Nat) : Nat → Bytes → Option (List GroupBlock)
  | 0, b => if b.isEmpty then some [] else none
  | n + 1, b =>
    let len := rd b 20 4
    if b.length < 32 || len < 32 || len > b.length then none else
    match sections (slice b 32 (len - 32)) with
    | none => none
    | some secs => match readData true version secs with
      | none => none
      | some accs => (groupBlocksF version n (b.drop len)).map fun r =>
        { group := byteAt b 0 % 64, tag := rd b 4 4, catVersion := rd b 8 4, dies := rd b 12 4, trays := rd b 16 2, pods := rd b 18 2, accs := accs } :: r

def parseSummary (b : Bytes) : Option Summary :=
  let kind := byteAt b 1
  let maps := if kind == 2 then 64 else 0
  if b.length < 112 + maps || (kind != 2 && kind != 3) || rd b 20 4 != b.length || rd b 6 2 > 64 then none else
  (groupBlocksF (byteAt b 0) (rd b 6 2) (b.drop (112 + maps))).map fun gs =>
    { version := byteAt b 0, kind := kind, flags := rd b 2 2, hub := rd b 4 2, frame := rd b 8 8, seq := rd b 16 4, dropped := rd b 24 8
      outcomes := (List.range 12).map (fun i => rd b (64 + 4 * i) 4), maps := slice b 112 maps, groups := gs }

/-- The RETURN and RESULTS view of a group's metrics: scale exponents of the catalogue's sketched metrics. -/
def scaleOf (c : Option Catalogue) (i : Nat) : Option Int :=
  c.bind fun c => (c.metrics.find? (·.index == i)).bind fun m => if m.sketch then some m.scale else none

/-- The metrics that a group's results cover: every metric of its catalogue, with no addend where none came (the n = 0 column
of Table RED-3, NO_DATA); where the hub holds no catalogue of the settled version, the metrics that the block carries. -/
def resultMetrics (cat : Option Catalogue) (g : GroupBlock) : List (Nat × Acc) :=
  match cat with
  | some c => c.metrics.map fun m => (m.index, tget { hasSum := m.sum, hasSq := m.squares } m.index g.accs)
  | none => g.accs.filter fun p => addends p.2 > 0

/-- A group block; `cat` adds the RESULTS section of a full fleet summary. -/
def groupBytes (version : Nat) (results : Bool) (cat : Option Catalogue) (g : GroupBlock) : Bytes :=
  let secs := dataSections true version g.accs
  let res := (resultMetrics cat g).filter fun p => p.2.hasSum
  let secs := if results && !res.isEmpty then secs ++ [section_ 7 res.length (res.flatMap fun p => resultRecord p.1 p.2 (scaleOf cat p.1))] else secs
  let body := secs.flatten
  toLe 1 g.group ++ zeros 1 ++ toLe 2 secs.length ++ toLe 4 g.tag ++ toLe 4 g.catVersion ++ toLe 4 g.dies ++ toLe 2 g.trays ++ toLe 2 g.pods ++
    toLe 4 (32 + body.length) ++ zeros 8 ++ body

/-- A summary's bytes (Table RED-14, R130); `cats` gives the catalogue of a group in a full fleet summary. -/
def summaryBytes (x : Summary) (cats : List (Nat × Catalogue)) : Bytes :=
  let gs := x.groups.flatMap fun g => groupBytes x.version (x.kind == 4) (tfind g.group cats) g
  let len := 112 + x.maps.length + gs.length
  toLe 1 x.version ++ toLe 1 x.kind ++ toLe 2 x.flags ++ toLe 2 x.hub ++ toLe 2 x.groups.length ++ toLe 8 x.frame ++ toLe 4 x.seq ++
    toLe 4 len ++ toLe 8 x.dropped ++ zeros 32 ++ x.outcomes.flatMap (toLe 4) ++ x.maps ++ gs

/-- R134: the digest, with FAILOVER, UNCHECKED, DIVERGENT and the hub address read as 0. -/
def summaryDigest (b : Bytes) : Bytes :=
  let fl := rd b 2 2
  let fl := fl - 32 * b2n (bit fl 5) - 64 * b2n (bit fl 6) - 128 * b2n (bit fl 7)
  sha256 (splice (splice b 2 (toLe 2 fl)) 4 (zeros 2))

/-- Frame parameter block (Table RED-19). -/
def paramBlock (p : FrameParams) : Bytes :=
  toLe 8 p.anchor ++ shortStamp (p.anchorNs * nsUnit) ++ toLe 4 p.period ++ toLe 2 p.emit ++ toLe 2 p.tray ++ toLe 2 p.pod ++ toLe 2 p.root ++
    toLe 2 p.ret ++ toLe 1 p.grace ++ toLe 1 p.limit ++ toLe 1 (b2n p.trayScope) ++ toLe 1 p.stale ++ zeros 10

/-- The frame parameters that a block names. -/
def readParams (b : Bytes) : FrameParams :=
  { anchor := rd b 0 8, anchorNs := rd b 8 8 * 1000000000 + rd b 16 4 % 2 ^ 30, period := rd b 20 4, emit := rd b 24 2, tray := rd b 26 2
    pod := rd b 28 2, root := rd b 30 2, ret := rd b 32 2, grace := byteAt b 34, limit := byteAt b 35, trayScope := byteAt b 36 == 1, stale := byteAt b 37 }

/-- A pending block: none when its fields are all zeros (R25), reserved bits apart (R11). -/
def readPending (b : Bytes) : Option FrameParams := if allZero (paramBlock (readParams b)) then none else some (readParams b)

/-- A metric's entry in the returned summary (R133). -/
def returnEntry (group i : Nat) (a : Acc) (scale : Option Int) : Bytes :=
  let r := resultsOf a
  toLe 2 i ++ toLe 1 group ++ zeros 1 ++ toLe 4 a.n ++ toLe 4 r.mean32.toNat ++ toLe 4 r.spread32.toNat ++
    (percentiles a scale).flatMap (fun p => toLe 4 p.1.toNat) ++ toLe 2 (resultFlags a scale) ++ zeros 2

/-- The returned summary (Table RED-18, R133). -/
def returnedBytes (x : Summary) (cats : List (Nat × Catalogue)) (digest : Bytes) (cur : FrameParams) (pend : Option FrameParams) : Bytes :=
  let gs := x.groups.flatMap fun g => toLe 1 g.group ++ zeros 1 ++ toLe 2 g.trays ++ toLe 4 g.dies ++ toLe 4 g.tag ++ toLe 4 g.catVersion
  let ms := x.groups.flatMap fun g =>
    let c := tfind g.group cats
    ((resultMetrics c g).filter fun p => (c.map fun c => c.metrics.any fun m => m.index == p.1 && m.ret).getD false).map
      fun p => returnEntry g.group p.1 p.2 (scaleOf c p.1)
  toLe 1 x.version ++ toLe 1 5 ++ toLe 2 x.flags ++ toLe 2 x.hub ++ toLe 2 ms.length ++ toLe 8 x.frame ++ toLe 4 (160 + gs.length + 40 * ms.length) ++
    toLe 1 x.groups.length ++ zeros 3 ++ paramBlock cur ++ (match pend with | some p => paramBlock p | none => zeros 48) ++ fit 32 digest ++ zeros 8 ++
    gs ++ ms.flatten

/-! ### The catalogue (R122 to R124, R128) -/

def parseMetric (b : Bytes) : Metric :=
  let fl := byteAt b 3
  { index := rd b 0 2 % 1024, source := byteAt b 2, sum := bit fl 0, squares := bit fl 1, min := bit fl 2, max := bit fl 3, sketch := bit fl 4
    ret := bit fl 5, scale := signed 16 (rd b 4 2), unit := rd b 6 2, ref := rd b 8 4, kinds := byteAt b 12, select := byteAt b 13 }

def metricParamBad (b : Bytes) : Bool :=
  let m := parseMetric b
  rd b 0 2 ≥ 1024 || byteAt b 3 ≥ 64 || rd b 14 2 != 0 || m.source > 4 || m.unit > 9 || (m.source ≤ 2 && m.kinds != 0) || (m.source ≥ 3 && m.kinds == 0) ||
    (m.squares && !m.sum) || (m.ret && !(m.sum && m.squares && m.sketch))

def metricRangeBad (ctrs : Nat) (m : Metric) : Bool :=
  (match m.source with
   | 0 | 1 => m.ref ≥ ctrs || m.select != 0
   | 2 => m.ref > 79 || m.select > 2 || (m.select != 0 && !(48 ≤ m.ref && m.ref ≤ 71))
   | 3 => m.ref > 127 || m.select > 5
   | _ => m.ref > 15 || m.select != 0) ||
  (if m.sketch then m.scale < -149 || m.scale > 96 else m.scale != 0)

/-- The worst case of R128, in bytes. -/
def worstCase (ms : List Metric) : Nat :=
  let ext (m : Metric) : Bool := m.min || m.max
  let one (m : Metric) : Nat :=
    if m.source ≤ 2 then 8 + 32 * b2n (ext m) + 16 * b2n m.sketch
    else 24 + 48 * b2n m.sum + 80 * b2n m.squares + 32 * b2n (ext m) + 1032 * b2n m.sketch
  104 + 8 * (b2n (!ms.isEmpty) + b2n (ms.any ext) + b2n (ms.any (·.sketch))) + sumN (ms.map one)

def shapeOf (m : Metric) : Shape :=
  { sum := m.sum, squares := m.squares, min := m.min, max := m.max, sketch := if m.sketch then some m.scale else none }

/-- RETURN metrics of all active and staged catalogues but one staged group. -/
def returnCount (skip : Nat) (s : State) : Nat :=
  sumN ((s.cats ++ s.catsStaged.filter (·.1 != skip)).map fun p => (p.2.metrics.filter (·.ret)).length)

/-- The unit produces its summaries alone: a root hub, or a tray hub in tray scope (R124, R132). -/
def treeTop (s : State) : Bool := isRoot s || (isTray s && s.frame.params.trayScope)

/-- R123: a whole catalogue image staged, or refused. -/
def stageCatalogue (img : Bytes) (s : State) : Reply × State :=
  let n := rd img 2 2
  let es := records 16 (slice img 32 (16 * n))
  let ms := es.map parseMetric
  let idx := ms.map (·.index)
  let mono := (idx.zip (idx.drop 1)).all fun p => p.1 < p.2
  let grp := byteAt img 0
  if !verified 4 img s then (refuse stSig, s)
  else if img.length != 32 + 16 * n + 128 then (refuse stFormat, s)
  else if rd img 4 4 == 0 || byteAt img 1 != 0 || !allZero (slice img 8 24) || es.any metricParamBad || !mono then (refuse stBadParam, s)
  else if grp > 63 || n > 1024 || ms.any (metricRangeBad (ctrCount s)) then (refuse stRange, s)
  else if isDie s && worstCase ms > s.frame.params.limit * 1024 then (refuse stSpace, s)
  else if treeTop s && returnCount grp s + (ms.filter (·.ret)).length > 512 then (refuse stSpace, s)
  else
    let c : Catalogue := { group := grp, version := rd img 4 4, metrics := ms, image := img }
    (okay [], { s with catsStaged := tput (if isDie s then 0 else grp) c s.catsStaged })

/-- RED.ACTIVATE_CATALOGUE at its tick (R124): active and staged change places. -/
def activateCatalogue (key : Nat) (s : State) : State :=
  match tfind key s.catsStaged with
  | none => s
  | some c =>
    let staged := match tfind key s.cats with
      | some old => tput key old s.catsStaged
      | none => tdel key s.catsStaged
    { s with cats := tput key c s.cats, catsStaged := staged }

end Sys2Proof.Machine
end

