-- ==== Sys2Proof/Machine/Codec.lean ====
section
/-! DEFINITION. The block codec (R331 to R348): blocks, the coded payload, the decoder's checks, contexts and saved
states. A job gathers its input from a descriptor chain and fills another with its output (R340, R341); its context keeps both
in stream order too. -/
namespace Sys2Proof.Machine

/-! ### Statuses (Table CDC-2) -/
def cdDone : Nat := 0
def cdFull : Nat := 1
def cdHeader : Nat := 2
def cdNoHistory : Nat := 3
def cdOffset : Nat := 4
def cdOverrun : Nat := 5
def cdTruncated : Nat := 6
def cdPadding : Nat := 7
def cdCrc : Nat := 8
def cdLimit : Nat := 9
def cdShort : Nat := 10
def cdInput : Nat := 11

/-! ### Descriptor chains (R340, R341) -/

/-- A descriptor (Table CDC-3). -/
structure Desc where
  addr : Nat
  length : Nat
  last : Bool
  store : Bool
  next : Nat
  deriving DecidableEq, Repr

def descBytes (d : Desc) : Bytes :=
  toLe 8 d.addr ++ toLe 4 (d.length % 2 ^ 24) ++ toLe 4 (d.next % 2 ^ 26 + 2 ^ 30 * b2n d.store + 2 ^ 31 * b2n d.last)

/-- The descriptor at an offset of block SRAM. -/
def readDesc (m : List Host.Cell) (a : Nat) : Desc :=
  let b := memRead m a 16
  let w := rd b 12 4
  { addr := rd b 0 8, length := rd b 8 4 % 2 ^ 24, last := bit w 31, store := bit w 30, next := w % 2 ^ 26 }

/-- Where a buffer starts in the chains' memory: the store's addresses follow those of block SRAM. -/
def Desc.start (d : Desc) : Nat := if d.store then 2 ^ 64 + d.addr else d.addr

/-- A chain, from its first descriptor to the one that carries LAST. The first argument bounds its length. -/
def chainAt (m : List Host.Cell) : Nat → Nat → List Desc
  | 0, _ => []
  | f + 1, a => let d := readDesc m a; if d.last then [d] else d :: chainAt m f d.next

/-- Most descriptors that a chain of this block has. -/
def chainMax : Nat := 512

/-- Bytes of a chain's buffers, in chain order. -/
def gatherChain (m : List Host.Cell) (ds : List Desc) : Bytes := ds.flatMap fun d => memRead m d.start d.length

/-- Bytes placed in a chain's buffers from position `skip` on: each buffer to its end, then the next from its first byte. -/
def fillChain : List Desc → Nat → Bytes → List Host.Cell → List Host.Cell
  | [], _, _, m => m
  | d :: r, skip, b, m =>
    if skip ≥ d.length then fillChain r (skip - d.length) b m
    else fillChain r 0 (b.drop (d.length - skip)) (memWrite m (d.start + skip) (b.take (d.length - skip)))

/-- A chain over buffers (address, length) in block SRAM: its descriptors stand one after another from an offset on. -/
def layChain : Nat → List (Nat × Nat) → List Host.Cell → List Host.Cell
  | _, [], m => m
  | a, (b, n) :: r, m =>
    layChain (a + 16) r (memWrite m a (descBytes { addr := b, length := n, last := r.isEmpty, store := false, next := a + 16 }))

/-! ### The coded payload (R334, R335) -/

/-- Payload bytes of a target code (R332). -/
def targetSize (t : Nat) : Nat := if t == 1 then 2048 else 1024

/-- Append `m` bytes, each the byte `o` places back; the bytes stand last first. -/
def copyBack : Nat → Nat → Bytes → Bytes
  | 0, _, rev => rev
  | m + 1, o, rev => copyBack m o (rev.getD (o - 1) 0 :: rev)

/-- A match token: length, offset and the payload after it, or its error. -/
def matchToken (c : Nat) (rest : Bytes) : Except Nat (Nat × Nat × Bytes) :=
  if c < 0xC0 then
    match rest with
    | [] => .error cdTruncated
    | b :: r => .ok (c / 8 % 8 + 3, c % 8 * 256 + b.toNat + 1, r)
  else
    match rest with
    | b0 :: b1 :: r =>
      let w := b0.toNat + 256 * b1.toNat
      if w ≥ 8192 then .error cdOffset
      else if c == 0xFF then
        match unleb128 r with
        | some (x, r) => .ok (66 + x, w + 1, r)
        | none => .error cdTruncated
      else .ok (c % 64 + 3, w + 1, r)
    | _ => .error cdTruncated

/-- decode of R334: `p` bytes of the block are decoded, `h` is the history length, and `rev` holds the decoded bytes and
the history, last byte first. Every token adds at least one byte, so `n + 1` rounds of fuel suffice. -/
def decodeTokens : Nat → Bytes → Nat → Nat → Nat → Bytes → Except Nat Bytes
  | 0, _, _, _, _, _ => .error cdTruncated
  | f + 1, pay, n, p, h, rev =>
    if p ≥ n then (if allZero pay then .ok rev else .error cdPadding) else
    match pay with
    | [] => .error cdTruncated
    | b :: rest =>
      let c := b.toNat
      if c < 0x80 then
        if p + c + 1 > n then .error cdOverrun
        else if rest.length < c + 1 then .error cdTruncated
        else decodeTokens f (rest.drop (c + 1)) n (p + c + 1) h ((rest.take (c + 1)).reverse ++ rev)
      else
        match matchToken c rest with
        | .error e => .error e
        | .ok (m, o, rest) =>
          if o > p + h then .error cdOffset
          else if p + m > n then .error cdOverrun
          else decodeTokens f rest n (p + m) h (copyBack m o rev)

/-- The `n` bytes that a coded payload decodes to after a history. -/
def decodeCoded (pay : Bytes) (n : Nat) (hist : Bytes) : Except Nat Bytes :=
  (decodeTokens (n + 1) pay n 0 hist.length hist.reverse).map fun rev => (rev.take n).reverse

/-- A raw payload (R336). -/
def decodeRaw (pay : Bytes) (n : Nat) : Except Nat Bytes :=
  if allZero (pay.drop n) then .ok (pay.take n) else .error cdPadding

/-! ### Block headers (Table CDC-1) -/

structure BlockHead where
  raw : Bool
  fresh : Bool
  target : Nat
  n : Nat
  check : Nat
  clear : Bool                           -- every reserved field is 0

def headOf (b : Bytes) : BlockHead :=
  let c := byteAt b 0
  let w := rd b 2 2
  { raw := bit c 7, fresh := bit c 6, target := bits c 4 2, n := bits w 0 12 + 1, check := rd b 4 4
    clear := bits c 0 4 == 0 && byteAt b 1 == 0 && bits w 12 4 == 0 }

def blockHead (raw fresh : Bool) (target : Nat) (data : Bytes) : Bytes :=
  toLe 1 (128 * b2n raw + 64 * b2n fresh + 16 * target) ++ zeros 1 ++ toLe 2 (data.length - 1) ++ toLe 4 (crc32c data)

/-! ### One block of a job -/

/-- The history that a context holds. -/
def historyOf (c : Ctx) : Bytes := if c.hasHist then c.history else []

/-- The compressor (R337): the output block of an input block, and whether it is coded. -/
def encodeBlock (c : Ctx) (data : Bytes) : Bytes × Bool :=
  let hist := historyOf c
  let size := targetSize c.target
  let tok := Config.tokens data hist c.target
  let fits := tok.length ≤ size && (match decodeCoded (fit size tok) data.length hist with
    | .ok d => d == data
    | .error _ => false)
  if fits then (blockHead false (!c.hasHist) c.target data ++ fit size tok, true)
  else (blockHead true (!c.hasHist) c.target data ++ fit 4096 data, false)

/-- The decoder (R335, R336, R338): the next block of the input, its head and its decoded bytes, or the first error. -/
def decodeBlock (c : Ctx) : Except Nat (BlockHead × Bytes) :=
  let h := headOf c.input
  let size := if h.raw then 4096 else targetSize h.target
  if c.input.length < 8 then .error cdTruncated
  else if !h.clear || h.target == 0 || h.target == 3 || (c.blocks != 0 && c.target != 0 && h.target != c.target) || c.ended then .error cdHeader
  else if c.outBytes + h.n > c.limit || (c.exact && c.outBytes ≥ c.limit) then .error cdLimit
  else if !h.fresh && !c.hasHist then .error cdNoHistory
  else if c.input.length < 8 + size then .error cdTruncated
  else
    let pay := slice c.input 8 size
    match if h.raw then decodeRaw pay h.n else decodeCoded pay h.n (if h.fresh then [] else c.history) with
    | .error e => .error e
    | .ok d => if crc32c d == h.check then .ok (h, d) else .error cdCrc

/-- A job ends: normally, or with an error, which breaks the stream (R339). -/
def endJob (status : Nat) (c : Ctx) : Ctx :=
  let c := { c with active := false, status := status, failBlock := c.blocks }
  if status == cdDone then c
  else { c with broken := true, errors := tput status (tget 0 status c.errors + 1) c.errors }

/-- The output chain has room for a block (R341). -/
def roomFor (k : Nat) (c : Ctx) : Bool := k ≤ c.space

/-- A block has been written: its bytes leave the input, and the block becomes the history. -/
def wrote (data out : Bytes) (used : Nat) (c : Ctx) : Ctx :=
  { c with input := c.input.drop used, output := c.output ++ out, blocks := c.blocks + 1, inBytes := c.inBytes + used
           outBytes := c.outBytes + out.length, space := c.space - out.length
           history := fit 4096 data, hasHist := data.length == 4096, ended := decide (data.length < 4096) }

/-- One block of a compression job, or its end. -/
def compressStep (c : Ctx) : Ctx :=
  if c.input.isEmpty then endJob cdDone c
  else if c.ended || (c.input.length < 4096 && !c.isEnd) then endJob cdInput c
  else
    let data := c.input.take 4096
    let (out, coded) := encodeBlock c data
    if !roomFor out.length c then { c with status := cdFull }
    else
      let c := wrote data out data.length c
      if coded then { c with coded := c.coded + 1 } else { c with rawB := c.rawB + 1 }

/-- One block of a decompression job, or its end. -/
def decompressStep (c : Ctx) : Ctx :=
  if c.input.isEmpty then endJob (if c.exact && c.outBytes < c.limit then cdShort else cdDone) c
  else match decodeBlock c with
    | .error e => endJob e c
    | .ok (h, d) =>
      if !roomFor d.length c then { c with status := cdFull }
      else { wrote d d (8 + if h.raw then 4096 else targetSize h.target) c with target := h.target, decoded := c.decoded + 1 }

def codecStep (c : Ctx) : Ctx := if c.decomp then decompressStep c else compressStep c

/-! ### Contexts (R342 to R344) -/

def ctxAt (k : Nat) (s : State) : Ctx := s.cdc.ctxs.getD k {}
def setCtx (k : Nat) (f : Ctx → Ctx) (s : State) : State := { s with cdc := { s.cdc with ctxs := modifyAt k f s.cdc.ctxs } }

/-- A job on a stream of its own: the context is as after reset but for the counts of its use. -/
def freshJob (decomp : Bool) (target limit : Nat) (exact : Bool) (input : Bytes) (c : Ctx) : Ctx :=
  { coded := c.coded, rawB := c.rawB, decoded := c.decoded, errors := c.errors, decomp := decomp, target := target, limit := limit, exact := exact
    active := true, isEnd := true, feed := input }

/-- The next job of the stream that a context holds. -/
def nextJob (limit : Nat) (exact isEnd : Bool) (input : Bytes) (c : Ctx) : Ctx :=
  { c with limit := limit, exact := exact, isEnd := isEnd, feed := input, more := false, input := [], output := [], active := true, status := 0, failBlock := 0 }

/-- A context's part of the control core data region (Tables SRM-1 and SRM-2): descriptors of its input chain from 0, input buffers
from 0x100, output buffers from 0x2200, descriptors of its output chain from 0x4800. -/
def ctxArea (k : Nat) : Nat := 0x10000 + 0x8000 * k

/-- Bytes that an input chain holds at most: two of the largest blocks. -/
def chainBytes : Nat := 8208

/-- The buffers of an input chain of `n` bytes, and the output buffers of a context of the block's own. -/
def inBuffers (k n : Nat) : List (Nat × Nat) :=
  let a := ctxArea k + 0x100
  if n ≤ 4096 then [(a, n)] else [(a, 4096), (a + 4096, n - 4096)]
def outBuffers (k : Nat) : List (Nat × Nat) := [(ctxArea k + 0x2200, 4096), (ctxArea k + 0x3200, chainBytes - 4096)]

/-- A job gets an output chain over buffers (R341): it goes on from the block at which it paused. -/
def giveOutput (k : Nat) (bufs : List (Nat × Nat)) (s : State) : State :=
  let first := ctxArea k + 0x4800
  let s := { s with cdc := { s.cdc with chainMem := layChain first bufs s.cdc.chainMem } }
  setCtx k (fun c => { c with outFirst := first, outPos := 0, space := sumN (bufs.map (·.2)), status := if c.active then 0 else c.status }) s

/-- A job starts on a context, with an output chain of the context's own buffers. -/
def jobOn (k : Nat) (f : Ctx → Ctx) (s : State) : State := giveOutput k (outBuffers k) (setCtx k f s)

/-- The producer's next bytes go into an input chain, from which the engine gathers them (R340, R341). -/
def loadInput (k : Nat) (s : State) : State :=
  let c := ctxAt k s
  if c.feed.isEmpty || c.input.length ≥ 4104 then s else
  let part := c.feed.take chainBytes
  let first := ctxArea k
  let m := layChain first (inBuffers k part.length) s.cdc.chainMem
  let m := fillChain (chainAt m chainMax first) 0 part m
  let got := gatherChain m (chainAt m chainMax first)
  setCtx k (fun c => { c with feed := c.feed.drop chainBytes, inFirst := first, input := c.input ++ got }) { s with cdc := { s.cdc with chainMem := m } }

/-- A context has a whole input block, or the end of its stream, ready (R344). -/
def blockReady (c : Ctx) : Bool := !c.more || c.input.length + c.feed.length ≥ (if c.decomp then 4104 else 4096)

/-- The engine's context (R344): the first in order of priority with a block or the end of its stream ready, and room. -/
def readyCtx (s : State) : Option Nat := findIdx (fun (c : Ctx) => c.active && c.status != cdFull && blockReady c) s.cdc.ctxs

/-- The scan image's job fills chunks that the host empties (R321). -/
def hostStream (k : Nat) (s : State) : Bool := k == 0 && !s.build.hub && s.sht.toHost

/-- The users but the host take what a paused job has written, and give it a new output chain (R341). -/
def renewOutputs (s : State) : State :=
  (List.range s.cdc.ctxs.length).foldl (fun s k =>
    if (ctxAt k s).active && (ctxAt k s).status == cdFull && !hostStream k s then giveOutput k (outBuffers k) s else s) s

/-- One block on a context, its output in the output chain, and the register's view of it (Table CDC-7): the context, if its job has
ended. -/
def blockOn (k : Nat) (s : State) : Option Nat × State :=
  let s := loadInput k s
  let c0 := ctxAt k s
  let c := codecStep c0
  let new := c.output.drop c0.output.length
  let m := fillChain (chainAt s.cdc.chainMem chainMax c.outFirst) c.outPos new s.cdc.chainMem
  let s := setCtx k (fun _ => { c with outPos := c.outPos + new.length }) s
  let failed := !c.active && c.status != cdDone
  let busy := c.active && c.status != cdFull && blockReady c
  let d := s.cdc
  let d := { d with chainMem := m, active := if busy then k else 15, busy := if busy then (if c.decomp then 2 else 1) else 0
                    outFull := d.outFull || c.status == cdFull, error := d.error || failed, lastError := if failed then c.status else d.lastError }
  (if c.active then none else some k, { s with cdc := d })

/-- The engine's turn (R344): it switches to the context that is due, saving one state and restoring the other, or runs a block. -/
def engineStep (s : State) : Option Nat × State :=
  let s := renewOutputs s
  match readyCtx s with
  | none => (none, { s with cdc := { s.cdc with active := 15, busy := 0 } })
  | some k =>
    if s.cdc.loaded != k then (none, { s with cdc := { s.cdc with loaded := k, active := k, busy := 3 } })
    else blockOn k s

/-- Saved state of Table CDC-4. -/
def saveState (c : Ctx) : Bytes :=
  let b := fit 4096 (historyOf c) ++ toLe 2 1 ++ toLe 1 (b2n c.hasHist + 2 * b2n c.decomp + 4 * b2n c.ended + 8 * b2n c.broken) ++ toLe 1 c.target ++
    toLe 8 c.blocks ++ toLe 8 c.inBytes ++ toLe 8 c.outBytes ++ toLe 8 (if c.decomp then c.limit else 0) ++ toLe 1 (b2n c.exact) ++ zeros 215
  b ++ toLe 4 (crc32c b)

/-- A restore's check (R343). -/
def stateFault (b : Bytes) : Option Nat :=
  if rd b 4096 2 != 1 || rd b 4348 4 != crc32c (b.take 4348) then some stFormat
  else if bits (byteAt b 4098) 4 4 != 0 || byteAt b 4132 > 1 || !allZero (slice b 4133 215) || byteAt b 4099 == 0 || byteAt b 4099 > 2 then some stBadParam
  else none

/-- The context that a state restores. -/
def restored (b : Bytes) (c : Ctx) : Ctx :=
  let f := byteAt b 4098
  { c with history := b.take 4096, hasHist := bit f 0, decomp := bit f 1, ended := bit f 2, broken := bit f 3, target := byteAt b 4099
           blocks := rd b 4100 8, inBytes := rd b 4108 8, outBytes := rd b 4116 8, limit := rd b 4124 8, exact := byteAt b 4132 == 1, output := []
           feed := [], input := [], more := false, status := 0, failBlock := 0 }

/-! ### Commands (Table CDC-8) -/

/-- Position of the test context (Table CDC-5). -/
def testCtx (s : State) : Nat := if s.build.hub then 0 else 3

/-- The user of a context: 0 scan image, 1 hang dump, 2 probe pack, 3 CDC.TEST. -/
def ctxUser (k : Nat) (s : State) : Nat := if s.build.hub then 3 else k

def ctxFlags (c : Ctx) : Nat := b2n c.hasHist + 2 * b2n c.decomp + 4 * b2n c.ended + 8 * b2n c.broken

/-- CDC.GET: a RECORD per context: user, state flags, last status, blocks, bytes in and out, limit, failing block; blocks
coded, raw and decoded; errors per code from 2. -/
def cdcGet (r : Request) (s : State) : Reply × State :=
  command { code := 0x1101, auth := authRead } true r (fun _ s =>
    let item (p : Ctx × Nat) : Tlv :=
      let c := p.1
      record (toLe 1 (ctxUser p.2 s) ++ toLe 1 (ctxFlags c) ++ toLe 1 c.status ++ zeros 1 ++ toLe 8 c.blocks ++ toLe 8 c.inBytes ++ toLe 8 c.outBytes ++
        toLe 8 c.limit ++ toLe 8 c.failBlock ++ toLe 8 c.coded ++ toLe 8 c.rawB ++ toLe 8 c.decoded ++
        (List.range 10).flatMap fun i => toLe 4 (tget 0 (i + 2) c.errors))
    (okay (s.cdc.ctxs.zipIdx.map item), s)) s
def execCdcGet (r : Request) (s : State) : Host.Outcome State Fault Refusal := .next (finish 0x1101 r (cdcGet r (begin_ r.after s)))

/-- Bytes of a codec state. -/
def stateSize : Nat := 4352

/-- FLAG number `i` of a body. -/
def flagAt (i : Nat) (b : List Tlv) : Bool := (nums tFlag b).getD i 0 == 1

/-- The reply of a test: status, failing block, output bytes in all, and a run of the output; the output is followed by
the state after the last block when that was asked for. -/
def testReply (version off : Nat) (s : State) : Reply :=
  let c := ctxAt (testCtx s) s
  let all := c.output ++ (if s.cdc.testState then saveState c else [])
  if off > all.length then refuse stRange
  else byteRun version [stU32 0 c.status, stU32 1 c.failBlock, stU32 2 c.output.length] all off

/-- The job of a test whose input is whole (R348), or the code that refuses it. FLAGs: EXACT, END, a state stands before
the input, the state after is wanted. A FRESH block resets a broken stream (R339). -/
def testJob (b : List Tlv) (img : Bytes) (c : Ctx) : Except Nat Ctx :=
  let decomp := choice b == 1
  let hasState := flagAt 2 b
  let input := if hasState then img.drop stateSize else img
  let target := (set? 0 b).getD 0
  let limit := (set? 1 b).getD 0
  let fresh := input.length ≥ 8 && (headOf input).fresh
  let newStream : Ctx := { freshJob decomp target (if decomp then limit else 0) (decomp && flagAt 0 b) input c with isEnd := flagAt 1 b }
  if (set? 0 b).isNone || (set? 1 b).isNone || (val? tChoice b).isNone || choice b > 1 || flagBad b then .error stBadParam
  else if (hasState && img.length < stateSize) || input.length > 16384 then .error stBadLength
  else if target == 0 || target > 2 || limit > 16384 then .error stRange
  else if hasState then
    match stateFault img with
    | some e => .error e
    | none =>
      let k := restored img c
      if k.decomp != decomp then .error stBadParam
      else if k.broken then (if decomp && fresh then .ok newStream else .error stState)
      else .ok (nextJob limit (flagAt 0 b) (flagAt 1 b) input k)
  else if !decomp || fresh then .ok newStream
  else if c.broken then .error stState
  else if c.decomp then .ok (nextJob limit (flagAt 0 b) (flagAt 1 b) input c)
  else .ok newStream

/-- CDC.TEST (R348, R393): pieces, the last of which starts the test, whose reply follows when the job ends; or OFFSET
alone, which reads on in the last test's output. -/
def cdcTest (r : Request) (s : State) : Option Reply × State :=
  let (rep, s') := command { code := 0x1102, params := [may tChoice, may tOffset, mayMany tFlag 4, may tPiece, setting 0 4, setting 1 4] } true r
    (fun b s =>
      let t := testCtx s
      if (val? tPiece b).isSome == (val? tOffset b).isSome then (refuse stBadParam, s)
      else if (val? tOffset b).isSome then
        if s.cdc.test.isSome then (refuse stBusy, s) else (testReply r.version (num tOffset b) s, s)
      else
        let slot : Slot := { key := 0x1102, limit := 16384 + stateSize, busy := s.cdc.test.isSome, cleared := s }
        match takePiece slot r.session b s with
        | .done p s => (p, s)
        | .whole img s =>
          match testJob b img (ctxAt t s) with
          | .error e => (refuse e, s)
          | .ok c =>
            let was := ctxAt t s
            let s := jobOn t (fun _ => c) s
            (okay [], { s with cdc := { s.cdc with test := some r, testState := flagAt 3 b, testWas := was } })) s
  (if s'.cdc.test.isSome && s.cdc.test.isNone then none else some rep, s')
def execCdcTest (r : Request) (s : State) : Host.Outcome State Fault Refusal :=
  match cdcTest r (begin_ r.after s) with
  | (some rep, s) => .next (finish 0x1102 r (rep, s))
  | (none, s) => .next s

/-- The test context's job has ended: CDC.TEST replies with the status and the first run of output. A test whose output does not fit
a version 1 reply is refused, and its context is as before (R348). -/
def testEnded (s : State) : State :=
  match s.cdc.test with
  | none => s
  | some r =>
    let s := { s with cdc := { s.cdc with test := none } }
    let rep := testReply r.version 0 s
    finish 0x1102 r (rep, if rep.status == stOk then s else setCtx (testCtx s) (fun _ => s.cdc.testWas) s)

end Sys2Proof.Machine
end

