-- ==== Sys2Proof/Machine/Trace.lean ====
section
/-! DEFINITION. The trace unit (R273 to R296): the packet encoder, chunks and modes, triggers, the tray hub's ingress and
history region, and the TRC commands. -/
namespace Sys2Proof.Machine

def srcAt (i : Nat) (s : State) : Source := s.trc.srcs.getD i {}
def setSrc (i : Nat) (f : Source → Source) (s : State) : State := { s with trc := { s.trc with srcs := modifyAt i f s.trc.srcs } }

/-- Modes of Table TRC-1. -/
def trcOff : Nat := 0
def trcStream : Nat := 1
def trcLocal : Nat := 2

def traceEnabled (i : Nat) (s : State) : Bool := s.trc.set.enable.getD i false
def tracePrio (i : Nat) (s : State) : Nat := s.trc.set.prio.getD i 1

/-- A source encodes: enabled, in a mode other than OFF, not stopped in LOCAL, and not in a low-power state (R279). -/
def encodes (i : Nat) (s : State) : Bool :=
  traceEnabled i s && s.trc.set.mode != trcOff && !(s.trc.set.mode == trcLocal && s.trc.stopped) && (srcAt i s).lowPower.isNone

/-! ### Reading packets (Table TRC-2) -/

/-- Bytes of `k` LEB128 values; 0 when they run past the end. -/
def lebLen : Nat → Bytes → Nat
  | 0, _ => 0
  | k + 1, b =>
    match unleb128 b with
    | none => 0
    | some (_, r) => let n := b.length - r.length
      if k = 0 then n else (let m := lebLen k r; if m = 0 then 0 else n + m)

/-- Length of the packet at the front; 0 for none that Table TRC-2 gives. -/
def packetLen (b : Bytes) : Nat :=
  let h := byteAt b 0 / 8
  let rest := b.drop 1
  let withLeb (k : Nat) : Nat := let n := lebLen k rest; if n = 0 then 0 else 1 + n
  if b.isEmpty then 0 else
  match byteAt b 0 % 8 with
  | 0 | 1 => if h == 31 then withLeb 1 else 1
  | 2 => withLeb 2
  | 3 => if b.length ≥ 24 then 24 else 0
  | 4 => if h ≥ 16 then 1 else withLeb 2
  | 5 => withLeb 1
  | 6 => if b.length ≥ 4 then 4 else 0
  | _ => 0

/-- The packets of a body; what no packet begins is left out. `fuel` bounds their number. -/
def packetsF : Nat → Bytes → List Bytes
  | 0, _ => []
  | f + 1, b => let n := packetLen b; if n = 0 then [] else b.take n :: packetsF f (b.drop n)
def packetsOf (b : Bytes) : List Bytes := packetsF b.length b

def isSync (p : Bytes) : Bool := byteAt p 0 % 8 == 3
/-- The count of a DROP of cause SOURCE. -/
def dropCount (p : Bytes) : Nat := if byteAt p 0 == 5 then ((unleb128 (p.drop 1)).map (·.1)).getD 0 else 0

/-! ### The history region (R287, R288) -/

/-- Entries that fit in `size` bytes, the newest kept; the list stands newest first. -/
def keepNewest : Nat → List Bytes → List Bytes
  | _, [] => []
  | size, e :: r => if e.length ≤ size then e :: keepNewest (size - e.length) r else []

/-- Trace packets that this hub dropped join the field of its next summary (R168, R287). -/
def addTraceDropped (n : Nat) (s : State) : State := { s with hub := { s.hub with traceDropped := s.hub.traceDropped + n } }

/-- Store a message body: its head, the body padded, and the region's size kept. A tray hub counts the stored DROPs (R287). -/
def appendHistory (stamp door : Nat) (body : Bytes) (s : State) : State :=
  let e := shortStamp stamp ++ toLe 2 body.length ++ toLe 1 door ++ zeros 1 ++ padTo 8 body
  let all := (keepNewest (s.trc.histSize * 1000000000) (e :: s.trc.history.reverse)).reverse
  let lost := sumN ((packetsOf (body.drop 8)).map dropCount)
  let s := { s with trc := { s.trc with history := all } }
  if isTray s then addTraceDropped lost s else s

/-! ### Chunks (R281 to R285) -/

/-- Chunks of the trace buffer (R281). -/
def chunkTotal : Nat := 504

/-- The message body of a chunk (Table TRC-4). -/
def chunkBody (c : Chunk) (s : State) : Bytes :=
  toLe 1 c.source ++ toLe 1 c.prio ++ toLe 2 c.count ++ toLe 4 (if s.build.hub then 0 else dieId s) ++ c.bytes

/-- A chunk's message still waits for its acknowledgement (R282). -/
def chunkMsg (m : Msg) : Bool := m.type == 0x30 && byteAt m.body 0 != 0xFF
def sendingChunks (s : State) : Nat :=
  if s.build.hub then 0 else let d := doorAt 0 s; ((d.sendQ ++ d.inFlight).filter fun p => chunkMsg p.1).length

/-- Scan output for the host that it has not read (R321): head and entries, then the captured bytes or the codec's. -/
def hostRest (s : State) : Bytes :=
  match s.sht.hostHead with
  | none => []
  | some h => (h ++ s.sht.scanRaw ++ (ctxAt 0 s).output).drop s.sht.hostRead

/-- Chunks that hold scan output for the host (R321). -/
def scanChunks (s : State) : Nat :=
  if !s.sht.toHost then 0 else
  let n := (s.sht.hostHead.getD []).length + s.sht.scanRaw.length + (ctxAt 0 s).output.length - s.sht.hostRead
  (n + 1023) / 1024

def freeChunks (s : State) : Nat :=
  chunkTotal - ((s.trc.srcs.filter (·.chunk.isSome)).length + s.trc.queue.length + sendingChunks s + scanChunks s)

/-- Reserve of a priority (R283). -/
def chunkReserve (p : Nat) : Nat := match p with | 0 => 160 | 1 => 96 | 2 => 32 | _ => 0

/-- Close a source's chunk (R281). On a hub whose history is frozen the message is refused (R294). -/
def closeChunk (i : Nat) (s : State) : State :=
  match (srcAt i s).chunk with
  | none => s
  | some c =>
    let s := setSrc i (fun x => { x with chunk := none }) s
    if s.build.hub && s.trc.stopped then s
    else { s with trc := { s.trc with queue := s.trc.queue ++ [{ c with closedAt := s.time.now }] } }

/-- Room for one more chunk (R283, R285): in LOCAL the oldest closed chunk gives way. -/
def takeChunk (i : Nat) (s : State) : Option State :=
  let free := freeChunks s
  if s.trc.set.mode == trcLocal then
    (if free > 0 then some s else match s.trc.queue with
      | [] => none
      | _ :: q => some { s with trc := { s.trc with queue := q } })
  else if free > 0 && free ≥ chunkReserve (tracePrio i s) then some s
  else none

/-! ### The encoder (R276 to R280) -/

/-- A packet is lost: the source counts it, and a pod or root hub its own sources' losses. A tray hub counts them in the DROP that
it stores (R168, R287). -/
def losePacket (i : Nat) (s : State) : State :=
  let s := setSrc i (fun x => { x with lost := satAdd u32Max x.lost 1, dropped := x.dropped + 1 }) s
  if isPod s || isRoot s then addTraceDropped 1 s else s

/-- Put a packet into the source's chunk, or count it as lost. -/
def putPacket (i : Nat) (b : Bytes) (s : State) : State :=
  let x := srcAt i s
  let fits : Bool := match x.chunk with | some c => decide (c.bytes.length + b.length ≤ 1016) | none => false
  if x.dropping then losePacket i s
  else if fits then
    setSrc i (fun x => { x with written := x.written + 1, chunk := x.chunk.map fun c => { c with count := c.count + 1, bytes := c.bytes ++ b } }) s
  else
    let s := closeChunk i s
    match takeChunk i s with
    | some s =>
      let c : Chunk := { source := i, prio := tracePrio i s, count := 1, bytes := b, openedAt := s.time.now }
      setSrc i (fun x => { x with written := x.written + 1, chunk := some c }) s
    | none => losePacket i (setSrc i (fun x => { x with dropping := true, lost := 0 }) s)

def nowNs (s : State) : Nat := s.time.now / nsUnit

/-- The source presents its region cycle count at this edge. -/
def presentCyc (i cycles : Nat) (s : State) : State := setSrc i (fun x => { x with cyc := cycles, cycAt := s.pwr.cycles }) s

/-- The region cycle count of this edge (R278). At an edge at which the source presented none, the command gives none: the count
has gone on by a free number. -/
def edgeCyc (i : Nat) (s : State) : State :=
  if (srcAt i s).cycAt == s.pwr.cycles then s else
  presentCyc i (((srcAt i s).cyc + Config.freeNat s.free) % 2 ^ 48) { s with free := s.free + 1 }

/-- SYNC (Table TRC-2): the position, which is the address of the source's next bundle, and the reference of TIME. -/
def writeSync (i reason : Nat) (addr : Word) (s : State) : State :=
  let s := edgeCyc i s
  let b := toLe 1 (3 + 8 * reason) ++ toLe 1 (i + 64 * tracePrio i s) ++ toLe 4 addr.toNat ++ shortStamp s.time.now ++ toLe 6 (srcAt i s).cyc
  setSrc i (fun x => { x with pos := addr, refTime := nowNs s, refCyc := x.cyc, sinceSync := 0, needSync := none, quiet := true, synced := true })
    (putPacket i b s)

/-- The address that follows the source's pending RUN. -/
def nextAddr (x : Source) : Word := x.pos + BitVec.ofNat 32 x.runN

/-- SYNC reasons of Table TRC-3. -/
def syncStart : Nat := 0
def syncPeriodic : Nat := 1
def syncTimeStep : Nat := 4

/-- A SYNC that must come before the source's next packet is written. A PERIODIC one waits for the bundle whose address it
carries (R277). The others stand before any packet: before one that no bundle brings they carry the expected address. -/
def ensureSync (i : Nat) (s : State) : State :=
  let x := srcAt i s
  match x.needSync with
  | some r => if x.dropping || r == syncPeriodic then s else writeSync i r (nextAddr x) s
  | none => s

/-- A packet is put, and after S packets since the last SYNC a PERIODIC one is due (Table TRC-3). -/
def countPacket (i : Nat) (b : Bytes) (s : State) : State :=
  let s := putPacket i b s
  let cap := s.trc.set.sync
  setSrc i (fun x => { x with sinceSync := x.sinceSync + 1
                              needSync := if x.sinceSync + 1 ≥ cap then x.needSync.or (some syncPeriodic) else x.needSync }) s

/-- Write a packet other than SYNC. -/
def writePkt (i : Nat) (b : Bytes) (s : State) : State := countPacket i b (ensureSync i s)

/-- Δt and Δc from the latest SYNC or TIME (R278). -/
def deltas (i : Nat) (s : State) : Bytes :=
  let x := srcAt i s
  leb128 (nowNs s - x.refTime) ++ leb128 ((x.cyc + 2 ^ 48 - x.refCyc) % 2 ^ 48)

/-- A SYNC but a PERIODIC one is due before the source's next packet, and the source can write it. -/
def syncFirst (x : Source) : Bool := x.needSync.any (· != syncPeriodic) && !x.dropping

/-- TIME (R278); a SYNC that must come first carries the time in its place. -/
def writeTime (i : Nat) (s : State) : State :=
  if syncFirst (srcAt i s) then ensureSync i s else
  let s := edgeCyc i s
  let s := countPacket i (toLe 1 2 ++ deltas i s) s
  setSrc i (fun x => { x with refTime := nowNs s, refCyc := x.cyc, quiet := true }) s

/-- A packet boundary after the TIME interval has elapsed (R278). -/
def checkTime (i : Nat) (s : State) : State :=
  if encodes i s && nowNs s ≥ (srcAt i s).refTime + s.trc.set.timeInt * 1000 then writeTime i s else s

def runBytes (n : Nat) : Bytes := if n ≤ 31 then toLe 1 (8 * (n - 1)) else toLe 1 0xF8 ++ leb128 (n - 32)
def jumpBytes (d : Int) : Bytes := let z := zigzag d; if z ≤ 30 then toLe 1 (1 + 8 * z) else toLe 1 0xF9 ++ leb128 (z - 31)

/-- Close the pending RUN (R277). A SYNC that is due comes after it: the RUN was executed before. -/
def closeRun (i : Nat) (s : State) : State :=
  let x := srcAt i s
  if x.runN == 0 then s else
  countPacket i (runBytes x.runN) (setSrc i (fun y => { y with runN := 0, pos := nextAddr x }) s)

/-- Close the pending RUN where no bundle follows it: TIME stands at the packet boundary (R278). -/
def endRun (i : Nat) (s : State) : State := if (srcAt i s).runN == 0 then s else checkTime i (closeRun i s)

/-- A SYNC is due and the source can write it: its reason. -/
def syncDue (x : Source) : Option Nat := if x.dropping then none else x.needSync

/-- A dropping source that may take a chunk again writes DROP and SYNC AFTER_DROP (R283); a pending RUN is lost with the rest. -/
def endDrop (i : Nat) (a : Word) (s : State) : State :=
  let x := srcAt i s
  if !x.dropping then s else
  match takeChunk i s with
  | none => s
  | some s =>
    let s := if x.runN == 0 then s else losePacket i (setSrc i (fun y => { y with runN := 0 }) s)
    let c : Chunk := { source := i, prio := tracePrio i s, count := 1, bytes := toLe 1 5 ++ leb128 (srcAt i s).lost, openedAt := s.time.now }
    writeSync i 3 a (setSrc i (fun x => { x with dropping := false, lost := 0, written := x.written + 1, chunk := some c }) s)

/-- Every source that drops and may take a chunk again ends its DROP (R283), at the address expected of its next bundle. -/
def endDrops (s : State) : State :=
  (List.range 64).foldl (fun s i => if (srcAt i s).dropping && encodes i s then endDrop i (nextAddr (srcAt i s)) s else s) s

/-- The next bundle does not follow the last: the RUN closes, and a due SYNC or a JUMP takes the position there. TIME stands at the
first packet boundary (R278). -/
def jumpTo (i : Nat) (a : Word) (s : State) : State :=
  let s := closeRun i s
  let s := if (syncDue (srcAt i s)).isSome then s else checkTime i s
  match syncDue (srcAt i s) with
  | some r => writeSync i r a s
  | none =>
    let d := signed 32 ((a.toNat + 2 ^ 32 - (srcAt i s).pos.toNat) % 2 ^ 32)
    let s := countPacket i (jumpBytes d) (setSrc i (fun x => { x with pos := a }) s)
    match syncDue (srcAt i s) with
    | some r => writeSync i r a s
    | none => checkTime i s

/-- One executed bundle (R277): a SYNC that is due carries its address. -/
def bundle (i : Nat) (a : Word) (s : State) : State :=
  let s := endDrop i a s
  let s := match syncDue (srcAt i s) with
    | some r => writeSync i r a (closeRun i s)
    | none => if nextAddr (srcAt i s) == a then s else jumpTo i a s
  let s := setSrc i (fun x => { x with runN := x.runN + 1, quiet := false }) s
  if (srcAt i s).runN ≥ u32Max then endRun i s else s

/-- TRACE_BUNDLE (R274): up to two bundles in execution order with the region cycle count at the first. -/
def execTraceBundle (source : Nat) (addrs : List Word) (cycles : Nat) (s : State) : Host.Outcome State Fault Refusal :=
  let s := s.fresh
  if !working s || !encodes source s then .next s
  else .next (addrs.foldl (fun s a => bundle source a s) (presentCyc source cycles s))

/-- A source enters a low-power state (R279). -/
def enterLow (i level : Nat) (s : State) : State :=
  if (srcAt i s).lowPower.isSome then s
  else if !encodes i s then setSrc i (fun x => { x with lowPower := some level }) s
  else
    let s := edgeCyc i (ensureSync i (endRun i s))
    let s := countPacket i (toLe 1 (4 + 8 * level) ++ deltas i s) s
    closeChunk i (setSrc i (fun x => { x with lowPower := some level }) s)

/-- A source leaves its low-power state: POWER exit and SYNC RESUME. A dropping source that may take a chunk ends its DROP first, and one
that may not counts both as lost (R283). -/
def exitLow (i : Nat) (addr : Word) (s : State) : State :=
  match (srcAt i s).lowPower with
  | none => s
  | some level =>
    let s := setSrc i (fun x => { x with lowPower := none }) s
    if !encodes i s then s else
    let s := writePkt i (toLe 1 (4 + 8 * (16 + level))) (endDrop i addr s)
    writeSync i 2 addr s

/-- LOW_POWER_ENTRY (R279). -/
def execLowPowerEntry (source level cycles : Nat) (s : State) : Host.Outcome State Fault Refusal :=
  let s := s.fresh
  if !working s then .next s else .next (enterLow source level (presentCyc source cycles s))

/-- LOW_POWER_EXIT (R279). -/
def execLowPowerExit (source : Nat) (addr : Word) (cycles : Nat) (s : State) : Host.Outcome State Fault Refusal :=
  let s := s.fresh
  if !working s then .next s else .next (exitLow source addr (presentCyc source cycles s))

/-- Sources whose region is the one named. -/
def sourcesOf (region : Nat) (s : State) : List Nat :=
  if region > 127 then [] else (List.range 64).filter fun i => (srcAt i s).kind == 1 && (srcAt i s).region == region

/-- A region's clock stops: low-power state 15 of its sources (R279). -/
def clockStops (region : Nat) (s : State) : State := (sourcesOf region s).foldl (fun s i => enterLow i 15 s) s
/-- A region's clock starts again, with the cycle count at which it stopped (R75). -/
def clockStarts (region : Nat) (s : State) : State :=
  let resume (s : State) (i : Nat) : State :=
    if (srcAt i s).lowPower == some 15 then exitLow i (nextAddr (srcAt i s)) (presentCyc i (srcAt i s).cyc s) else s
  (sourcesOf region s).foldl resume s

/-- A region's clock changes its state at this edge (R74, R279). -/
def clockEdge (code region : Nat) (s : State) : State :=
  if code == 0x10 then clockStops region s else if code == 0x11 then clockStarts region s else s

/-- TIME_INTERVAL_ELAPSE (R278): a source that presents no bundle gets its TIME when the interval elapses, once it has a SYNC
to count from. -/
def execTimeIntervalElapse (source cycles : Nat) (s : State) : Host.Outcome State Fault Refusal :=
  let s := s.fresh
  let x := srcAt source s
  if !working s || !encodes source s || !x.synced then .next s else
  let s := presentCyc source cycles (advanceTo ((x.refTime + s.trc.set.timeInt * 1000) * nsUnit) s)
  .next (if x.quiet || x.runN == 0 then writeTime source (closeRun source s) else s)

/-- CHUNK_FLUSH_TIME (R281). -/
def execChunkFlushTime (source : Nat) (s : State) : Host.Outcome State Fault Refusal :=
  let s := s.fresh
  match (srcAt source s).chunk with
  | none => .next s
  | some c => if !working s then .next s else .next (closeChunk source (advanceTo (c.openedAt + s.trc.set.flush * 1000 * nsUnit) s))

def allSources : List Nat := List.range 64

/-- Every source that encodes closes its RUN and its chunk: a Shutter stop (R296), a LOCAL stop (R294). -/
def closeAll (s : State) : State :=
  allSources.foldl (fun s i => if encodes i s then closeChunk i (endRun i s) else s) s

/-- The reason of a SYNC that is due for two: START, then TIME_STEP, then PERIODIC. -/
def syncReason (due : Option Nat) (reason : Nat) : Option Nat :=
  match due with
  | none => some reason
  | some r => some (if r == syncStart || reason == syncPeriodic then r else reason)

/-- Enabled sources begin with a SYNC of a reason (R296). -/
def syncAll (reason : Nat) (s : State) : State :=
  allSources.foldl (fun s i => if traceEnabled i s then setSrc i (fun x => { x with needSync := syncReason x.needSync reason }) s else s) s

/-- Before time changes other than by rate: every pending RUN closes under the time that it was executed in (R296). -/
def traceBeforeStep (s : State) : State := allSources.foldl (fun s i => if encodes i s then endRun i s else s) s

/-- TRACE_CHUNK_SEND (R282, R292): notices first, then the highest priority and the oldest within it. -/
def execTraceChunkSend (s : State) : Host.Outcome State Fault Refusal :=
  let s := s.fresh
  if s.build.hub || !carries 0 s then .next s else
  match s.trc.notices with
  | n :: r => .next (sendMsg 0 { kind := 4, type := 0x30, body := n } { s with trc := { s.trc with notices := r } })
  | [] =>
    if s.trc.set.mode != trcStream then .next s else
    match bestBy (fun (a b : Chunk × Nat) => a.1.prio > b.1.prio) s.trc.queue.zipIdx with
    | none => .next s
    | some (c, k) => .next (sendMsg 0 { kind := 4, type := 0x30, body := chunkBody c s } { s with trc := { s.trc with queue := s.trc.queue.eraseIdx k } })

/-! ### Triggers (R290 to R295) -/

/-- Trigger kinds of Table TRC-7. -/
def trgWatch : Nat := 0
def trgEvent : Nat := 1
def trgCommand : Nat := 2
def trgProbe : Nat := 3

/-- The next trigger serial of the unit (R291). -/
def nextTrigger (s : State) : Nat × State :=
  (s.trc.serial, { s with trc := { s.trc with serial := (s.trc.serial + 1) % 65536, triggered := true } })

/-- TRIG and the notice of a trigger (Table TRC-2, R292). -/
def trigBytes (kind index serial : Nat) : Bytes := toLe 1 (6 + 8 * kind) ++ toLe 2 serial ++ toLe 1 index
def noticeBytes (kind index serial : Nat) (s : State) : Bytes :=
  toLe 1 0xFF ++ toLe 1 3 ++ toLe 2 1 ++ toLe 4 (dieId s) ++ toLe 1 kind ++ toLe 1 index ++ toLe 2 serial ++ shortStamp s.time.now ++ zeros 16

/-- Triggers of one edge form one (R290): the lower kind and index takes the place of the other wherever it stands. -/
def mergeTrigger (kind index : Nat) (old : Nat × Nat × Nat) (s : State) : State :=
  let (k, i, serial) := old
  if (k, i) == (kind, index) || k < kind || (k == kind && i < index) then s else
  let swap (p : Bytes) : Bytes := if p == trigBytes k i serial then trigBytes kind index serial else p
  let mend (c : Chunk) : Chunk := { c with bytes := ((packetsOf c.bytes).map swap).flatten }
  let note (n : Bytes) : Bytes := if n == noticeBytes k i serial s then noticeBytes kind index serial s else n
  { s with trc := { s.trc with edgeTrig := some (s.pwr.cycles, kind, index, serial), queue := s.trc.queue.map mend
                               srcs := s.trc.srcs.map fun x => { x with chunk := x.chunk.map mend }, notices := s.trc.notices.map note } }

/-- A trigger of its own edge (R291, R292, R294): TRIG in each stream, and the notice in STREAM or the stop instant in LOCAL. -/
def newTrigger (kind index : Nat) (s : State) : State :=
  let (serial, s) := nextTrigger s
  let s := { s with trc := { s.trc with edgeTrig := some (s.pwr.cycles, kind, index, serial) } }
  let s := allSources.foldl (fun s i => if encodes i s then writePkt i (trigBytes kind index serial) (endRun i s) else s) s
  if s.trc.set.mode == trcStream then { s with trc := { s.trc with notices := s.trc.notices ++ [noticeBytes kind index serial s] } }
  else if s.trc.set.mode == trcLocal && s.trc.stopAt.isNone && !s.trc.stopped then
    { s with trc := { s.trc with stopAt := some (s.time.now + s.trc.set.delay * 1000 * nsUnit) } }
  else s

/-- A die unit takes a trigger of an enabled source (R290). -/
def takeTrigger (kind index : Nat) (s : State) : State :=
  if s.build.hub || !bit s.trc.set.sources kind then s else
  match s.trc.edgeTrig with
  | some (at_, old) => if at_ == s.pwr.cycles then mergeTrigger kind index old s else newTrigger kind index s
  | none => newTrigger kind index s

/-- A tray hub logs a trigger and takes its stop instant when it holds none (R294). -/
def hubTrigger (die kind index serial stamp delay : Nat) (s : State) : State :=
  let first := s.trc.stopAt.isNone && !s.trc.stopped
  let e : TrigLog := { die := die, kind := kind, index := index, serial := serial, stamp := stamp, setStop := first }
  let s := { s with trc := { s.trc with log := lastN 64 (s.trc.log ++ [e]) } }
  if first then { s with trc := { s.trc with stopAt := some (max (stamp + delay * 1000 * nsUnit) s.time.now) } } else s

/-- A tray trigger (R293). -/
def trayTrigger (delay : Nat) (s : State) : State :=
  let (serial, s) := nextTrigger s
  hubTrigger 0 trgCommand 0 serial s.time.now delay s

/-- TRIGGER_NOTICE_ARRIVAL (R294). -/
def execTriggerNoticeArrival (after door : Nat) (body : Bytes) (s : State) : Host.Outcome State Fault Refusal :=
  let s := begin_ after s
  if !carries door s || !isTray s then .next s
  else if body.length != 40 || byteAt body 0 != 0xFF || byteAt body 8 > 3 then .next (malformedOn door s)
  else
    let stamp := rd body 12 8 * secUnit + rd body 20 4 * nsUnit
    .next (hubTrigger (bits (rd body 4 4) 0 18) (byteAt body 8) (byteAt body 9) (rd body 10 2) stamp s.trc.set.delay s)

/-- STOP_INSTANT (R294): the history region freezes, or LOCAL trace stops. -/
def execStopInstant (s : State) : Host.Outcome State Fault Refusal :=
  let s := s.fresh
  match s.trc.stopAt with
  | none => .next s
  | some t =>
    if !working s then .next s else
    let s := advanceTo t s
    let s := if s.build.hub then s else closeAll s
    .next { s with trc := { s.trc with stopAt := none, stopped := s.build.hub || s.trc.set.mode == trcLocal } }

/-- TRAY_TRIGGER_AT_TIME (R293). -/
def execTrayTriggerAtTime (s : State) : Host.Outcome State Fault Refusal :=
  let s := s.fresh
  match s.trc.trayAt with
  | [] => .next s
  | t :: r => if !working s then .next s else .next (trayTrigger s.trc.set.delay { advanceTo t s with trc := { s.trc with trayAt := r } })

/-! ### The tray hub's ingress (R286) -/

/-- Ingress buffer of a down door, and the reserve of a priority. -/
def ingressSize : Nat := 65536
def ingressReserve (p : Nat) : Nat := match p with | 0 => 40960 | 1 => 24576 | 2 => 8192 | _ => 0

def ingressAt (d : Nat) (s : State) : Ingress := tget {} d s.trc.ingress
def setIngress (d : Nat) (f : Ingress → Ingress) (s : State) : State := { s with trc := { s.trc with ingress := tput d (f (ingressAt d s)) s.trc.ingress } }

/-- Door number of the hub's own sources in a store head (Table TRC-5). -/
def ownDoor : Nat := 0xFF

/-- The messages that the store takes next: the oldest of each door, and the hub's own oldest closed chunk, by arrival (R288). -/
def waitingHeads (s : State) : List (Nat × Nat × Bytes) :=
  (s.trc.ingress.filterMap fun p => p.2.waiting.head?.map fun w => (w.1, p.1, w.2)) ++
    (s.trc.queue.head?.toList.map fun c => (c.closedAt, ownDoor, chunkBody c s))

/-- The store takes the message that arrived first, at the lowest door, unless the history is frozen (R286, R288, R294). A chunk
of the hub's own comes free with it. -/
def drainIngress (s : State) : State :=
  if s.trc.stopped then s else
  match bestBy (fun (a b : Nat × Nat × Bytes) => a.1 < b.1) (waitingHeads s) with
  | none => s
  | some (t, d, b) =>
    let lost := sumN ((packetsOf (b.drop 8)).map dropCount)
    if d == ownDoor then endDrops (appendHistory t d b { s with trc := { s.trc with queue := s.trc.queue.drop 1 } })
    else appendHistory t d b (setIngress d (fun x => { x with waiting := x.waiting.drop 1, stored := x.stored + lost }) s)

/-- Packets that the hub discards (R287). -/
def discardTrace (d src n : Nat) (s : State) : State :=
  let s := setIngress d (fun x => { x with dropSrc := tput src (tget 0 src x.dropSrc + n) x.dropSrc }) s
  setDoor d (fun x => { x with traceDropped := x.traceDropped + n }) (addTraceDropped n s)

/-- A whole message that the hub discards. -/
def discardMessage (d src n : Nat) (s : State) : State :=
  discardTrace d src n (setIngress d (fun x => { x with discarded := x.discarded + 1 }) s)

/-- A trace message is taken or refused (R286); none is taken until the store port is usable (R465). -/
def admitTrace (d : Nat) (body : Bytes) (s : State) : State :=
  let src := byteAt body 0
  let x := ingressAt d s
  let free := ingressSize - sumN (x.waiting.map fun w => w.2.length)
  let pkts := packetsOf (body.drop 8)
  let room := storeUsable s && free ≥ ingressReserve (byteAt body 1 % 4) && free ≥ body.length
  let keep (b : Bytes) (s : State) : State := setIngress d (fun x => { x with waiting := x.waiting ++ [(s.time.now, b)], admitted := x.admitted + 1 }) s
  match tfind src x.dropSrc with
  | none => if room then keep body s else discardMessage d src pkts.length s
  | some lost =>
    let before := pkts.takeWhile fun p => !isSync p
    let rest := pkts.drop before.length
    if !room || rest.isEmpty then discardMessage d src pkts.length s else
    let s := discardTrace d src before.length s
    let drop := toLe 1 13 ++ leb128 (min u32Max (lost + before.length))
    let s := setIngress d (fun x => { x with dropSrc := tdel src x.dropSrc }) s
    keep (body.take 2 ++ toLe 2 (rest.length + 1) ++ slice body 4 4 ++ drop ++ rest.flatten) s

/-- TRACE_MESSAGE_ARRIVAL (R286, R294): refused and counted while the history is frozen. -/
def execTraceMessageArrival (after door : Nat) (body : Bytes) (s : State) : Host.Outcome State Fault Refusal :=
  let s := begin_ after s
  if !carries door s || !isTray s then .next s
  else if body.length < 8 || body.length > 1024 || byteAt body 0 > 63 || byteAt body 1 > 3 || bits (rd body 4 4) 18 14 != 0 then .next (malformedOn door s)
  else if s.trc.stopped then .next (setIngress door (fun x => { x with frozen := x.frozen + 1 }) s)
  else .next (admitTrace door body s)

/-- TRACE_READOUT_ARRIVAL (R168): history entries that reach a hub in a bulk readout. -/
def execTraceReadoutArrival (door : Nat) (item : Bytes) (s : State) : Host.Outcome State Fault Refusal :=
  let s := s.fresh
  if !carries door s || !s.build.hub then .next s else .next { s with trc := { s.trc with readouts := s.trc.readouts ++ [item] } }

/-! ### Settings (R275) -/

/-- The new settings at the tick of F (R296): a source whose settings change closes its chunk and begins with SYNC START. -/
def applyTrace (t : TraceSet) (s : State) : State :=
  let old := s.trc.set
  let changed (i : Nat) : Bool := t.mode != old.mode || t.enable.getD i false != old.enable.getD i false || t.prio.getD i 1 != old.prio.getD i 1
  let s := allSources.foldl (fun s i => if changed i && encodes i s then closeChunk i (endRun i s) else s) s
  let s := { s with trc := { s.trc with set := t } }
  let s := allSources.foldl (fun s i => if changed i then
    setSrc i (fun x => { x with needSync := some syncStart, synced := false, dropping := false, lost := 0, runN := 0, chunk := none, quiet := true }) s else s) s
  let s := if t.mode == trcOff then { s with trc := { s.trc with queue := [] } } else endDrops s
  if !s.build.hub && t.mode != trcLocal then { s with trc := { s.trc with stopAt := none, stopped := false } } else s

/-- The settings as SETTINGs, the rows of Table TRC-1. -/
def traceSettings (t : TraceSet) : List Tlv :=
  [setU32 0 t.mode, setBytes 1 (t.enable.map fun b => if b then 1 else 0), setBytes 2 (t.prio.flatMap (toLe 4)), setU32 3 t.timeInt, setU32 4 t.sync,
    setU32 5 t.flush, setBytes 6 (toLe 1 t.sources), setBytes 7 (t.codes.flatMap (toLe 4)), setU32 8 (b2n t.confirmedOnly), setU32 9 t.delay]

/-- The settings that a TRC.SET makes of the current ones. -/
def givenTrace (b : List Tlv) (t : TraceSet) : TraceSet :=
  let words (v : Bytes) : List Nat := (records 4 v).map le
  { t with mode := (set? 0 b).getD t.mode, enable := ((val? (tSetting 1) b).map fun v => v.map (· == 1)).getD t.enable
           prio := ((val? (tSetting 2) b).map words).getD t.prio, timeInt := (set? 3 b).getD t.timeInt, sync := (set? 4 b).getD t.sync
           flush := (set? 5 b).getD t.flush, sources := (set? 6 b).getD t.sources, codes := ((val? (tSetting 7) b).map words).getD t.codes
           confirmedOnly := ((set? 8 b).map (· == 1)).getD t.confirmedOnly, delay := (set? 9 b).getD t.delay }

/-- The class of an event code, none when reserved or the block's own (Table WIN-5). -/
def eventClass (code : Nat) : Option Nat :=
  if code == 1 || code == 2 then some 0
  else if code == 3 || code == 4 then some 1
  else if 0x10 ≤ code && code ≤ 0x12 then some 2
  else if 0x100 ≤ code && code ≤ 0x1FF then some 3
  else if 0x8000 ≤ code && code ≤ 0xFFFF then some 4
  else none

/-- A code that Table WIN-5 lists, the block's own among them (R96). -/
def windowCode (code : Nat) : Bool := (eventClass code).isSome || (0xF00 ≤ code && code ≤ 0xF02)

/-- TRC.SET (R275). -/
def trcSet (r : Request) (s : State) : Reply × State :=
  command { code := 0x0E01, params := [must tFrame, setting 0 4, setting 1 64, setting 2 256, setting 3 4, setting 4 4, setting 5 4, setting 6 1,
    may (tSetting 7), setting 8 4, setting 9 4] } true r (fun b s =>
    let t := givenTrace b s.trc.set
    let codes := ((val? (tSetting 7) b).getD []).length
    if codes % 4 != 0 then (refuse stBadLength, s)
    else if t.mode > 2 || t.prio.any (· > 3) || t.timeInt == 0 || t.timeInt > 65535 || t.sync < 256 || t.sync > 4096 || t.flush < 5 || t.flush > 1000 ||
      t.sources > 15 || codes > 32 || t.codes.any (!windowCode ·) || (set? 8 b).getD 0 > 1 || t.delay > 10000000 || num tFrame b ≤ curFrame s then (refuse stRange, s)
    else if ((val? (tSetting 1) b).getD []).any (fun (v : Byte) => v != 0 && v != 1) || (t.mode == trcLocal && s.build.hub) ||
      allSources.any (fun i => t.enable.getD i false && (srcAt i s).kind != 1) then (refuse stBadParam, s)
    else if t.mode != trcOff && !traceBanksOn s then (refuse stState, s)
    else defer 0x0E01 0 (num tFrame b) (.trcSet t) s) s
def execTrcSet (r : Request) (s : State) : Host.Outcome State Fault Refusal := .next (finish 0x0E01 r (trcSet r (begin_ r.after s)))

/-- STOP_STATE of Table TRC-10. -/
def stopState (s : State) : Nat := if s.trc.stopped then 2 else b2n s.trc.stopAt.isSome

/-- TRC.GET: settings and their pending change, mode, stop state, free chunks; per source enabled, dropping, low-power
state (0xFF none), packets written and dropped. -/
def trcGet (r : Request) (s : State) : Reply × State :=
  command { code := 0x0E02, auth := authRead, params := [may tIndex] } true r (fun b s =>
    let from_ := num tIndex b
    let pend := (pendOf 0x0E01 0 s).toList.map fun p => match p.change with
      | .trcSet t => pending_ p.frame (traceSettings t)
      | _ => pending_ p.frame []
    let item (i : Nat) : Bytes :=
      let x := srcAt i s
      toLe 1 i ++ toLe 1 (b2n (traceEnabled i s) + 2 * b2n x.dropping) ++ toLe 1 (x.lowPower.getD 0xFF) ++ toLe 1 x.kind ++ toLe 8 x.written ++ toLe 8 x.dropped
    (readout r.version (traceSettings s.trc.set ++ pend ++ [stU32 0 s.trc.set.mode, stU32 1 (stopState s), stU32 2 (freeChunks s)])
      ((allSources.drop from_).map item) (from_ + ·), s)) s
def execTrcGet (r : Request) (s : State) : Host.Outcome State Fault Refusal := .next (finish 0x0E02 r (trcGet r (begin_ r.after s)))

/-- TRC.TRIGGER (R293). -/
def trcTrigger (r : Request) (s : State) : Reply × State :=
  command { code := 0x0E03, params := if s.build.hub then [may tTime] else [] } (isDie s || isTray s) r (fun b s =>
    if isDie s then (okay [], takeTrigger trgCommand 0 s) else
    match val? tTime b with
    | none => (okay [], trayTrigger s.trc.set.delay s)
    | some v =>
      if !stampOk v then (refuse stRange, s)
      else if stampTime v ≤ s.time.now then (refuse stRange, s)
      else (okay [], { s with trc := { s.trc with trayAt := insertBy (fun (a b : Nat) => decide (a < b)) (stampTime v) s.trc.trayAt } })) s
def execTrcTrigger (r : Request) (s : State) : Host.Outcome State Fault Refusal := .next (finish 0x0E03 r (trcTrigger r (begin_ r.after s)))

/-- TRC.ARM (R295). In LOCAL a pending RUN closes before the SYNC START. -/
def trcArm (r : Request) (s : State) : Reply × State :=
  command { code := 0x0E04 } true r (fun _ s =>
    let s := if s.trc.set.mode == trcLocal then traceBeforeStep s else s
    let s := { s with trc := { s.trc with stopped := false }, wpt := { s.wpt with points := s.wpt.points.map fun p => { p with trigSpent := false } } }
    (okay [], if s.trc.set.mode == trcLocal then syncAll syncStart s else s)) s
def execTrcArm (r : Request) (s : State) : Host.Outcome State Fault Refusal := .next (finish 0x0E04 r (trcArm r (begin_ r.after s)))

/-- TRC.GET_TRIGGERS: the stop instant and the freeze state, then the log, oldest first. -/
def trcGetTriggers (r : Request) (s : State) : Reply × State :=
  command { code := 0x0E05, auth := authRead, params := [may tOffset] } true r (fun b s =>
    let from_ := num tOffset b
    let item (e : TrigLog) : Bytes := toLe 4 e.die ++ toLe 1 e.kind ++ toLe 1 e.index ++ toLe 2 e.serial ++ shortStamp e.stamp ++ toLe 1 (b2n e.setStop) ++ zeros 3
    (readout r.version [stBytes 0 (fullStamp (s.trc.stopAt.getD 0)), stU32 1 (stopState s)] ((s.trc.log.drop from_).map item) (from_ + ·), s)) s
def execTrcGetTriggers (r : Request) (s : State) : Host.Outcome State Fault Refusal := .next (finish 0x0E05 r (trcGetTriggers r (begin_ r.after s)))

/-- TRC.READ (R285). -/
def trcRead (r : Request) (s : State) : Reply × State :=
  command { code := 0x0E06, auth := authRead, params := [may tOffset] } true r (fun b s =>
    if s.trc.set.mode != trcLocal then (refuse stState, s)
    else (readout r.version [] ((s.trc.queue.drop (num tOffset b)).map (chunkBody · s)) (num tOffset b + ·), s)) s
def execTrcRead (r : Request) (s : State) : Host.Outcome State Fault Refusal := .next (finish 0x0E06 r (trcRead r (begin_ r.after s)))

/-- Arrival time of a history entry. -/
def arrivalOf (e : Bytes) : Nat := rd e 0 8 * secUnit + rd e 8 4 * nsUnit

/-- TRC.READ_HISTORY: by die ID (UNIT), source (INDEX) and arrival window (two TIMEs), from a position (OFFSET). -/
def trcReadHistory (r : Request) (s : State) : Reply × State :=
  command { code := 0x0E07, auth := authRead, params := [mayMany tTime 2, may tIndex, may tUnit, may tOffset] } s.build.hub r (fun b s =>
    let ts := (vals tTime b).map stampTime
    let pass (e : Bytes) : Bool :=
      (match num? tUnit b with | some u => rd e 20 4 == u | none => true) && (match num? tIndex b with | some i => byteAt e 16 == i | none => true) &&
      (match ts[0]? with | some t => decide (t ≤ arrivalOf e) | none => true) && (match ts[1]? with | some t => decide (arrivalOf e ≤ t) | none => true)
    if (vals tTime b).any (!stampOk ·) then (refuse stRange, s) else if !storeUsable s then (refuse stState, s) else
    let hits := (s.trc.history.zipIdx.drop (num tOffset b)).filter fun p => pass p.1
    (readout r.version [] (hits.map (·.1)) (fun n => ((hits[n]?).map (·.2)).getD s.trc.history.length), s)) s
def execTrcReadHistory (r : Request) (s : State) : Host.Outcome State Fault Refusal := .next (finish 0x0E07 r (trcReadHistory r (begin_ r.after s)))

/-- TRC.SET_HISTORY (R288, R289). -/
def trcSetHistory (r : Request) (s : State) : Reply × State :=
  command { code := 0x0E08, params := [must tFrame, mustSetting 0 4] } s.build.hub r (fun b s =>
    let gb := (set? 0 b).getD 0
    if s.trc.stopped || !storeUsable s then (refuse stState, s)
    else if gb == 0 || gb > 720 then (refuse stRange, s)
    else defer 0x0E08 0 (num tFrame b) (.history gb) s) s
def execTrcSetHistory (r : Request) (s : State) : Host.Outcome State Fault Refusal := .next (finish 0x0E08 r (trcSetHistory r (begin_ r.after s)))

/-- The region's window at the rate of what it holds, in ns: its size over the fill, times the span of the fill. -/
def historyWindow (s : State) : Nat :=
  let fill := sumN (s.trc.history.map (·.length))
  let first := (s.trc.history.head?.map arrivalOf).getD 0
  let last := (s.trc.history.getLast?.map arrivalOf).getD 0
  if fill == 0 then 0 else s.trc.histSize * 1000000000 * ((last - first) / nsUnit) / fill

/-- TRC.GET_STATS: region size with its pending change, fill and window; per down door, messages admitted, discarded and refused
frozen, and DROP counts stored. -/
def trcGetStats (r : Request) (s : State) : Reply × State :=
  command { code := 0x0E09, auth := authRead, params := [may tOffset] } s.build.hub r (fun b s =>
    let pend := (pendOf 0x0E08 0 s).toList.map fun p => match p.change with
      | .history g => pending_ p.frame [setU32 0 g]
      | _ => pending_ p.frame []
    let doors := (List.range s.net.doors.length).filter fun d => (doorAt d s).dir == 1
    let item (d : Nat) : Bytes :=
      let x := ingressAt d s
      toLe 4 d ++ toLe 8 x.admitted ++ toLe 8 x.discarded ++ toLe 8 x.frozen ++ toLe 8 x.stored
    (readout r.version ([setU32 0 s.trc.histSize] ++ pend ++ [stU64 0 (sumN (s.trc.history.map (·.length))), stU64 1 (historyWindow s)])
      ((doors.drop (num tOffset b)).map item) (num tOffset b + ·), s)) s
def execTrcGetStats (r : Request) (s : State) : Host.Outcome State Fault Refusal := .next (finish 0x0E09 r (trcGetStats r (begin_ r.after s)))

end Sys2Proof.Machine
end

