-- ==== Sys2Proof/Machine/Shutter.lean ====
section
/-! DEFINITION. The Shutter (R305 to R324, R327, R328): stop requests, timed cuts and their outcomes, channel state,
scan-out and images, resume, and their SHUTTER commands. Hangs stand in Dump.lean. -/
namespace Sys2Proof.Machine

/-! ### States and causes (Tables SHT-1 to SHT-3) -/
def shIdle : Nat := 0
def shArmed : Nat := 1
def shStopping : Nat := 2
def shStopped : Nat := 3
def shScanning : Nat := 4
def shScanned : Nat := 5
def shHeld : Nat := 6
def shResuming : Nat := 7

def causeHost : Nat := 0
def causeNetwork : Nat := 1
def causeWatch : Nat := 2
def causeHang : Nat := 3
def causeTimed : Nat := 4

/-- Least lead of a stop or resume instant (R311), and the lead below which a die unit is late (R312). -/
def leadUnits : Nat := 200000 * nsUnit
def lateUnits : Nat := 20000 * nsUnit

def setSht (f : Shutter → Shutter) (s : State) : State := { s with sht := f s.sht }
def setRegion (i : Nat) (f : Region → Region) (s : State) : State :=
  setSht (fun x => { x with regions := x.regions.map fun r => if r.index == i then f r else r }) s
def regionOf (i : Nat) (s : State) : Option Region := s.sht.regions.find? (·.index == i)

/-! ### Cut outcomes (R312) -/

/-- A cut as a command message with BROADCAST set (R312). The layout of its body is this model's. -/
def cutBody (c : CutArm) : Bytes :=
  let st (t : Stamp) : Bytes := toLe 8 t.sec ++ toLe 4 t.ns ++ toLe 2 t.sub ++ zeros 2
  zeros 8 ++ toLe 1 c.op ++ toLe 1 c.mode ++ toLe 1 (b2n c.resume.isSome) ++ zeros 1 ++ toLe 4 c.serial.toNat ++ st c.stop ++
    (match c.resume with | some t => st t | none => zeros 16)

/-- The cut that such a body holds. -/
def readCut (b : Bytes) : Option CutArm :=
  let st (o : Nat) : Stamp := ⟨rd b o 8, bits (rd b (o + 8) 4) 0 30, rd b (o + 12) 2⟩
  if b.length != 48 || byteAt b 8 > 2 || byteAt b 9 > 2 then none
  else some { op := byteAt b 8, serial := BitVec.ofNat 32 (rd b 12 4), stop := st 16, mode := byteAt b 9, resume := if byteAt b 10 == 1 then some (st 32) else none }

/-- A report of outcome counts for a cut serial, in a reply message with BROADCAST set; the layout is this model's. -/
def reportMsg (serial : Word) (counts : List Nat) : Msg :=
  { kind := 2, type := 0x21, flags := 2, body := zeros 8 ++ toLe 4 serial.toNat ++ counts.flatMap (toLe 4) }

def oneOutcome (code : Nat) : List Nat := (List.range 10).map fun i => b2n (i == code)

/-- A die unit reports an outcome, now or once its door is up (R312). -/
def reportOutcome (serial : Word) (code : Nat) (s : State) : State :=
  if serial == 0 then s
  else if liveAt 0 s then sendMsg 0 (reportMsg serial (oneOutcome code)) s
  else setSht (fun x => { x with outcomeDue := some (serial, code) }) s

/-- The die door is up: a waiting outcome leaves, or that of the arm that stands, which a new tray hub does not know (Table SHT-9). -/
def sendOutcomeDue (s : State) : State :=
  match s.sht.outcomeDue, s.sht.arm with
  | some (k, c), _ => sendMsg 0 (reportMsg k (oneOutcome c)) (setSht (fun x => { x with outcomeDue := none }) s)
  | none, some a => if s.sht.state == shArmed then reportOutcome a.serial 4 s else s
  | none, none => s

/-! ### Scans (R318 to R322) -/

/-- A segment is skipped (R319). -/
def segSkipped (mode : Nat) (g : Segment) (s : State) : Bool :=
  (g.op != 0 && mode == 1 && !g.recirc) ||
  match regionOf g.region s with
  | none => g.op != 0
  | some r => r.noAck || (g.op == 1 && !r.stopped)

def segments (s : State) : List Segment := match s.sht.active with | some p => p.segments | none => []
def scanTarget (s : State) : Nat := (s.sht.active.map (·.target)).getD 0

/-- Region and channel entries of an image (R322): of a timed stop's region the wait count, of any other n. -/
def regionEntry (r : Region) : Bytes :=
  toLe 1 r.index ++ toLe 1 (r.clock + 4 * b2n r.noAck + 8 * b2n r.late) ++ toLe 2 (if r.wait > 0 then r.wait else r.n) ++ toLe 6 r.stopCycle ++ zeros 2 ++
    toLeS 4 r.offset
def channelEntry (p : Channel × Nat) : Bytes := toLe 1 p.2 ++ toLe 1 p.1.status ++ toLe 2 p.1.flits ++ toLeS 4 p.1.offset ++ zeros 8
def imageEntryList (s : State) : List Bytes := s.sht.regions.map regionEntry ++ s.sht.channels.zipIdx.map channelEntry
def imageEntries (s : State) : Bytes := (imageEntryList s).flatten

/-- The image head (Table SHT-7). -/
def imageHead (kind mode flags serial : Nat) (cut : Word) (ref frame : Nat) (tag : Word) (nr nc cause payload smear : Nat) (s : State) : Bytes :=
  toLe 1 kind ++ toLe 1 mode ++ toLe 2 flags ++ toLe 4 (dieId s) ++ toLe 4 serial ++ toLe 4 cut.toNat ++ shortStamp ref ++
    toLe 4 ((s.sht.active.map (·.version)).getD 0) ++ toLe 8 frame ++ toLe 4 tag.toNat ++ toLe 2 nr ++ toLe 2 nc ++ toLe 4 cause ++ toLe 8 payload ++ toLe 4 smear

/-- The head of the last stop's image; its payload length is set when that is known. -/
def stopHead (flags payload : Nat) (s : State) : Bytes :=
  let r := s.sht.stopRec
  imageHead 1 r.mode flags r.serial r.cut r.ref r.frame r.tag s.sht.regions.length s.sht.channels.length r.cause payload r.smear s

/-- Worst-case size that a scan reserves (R320): head and entries, and the capture bits stored raw. -/
def worstImage (s : State) : Nat :=
  let cap := (((s.sht.active.map (·.capture)).getD 0) + 7) / 8
  64 + 16 * s.sht.regions.length + 16 * s.sht.channels.length + (if scanTarget s == 0 then cap else (cap + 4095) / 4096 * 4104)

def scanTck (s : State) : Nat := (s.sht.active.map (·.tck)).getD 0

/-- The lanes begin to shift the scan that was asked for. -/
def shiftScan (s : State) : State :=
  let mode := s.sht.wantScan
  State.emit (.scanStart mode (scanTck s)) (setSht (fun x => { x with
    state := shScanning, reserving := none, aborting := false, imageLost := false, scanStatus := 0, mode := mode, wantScan := 0, scan := {}, scanRaw := []
    hostHead := none, hostRead := 0, stopRec := { x.stopRec with mode := mode } }) s)

/-- A scan asks for room in the image area first, or sends to the host door without a linked die door (R320, R321). -/
def beginScan (mode : Nat) (s : State) : State :=
  let s := setSht (fun x => { x with wantScan := mode }) s
  if liveAt 0 s then
    let item := toLe 4 s.sht.stopRec.serial ++ zeros 4 ++ toLe 8 (worstImage s)
    let (n, s) := nextSerial 3 (setSht (fun x => { x with reserving := some x.stopRec.serial, toHost := false }) s)
    sendBulk 0 3 n item s
  else if !traceBanksOn s then setSht (fun x => { x with imageFail := true, scanStatus := 2, wantScan := 0 }) s
  else shiftScan (setSht (fun x => { x with toHost := true }) s)

/-! ### The die clock (R313, R452) -/

/-- A die cycle in units of 2^-32 ns, and `n` die cycles in 1/16 ns to the nearest. -/
def dieCycle (s : State) : Nat := 1000000 * nsUnit / max s.sht.clockKHz 1
def dieSixteenths (n : Nat) (s : State) : Nat := (32000000 * n + s.sht.clockKHz) / (2 * max s.sht.clockKHz 1)

/-- The first die-clock edge at or after an instant lies this far behind it, in 1/16 ns: the phase that the block measures. -/
def diePhase (t : Nat) (s : State) : Nat := Config.diePhase t % max (dieSixteenths 1 s) 1

/-- The wait count with which a request on the block clock edge before `t` acts on the first die-clock edge at or after `t`: the die-clock
edges from the request edge on that come before it. -/
def waitCount (t : Nat) (s : State) : Nat :=
  let request := s.time.now - cycleUnits s
  (t + diePhase t s * (nsUnit / 16) - request - 1) / dieCycle s

/-! ### Resume (R323) -/

/-- Every stopped region is released, at once or at an instant; the next tick brings RECOVERY and SYNC START. -/
def release (t : Option Nat) (s : State) : State :=
  let rs := (s.sht.regions.filter (·.stopped)).map (·.index)
  let wait := match t with | some t => waitCount t s | none => 0
  let s := { s with glen := { s.glen with recoverDue := true } }
  let s := setSht (fun x => { x with state := if rs.isEmpty then shIdle else shResuming, resumeAt := none, reserving := none, wantScan := 0 }) s
  State.emits (rs.map fun r => .releaseRegion r wait) s

/-- A resume with or without an instant. -/
def resume (t : Option Nat) (s : State) : State :=
  match t with
  | none => release none s
  | some t => setSht (fun x => { x with state := shResuming, resumeAt := some t, reserving := none, wantScan := 0 }) s

/-- A scan has ended, or there is none: a resume instant named in the arm acts now (R323). -/
def afterScan (s : State) : State :=
  if s.sht.stopRec.resume.isSome && (s.sht.state == shStopped || s.sht.state == shScanned) then resume s.sht.stopRec.resume s else s

/-! ### Stops (R308 to R310, R313, R316) -/

/-- Smear (R310): over the regions that were running or stretched. -/
def smearOf (rs : List Region) : Nat :=
  let os := (rs.filter fun r => r.stopped && r.clock < 2).map (·.offset)
  match os with
  | [] => 0
  | o :: r => (r.foldl max o - r.foldl min o).toNat

/-- The stop is complete once every region has stopped or timed out and every channel is closed (R316). -/
def stopProgress (s : State) : State :=
  let x := s.sht
  if x.state != shStopping || x.regions.any (!·.done) || x.channels.any (!·.isClosed) then s else
  let open_ := x.regions.any (·.noAck) || x.channels.any fun c => c.status == 3 || c.status == 4
  let r := { x.stopRec with smear := smearOf x.regions, flags := x.stopRec.flags + 4 * b2n open_ + 16 * b2n (x.regions.any (·.late)) }
  let s := setSht (fun x => { x with state := shStopped, stopEvent := true, stopRec := r }) s
  if x.wantScan != 0 then (let s := beginScan x.wantScan s; if s.sht.state == shStopped && s.sht.reserving.isNone then afterScan s else s) else afterScan s

/-- A run in progress is discarded with no result, and counted as stopped (R242). -/
def dropRuns (s : State) : State :=
  let running := (s.prb.tiles.zipIdx.filter (·.1.run.isSome)).map (·.2)
  let stop (t : Tile) : Tile := if t.run.isSome then { t with run := none, stops := t.stops + 1 } else t
  State.emits (running.map .probeDrop) { s with prb := { s.prb with tiles := s.prb.tiles.map stop } }

/-- Assert the request to a region. -/
def requestRegion (r : Region) (s : State) : State := if r.refused then s else State.emit (.stopRegion r.index r.wait) s

/-- A stop acts: requests go out, trace closes (R296), runs are discarded, and the stop record begins. -/
def startStop (cause : Nat) (cut : Word) (ref mode : Nat) (resume_ : Option Nat) (stepped : Bool) (s : State) : State :=
  let timed := cause == causeTimed && !stepped
  let serial := s.sht.stopSerial + 1
  let rec_ : StopRec := { serial := serial, cut := cut, ref := ref, frame := curFrame s, tag := s.frame.tag, cause := cause
                          flags := 8 * b2n (s.time.lock != 1) + 32 * b2n stepped, resume := resume_, edge := s.pwr.cycles }
  let wait := if timed then waitCount ref s else 0
  let region (r : Region) : Region := { index := r.index, latency := r.latency, refused := r.refused, done := r.refused, noAck := r.refused, wait := wait }
  let channel (c : Channel) : Channel := { region := c.region, link := c.link, capacity := c.capacity }
  let s := dropRuns (closeAll s)
  let s := setSht (fun x => { x with state := shStopping, stopSerial := serial, stopRec := rec_, wantScan := mode, arm := none, resumeAt := none, reserving := none
                                     regions := x.regions.map region, channels := x.channels.map channel }) s
  stopProgress (s.sht.regions.foldl (fun s r => requestRegion r s) s)

/-- The request edge: the next block clock edge (R309). -/
def requestEdge (s : State) : Nat := s.time.now + cycleUnits s

/-- A stop was requested on this block clock edge. -/
def sameEdgeStop (s : State) : Bool :=
  (s.sht.state == shStopping || s.sht.state == shStopped) && s.sht.stopSerial > 0 && s.sht.stopRec.edge == s.pwr.cycles

/-- A further request of the same edge (R308): the stop's cause is the lowest, and the scan mode is that cause's. A timed stop gives
way to it as in ARMED. -/
def joinStop (cause mode : Nat) (s : State) : State :=
  let r := s.sht.stopRec
  if r.cause ≤ cause then s else
  let s := if r.cause == causeTimed then reportOutcome r.cut 6 s else s
  setSht (fun x => { x with stopRec := { x.stopRec with cause := cause }, wantScan := if x.state == shStopping then mode else x.wantScan }) s

/-- An immediate request (R308): the code that refuses it, or its stop. -/
def immediateStop (cause mode : Nat) (s : State) : Option Nat × State :=
  if !bit s.sht.sources cause then (some stPermit, s)
  else if sameEdgeStop s then (none, joinStop cause mode s)
  else if s.sht.state != shIdle && s.sht.state != shArmed then (some stState, s)
  else
    let s := match s.sht.arm with
      | some a => if s.sht.state == shArmed then reportOutcome a.serial 6 s else s
      | none => s
    (none, startStop cause 0 (requestEdge s) mode none false s)

/-- Time has changed other than by rate while the unit is ARMED (R314): a step past T stops the die at once. -/
def shutterStep (s : State) : State :=
  match s.sht.arm with
  | some a =>
    if s.sht.state == shArmed && s.time.now > a.at_ then
      reportOutcome a.serial 9 (startStop causeTimed a.serial (requestEdge s) a.mode a.resume true s)
    else s
  | none => s

/-- TIMED_STOP_INSTANT (R313). -/
def execTimedStopInstant (s : State) : Host.Outcome State Fault Refusal :=
  let s := s.fresh
  match s.sht.arm with
  | none => .next s
  | some a =>
    if !working s || s.sht.state != shArmed then .next s else
    let s := advanceTo a.at_ s
    .next (startStop causeTimed a.serial a.at_ a.mode a.resume false (reportOutcome a.serial (if s.time.lock == 1 then 7 else 8) s))

/-- Later than 8 die cycles: by n for an immediate stop, by the offset from T for a timed one (R309, R313). -/
def regionLate (n : Nat) (offset : Int) (s : State) : Bool :=
  if s.sht.stopRec.cause == causeTimed && !bit s.sht.stopRec.flags 5 then decide (offset > dieSixteenths 8 s) else n > 8

/-- A region's stop instant minus the reference stamp, in 1/16 ns (R309, R313): n die cycles from the request edge, or, at a timed stop,
the first die-clock edge at or after T and the die cycles past the wait count. Of a gated region, and of one that was stretched at T, it is
what the port's clock states give. -/
def stopOffset (clock n : Nat) (seen : Int) (r : Region) (s : State) : Int :=
  let timed := s.sht.stopRec.cause == causeTimed && !bit s.sht.stopRec.flags 5
  if clock ≥ 2 || (timed && clock == 1) then seen
  else if timed then ((diePhase s.sht.stopRec.ref s + dieSixteenths (n - r.wait) s : Nat) : Int)
  else ((dieSixteenths n s : Nat) : Int)

/-- REGION_STOP_ACK (R309, R310). -/
def execRegionStopAck (region n stopCycle clock : Nat) (offset : Int) (s : State) : Host.Outcome State Fault Refusal :=
  let s := s.fresh
  match regionOf region s with
  | none => .next s
  | some r =>
    if s.sht.state != shStopping || r.done then .next s else
    let gated := clock == 2
    let offset := stopOffset clock n offset r s
    let late := !gated && regionLate n offset s
    .next (stopProgress (setRegion region (fun r => { r with done := true, stopped := true, clock := clock, n := if gated then 0 else n, wait := if gated then 0 else r.wait, stopCycle := stopCycle
                                                             offset := offset, late := late }) s))

/-- REGION_ACK_TIMEOUT (R309): 1 µs after the request. -/
def execRegionAckTimeout (region : Nat) (s : State) : Host.Outcome State Fault Refusal :=
  let s := s.fresh
  match regionOf region s with
  | none => .next s
  | some r =>
    if s.sht.state != shStopping || r.done then .next s else
    .next (stopProgress (setRegion region (fun r => { r with done := true, noAck := true }) (advanceTo (s.sht.stopRec.ref + 1000 * nsUnit) s)))

/-- CHANNEL_CLOSED (R316). -/
def execChannelClosed (channel status flits : Nat) (offset : Int) (s : State) : Host.Outcome State Fault Refusal :=
  let s := s.fresh
  match s.sht.channels[channel]? with
  | none => .next s
  | some c =>
    if s.sht.state != shStopping || c.isClosed || status > 4 then .next s else
    let shut (c : Channel) : Channel := { c with isClosed := true, status := status, flits := flits, offset := offset }
    .next (stopProgress (setSht (fun x => { x with channels := modifyAt channel shut x.channels }) s))

/-! ### Scan end and image -/

/-- An image is lost or refused (R320, R321). -/
def imageFailed (status : Nat) (s : State) : State := setSht (fun x => { x with imageFail := true, scanStatus := status, building := none }) s

/-- The image is whole: its payload length is set, and it leaves as a bulk transfer. -/
def sendImage (sub : Nat) (head entries payload : Bytes) (s : State) : State :=
  let img := splice head 52 (toLe 8 (entries.length + payload.length)) ++ entries ++ payload
  let (n, s) := nextSerial sub s
  sendBulk 0 sub n img s

/-- The scan image's codec stream has ended. -/
def scanStreamEnded (s : State) : State :=
  match s.sht.building with
  | none => s
  | some (h, e) =>
    if s.sht.toHost then setSht (fun x => { x with building := none }) s
    else if s.sht.imageLost then imageFailed 2 s
    else sendImage 1 h e (ctxAt 0 s).output (setSht (fun x => { x with building := none }) s)

/-- Captured bytes of a segment. -/
def segBytes (g : Segment) : Nat := (g.length + 7) / 8

/-- The SELECT vector of a segment (R318): the first bit shifted in is bit 0 of its first byte. -/
def selectVector (g : Segment) (s : State) : Bytes := slice ((s.sht.active.map (·.image)).getD []) g.vector (segBytes g)

/-- A run of the lanes: how far they come, the bytes that they bring and what they shift. -/
structure LaneRun where
  scan : Scan
  bytes : Bytes := []
  shifts : List Output := []
  ended : Bool := false

/-- A segment is behind the lanes: it shifted, or it was skipped. -/
def LaneRun.shift (g : Segment) (tdi : Bytes) (a : LaneRun) : LaneRun :=
  { a with scan := { a.scan with seg := a.scan.seg + 1, part := 0, lengths := a.scan.lengths ++ [g.length] }
           shifts := a.shifts ++ [.scanShift g.lane g.op g.length tdi] }
def LaneRun.skip (a : LaneRun) : LaneRun := { a with scan := { a.scan with seg := a.scan.seg + 1, part := 0, lengths := a.scan.lengths ++ [0] } }

/-- The lanes run the program's segments in its order (R319), while the output has room for what they bring (R321): a SELECT shifts its
vector in, a capture shifts its own output back in, and zeros in a destructive scan. `outs` are the captures' outputs. An aborted scan ends
behind the segments that its outputs complete. -/
def runLanes (mode : Nat) (abort : Bool) (s : State) : List Segment → List Bytes → Nat → LaneRun → LaneRun
  | [], _, _, a => { a with ended := true }
  | g :: r, outs, room, a =>
    if segSkipped mode g s then runLanes mode abort s r outs room a.skip
    else if g.op == 0 then runLanes mode abort s r outs room (a.shift g (selectVector g s))
    else if abort && outs.isEmpty then { a with ended := true }
    else
      let data := fit (segBytes g) (outs.headD [])
      let left := data.drop a.scan.part
      if left.length ≤ room then
        runLanes mode abort s r outs.tail (room - left.length) (LaneRun.shift g (if mode == 2 then zeros (segBytes g) else data) { a with bytes := a.bytes ++ left })
      else { a with bytes := a.bytes ++ left.take room, scan := { a.scan with part := a.scan.part + room } }

/-- The program's captures that run. -/
def captures (gs : List Segment) (s : State) : List Segment := gs.filter fun g => g.op != 0 && !segSkipped s.sht.mode g s

/-- Buffers of the trace buffer's free chunks (R281, R321). -/
def chunkBuffers (n : Nat) : List (Nat × Nat) := (List.range n).map fun i => (24 * 131072 + 1024 * (chunkTotal - 1 - i), 1024)

/-- The image's codec stream opens with the first segment (R319). -/
def openStream (s : State) : State :=
  if s.sht.scan.started then s else
  let s := setSht (fun x => { x with scan := { x.scan with started := true } }) s
  if scanTarget s == 0 then s else
  let job (c : Ctx) : Ctx := { freshJob false (scanTarget s) 0 false [] c with isEnd := false, more := true }
  if s.sht.toHost then giveOutput 0 (chunkBuffers (freeChunks s)) (setCtx 0 job s) else jobOn 0 job s

/-- Bytes that the lanes may bring now (R321): what the codec's input takes, or the free chunks without codec. A lost image has room, for its
output is discarded; over a linked door the image without codec has the room that was reserved. -/
def laneRoom (s : State) : Nat :=
  if s.sht.imageLost then 2 ^ 33
  else if scanTarget s != 0 then chainBytes - (ctxAt 0 s).feed.length
  else if s.sht.toHost then 1024 * freeChunks s - (if s.sht.hostHead.isNone then 64 + (imageEntries s).length else 0)
  else 2 ^ 33

/-- What the lanes bring enters the image, unless it is lost. -/
def takeScan (b : Bytes) (s : State) : State :=
  if s.sht.imageLost then s
  else if scanTarget s == 0 then setSht (fun x => { x with scanRaw := x.scanRaw ++ b }) s
  else setCtx 0 (fun c => { c with feed := c.feed ++ b }) s

/-- The scan has ended (R319, R321): the image's flags are known, and it leaves once its stream has ended. -/
def scanDone (s : State) : State :=
  let skipped := (segments s).any fun g => segSkipped s.sht.mode g s
  let flags := s.sht.stopRec.flags + b2n s.sht.aborting + 2 * b2n skipped
  let head := stopHead flags 0 s
  let entries := imageEntries s
  let s := setSht (fun x => { x with state := if x.mode == 2 then shHeld else shScanned, aborting := false, scan := { x.scan with flags := flags } }) s
  let s := setCtx 0 (fun c => if scanTarget s == 0 then c else { c with isEnd := true, more := false }) s
  let s :=
    if scanTarget s != 0 then setSht (fun x => { x with building := some (head, entries) }) s
    else if s.sht.toHost then s
    else if s.sht.imageLost then imageFailed 2 s
    else sendImage 1 head entries s.sht.scanRaw s
  afterScan s

/-- The segments that the lanes complete, with their outputs (R319). -/
def scanOn (output : List Bytes) (s : State) : State :=
  let s := openStream s
  let past := (captures ((segments s).take s.sht.scan.seg) s).length
  let a := runLanes s.sht.mode s.sht.aborting s ((segments s).drop s.sht.scan.seg) (output.drop past) (laneRoom s) { scan := s.sht.scan }
  let s := State.emits a.shifts (takeScan a.bytes (setSht (fun x => { x with scan := a.scan }) s))
  if a.ended then scanDone s else s

/-- RESERVE_REPLY_ARRIVAL (R320): the reply to a reservation that a resume has overtaken starts nothing. -/
def execReserveReplyArrival (item : Bytes) (s : State) : Host.Outcome State Fault Refusal :=
  let s := s.fresh
  if s.build.hub || !carries 0 s then .next s
  else if item.length != 16 then .next (malformedOn 0 s)
  else if s.sht.reserving != some (rd item 0 4) || (s.sht.state != shStopped && s.sht.state != shScanned) then .next s
  else if rd item 4 2 == stOk then .next (shiftScan s)
  else .next (afterScan (imageFailed 1 (setSht (fun x => { x with reserving := none, wantScan := 0 }) s)))

/-- A FRESH hello on the die door during an image loses the image (R321). -/
def imageFresh (s : State) : State :=
  let sending := (doorAt 0 s).bulkTx.any (·.1 == 1)
  let keep (p : Msg × Nat) : Bool := !(p.1.type == 0x31 && (bulkKey p.1).1 == 1)
  let s := setDoor 0 (fun x => { x with bulkTx := x.bulkTx.filter (·.1 != 1), sendQ := x.sendQ.filter keep, inFlight := x.inFlight.filter keep }) s
  let s := if sending then imageFailed 2 s else s
  if (s.sht.state == shScanning || s.sht.building.isSome) && !s.sht.toHost then setSht (fun x => { x with imageLost := true }) s else s

/-! ### Resume and restart (R323, R324) -/

/-- RESUME_INSTANT (R323). -/
def execResumeInstant (s : State) : Host.Outcome State Fault Refusal :=
  let s := s.fresh
  match s.sht.resumeAt with
  | none => .next s
  | some t => if !working s || s.sht.state != shResuming then .next s else .next (release (some t) (advanceTo t s))

/-- REGION_RELEASED (R306). -/
def execRegionReleased (region : Nat) (s : State) : Host.Outcome State Fault Refusal :=
  let s := s.fresh
  if s.sht.state != shResuming || s.sht.resumeAt.isSome then .next s else
  let s := setRegion region (fun r => { r with stopped := false }) s
  .next (if s.sht.regions.any (·.stopped) then s else setSht (fun x => { x with state := shIdle }) s)

/-- REGION_RESET_PULSE (R324). -/
def execRegionResetPulse (region : Nat) (s : State) : Host.Outcome State Fault Refusal :=
  let s := s.fresh
  if s.sht.state != shHeld then .next s else
  let s := setRegion region (fun r => { r with stopped := false }) s
  .next (if s.sht.regions.any (·.stopped) then s else setSht (fun x => { x with state := shIdle }) s)

/-! ### Timed cuts (R311 to R314) -/

/-- A die unit checks a cut at its door (R312). -/
def dieCut (c : CutArm) (s : State) : State :=
  let t := c.stop.sec * secUnit + c.stop.ns * nsUnit + c.stop.sub * 2 ^ 16
  let stampOf (x : Stamp) : Nat := x.sec * secUnit + x.ns * nsUnit + x.sub * 2 ^ 16
  match c.op with
  | 0 =>
    if !bit s.sht.sources causeTimed then reportOutcome c.serial 1 s
    else if s.sht.state != shIdle then reportOutcome c.serial 2 s
    else if t < s.time.now + lateUnits then reportOutcome c.serial 3 s
    else reportOutcome c.serial 4 (setSht (fun x => { x with state := shArmed, arm := some ⟨c.serial, t, c.mode, c.resume.map stampOf⟩ }) s)
  | 1 =>
    (match s.sht.arm with
     | some a => if s.sht.state == shArmed && a.serial == c.serial && s.time.now < a.at_ then
         reportOutcome c.serial 5 (setSht (fun x => { x with state := shIdle, arm := none }) s) else s
     | none => s)
  | _ =>
    if (s.sht.state == shStopped || s.sht.state == shScanned) && s.sht.stopRec.cut == c.serial then resume (c.resume.map stampOf) s else s

/-- One live door per child (R312, R166): a tray hub's die doors in the slot mask; else each tray or pod once, plane A first. -/
def cutDoors (slots : Option (List Nat)) (s : State) : List Nat :=
  let down := s.net.doors.zipIdx.filter fun p => live p.1 && p.1.dir == 1
  if isTray s then
    (down.filter fun p => !peerIsHub p.1 && (match slots with | some l => l.contains (slotOf (peerDie p.1)) | none => true)).map (·.2)
  else
    let hubs := down.filter fun p => peerIsHub p.1
    let first (p : Door × Nat) : Bool := !hubs.any fun q => bits (peerHub q.1) 0 11 == bits (peerHub p.1) 0 11 &&
      (bits (peerHub q.1) 13 1 < bits (peerHub p.1) 13 1 || (bits (peerHub q.1) 13 1 == bits (peerHub p.1) 13 1 && q.2 < p.2))
    (hubs.filter first).map (·.2)

def forwardCut (c : CutArm) (doors : List Nat) (s : State) : State :=
  doors.foldl (fun s d => sendMsg d { kind := 2, type := 0x20, flags := 2, body := cutBody c } s) s

/-- Slots that a tray hub cannot reach: an enabled die door in the mask that carries nothing. -/
def unreached (slots : Option (List Nat)) (s : State) : List (Nat × Nat) :=
  let idle := s.net.doors.zipIdx.filter fun p => p.1.dir == 1 && p.1.enabled && !live p.1
  let slot (p : Door × Nat) : Nat := p.1.slot.getD p.2
  ((idle.filter fun p => match slots with | some l => l.contains (slot p) | none => true).map fun p => (slot p, 0))

/-- A hub takes a cut of its subtree: remembers it, forwards it, and counts the slots it cannot reach. -/
def hubArm (c : CutArm) (t : Nat) (slots : Option (List Nat)) (via : List Nat) (s : State) : Nat × State :=
  let ds := cutDoors slots s
  let cut : Cut := { serial := c.serial, at_ := t, outcomes := if isTray s then unreached slots s else [], via := via }
  (ds.length, forwardCut c ds (setSht (fun x => { x with cuts := lastN 16 (x.cuts ++ [cut]) }) s))

/-- Counts per outcome that a hub has gathered for a cut. -/
def cutCounts (c : Cut) (s : State) : List Nat :=
  (List.range 10).map fun k =>
    if isTray s then (c.outcomes.filter fun p => p.2 == k).length
    else sumN ((c.outcomes.filter fun p => p.1 % 16 == k).map (·.2))

/-- A hub returns what it has gathered by every live door that the cut came by (R312), so that the unit that armed it gets the counts; by its
uplink when there is none. -/
def sendCounts (serial : Word) (s : State) : State :=
  match s.sht.cuts.find? (·.serial == serial) with
  | none => s
  | some c =>
    if bits serial.toNat 16 16 == hubAddr s then s else
    let ds := c.via.filter (liveAt · s)
    (if ds.isEmpty then (uplink s).toList else ds).foldl (fun s d => sendMsg d (reportMsg serial (cutCounts c s)) s) s

/-- CUT_ARRIVAL (R312): a die unit answers it; a hub acts on a serial once and forwards. A tray hub reports the slots that it cannot reach. -/
def takeCut (door : Nat) (c : CutArm) (s : State) : State :=
  let t := c.stop.sec * secUnit + c.stop.ns * nsUnit + c.stop.sub * 2 ^ 16
  if !s.build.hub then dieCut c s
  else if c.op != 0 then forwardCut c (cutDoors none s) s
  else if s.sht.cuts.any (·.serial == c.serial) then
    setSht (fun x => { x with cuts := x.cuts.map fun k => if k.serial == c.serial then { k with via := dedup (k.via ++ [door]) } else k }) s
  else
    let s := (hubArm c t none [door] s).2
    if isTray s && !(unreached none s).isEmpty then sendCounts c.serial s else s
def execCutArrival (after door : Nat) (cut : CutArm) (s : State) : Host.Outcome State Fault Refusal :=
  let s := begin_ after s
  if !carries door s then .next s else .next (takeCut door cut s)

/-- A report reaches a hub: a tray hub keeps a slot's latest outcome, the others the counts per door; it passes upward. -/
def takeReport (door : Nat) (serial : Word) (counts : List Nat) (s : State) : State :=
  let x := doorAt door s
  let blank : Cut := { serial := serial, at_ := 0, outcomes := [] }
  let s := if s.sht.cuts.any (·.serial == serial) then s else setSht (fun y => { y with cuts := lastN 16 (y.cuts ++ [blank]) }) s
  let note (c : Cut) : Cut :=
    if c.serial != serial then c
    else if isTray s then { c with outcomes := tput (slotOf (peerDie x)) ((findIdx (fun (n : Nat) => n > 0) counts).getD 0) c.outcomes }
    else { c with outcomes := (counts.zipIdx.foldl (fun l p => tput (16 * door + p.2) p.1 l) c.outcomes) }
  sendCounts serial (setSht (fun y => { y with cuts := y.cuts.map note }) s)

/-- CUT_OUTCOME_REPORT (R312). -/
def execCutOutcomeReport (door : Nat) (serial : Word) (counts : List Nat) (s : State) : Host.Outcome State Fault Refusal :=
  let s := s.fresh
  if !s.build.hub || !carries door s then .next s
  else if counts.length != 10 then .next (malformedOn door s)
  else .next (takeReport door serial counts s)

/-! ### The tray hub's image area (R320) -/

def imageBytes (s : State) : Nat := sumN (s.sht.images.map (·.bytes.length))
def reservedBytes (s : State) : Nat := sumN (s.sht.reserved.map (·.2.2))
def areaBytes (s : State) : Nat := s.sht.area * 1000000000

/-- RESERVE_ARRIVAL (R320): OK and the room, or NO_SPACE. -/
def execReserveArrival (door : Nat) (item : Bytes) (s : State) : Host.Outcome State Fault Refusal :=
  let s := s.fresh
  if !isTray s || !carries door s then .next s
  else if item.length != 16 then .next (malformedOn door s)
  else
    let die := peerDie (doorAt door s)
    let serial := rd item 0 4
    let size := rd item 8 8
    let others := s.sht.reserved.filter fun r => !(r.1 == die && r.2.1 == serial)
    let ok := storeUsable s && imageBytes s + sumN (others.map (·.2.2)) + size ≤ areaBytes s
    let s := if ok then setSht (fun x => { x with reserved := others ++ [(die, serial, size)] }) s else s
    let (n, s) := nextSerial 4 s
    .next (sendBulk door 4 n (toLe 4 serial ++ toLe 2 (if ok then stOk else stSpace) ++ zeros 10) s)

/-- An image that has arrived is kept when the area holds it. -/
def storeImage (door kind : Nat) (item : Bytes) (s : State) : State :=
  if item.length < 64 || byteAt item 0 != kind then malformedOn door s else
  let die := peerDie (doorAt door s)
  let serial := rd item 8 4
  let s := setSht (fun x => { x with reserved := x.reserved.filter fun r => !(kind == 1 && r.1 == die && r.2.1 == serial) }) s
  if storeUsable s && imageBytes s + reservedBytes s + item.length ≤ areaBytes s then
    setSht (fun x => { x with images := x.images ++ [⟨die, serial, kind, item⟩] }) s
  else s

/-- SCAN_IMAGE_ARRIVAL (R320, R322). -/
def execScanImageArrival (door _serial : Nat) (item : Bytes) (s : State) : Host.Outcome State Fault Refusal :=
  let s := s.fresh
  if !isTray s || !carries door s then .next s else .next (storeImage door 1 item s)

/-- HANG_DUMP_ARRIVAL (R326). -/
def execHangDumpArrival (door _serial : Nat) (item : Bytes) (s : State) : Host.Outcome State Fault Refusal :=
  let s := s.fresh
  if !isTray s || !carries door s then .next s else .next (storeImage door 2 item s)

/-! ### Scan programs (R318, R328) -/

def readSegment (b : Bytes) : Segment :=
  { lane := byteAt b 0, op := byteAt b 1, region := byteAt b 2, recirc := bit (byteAt b 3) 0, length := rd b 4 4, vector := rd b 8 4 }

/-- A segment breaks Table SHT-6. -/
def segmentBad (end_ : Nat) (b : Bytes) (s : State) : Bool :=
  let g := readSegment b
  g.lane > 7 || g.op > 2 || byteAt b 3 > 1 || !allZero (slice b 12 4) || g.length == 0 ||
  (if g.op == 0 then g.vector + (g.length + 7) / 8 > end_ else g.vector != 0) ||
  (if g.region == 255 then g.op != 0 else (regionOf g.region s).isNone)

/-- The whole-image checks of R328. -/
def checkProgram (img : Bytes) (s : State) : Except Nat Program :=
  let n := rd img 6 2
  let end_ := img.length - 128
  let segs := (List.range n).map fun i => slice img (64 + 16 * i) 16
  let caps := sumN ((segs.map readSegment).map fun g => if g.op == 0 then 0 else g.length)
  let tck := byteAt img 8
  if !verified 6 img s then .error stSig
  else if img.length > 131072 then .error stSpace
  else if rd img 4 2 != 1 || rd img 20 4 != img.length then .error stFormat
  else if rd img 0 4 == 0 || byteAt img 9 > 2 || !allZero (slice img 10 2) || !allZero (slice img 24 40) || 64 + 16 * n > end_ ||
    segs.any (segmentBad end_ · s) || rd img 12 8 != caps then .error stBadParam
  else if n == 0 || n > 4096 || tck == 0 || tck > 100 || caps > 2 ^ 33 then .error stRange
  else .ok { version := rd img 0 4, tck := tck, target := byteAt img 9, capture := caps, segments := segs.map readSegment, image := img }

/-- SHUTTER.STAGE_PROGRAM (R328). -/
def shutterStageProgram (r : Request) (s : State) : Reply × State :=
  command { code := 0x1009, params := [must tPiece] } (isDie s) r (fun b s =>
    let busy := (pendOf 0x100A 0 s).isSome || s.sht.state == shScanning
    let slot : Slot := { key := 0x1009, limit := 131072, busy := busy, cleared := setSht (fun x => { x with staged := none }) s }
    match takePiece slot r.session b s with
    | .done p s => (p, s)
    | .whole img s =>
      if busy then (refuse stBusy, s) else
      match checkProgram img s with
      | .error e => (refuse e, s)
      | .ok p => (okay [], setSht (fun x => { x with staged := some p }) s)) s
def execShutterStageProgram (r : Request) (s : State) : Host.Outcome State Fault Refusal :=
  .next (finish 0x1009 r (shutterStageProgram r (begin_ r.after s)))

/-- SHUTTER.ACTIVATE_PROGRAM (R328). -/
def shutterActivateProgram (r : Request) (s : State) : Reply × State :=
  command { code := 0x100A, params := [must tFrame] } (isDie s) r (fun b s =>
    if s.sht.staged.isNone then (refuse stState, s) else defer 0x100A 0 (num tFrame b) .program s) s
def execShutterActivateProgram (r : Request) (s : State) : Host.Outcome State Fault Refusal :=
  .next (finish 0x100A r (shutterActivateProgram r (begin_ r.after s)))

/-! ### Commands (Table SHT-11) -/

/-- SHUTTER.SET (R307): SETTING 0 is the set of enabled sources. -/
def shutterSet (r : Request) (s : State) : Reply × State :=
  command { code := 0x1001, params := [must tFrame, mustSetting 0 1] } (isDie s) r (fun b s =>
    if (set? 0 b).getD 0 > 31 then (refuse stBadParam, s) else defer 0x1001 0 (num tFrame b) (.shutSources ((set? 0 b).getD 0)) s) s
def execShutterSet (r : Request) (s : State) : Host.Outcome State Fault Refusal := .next (finish 0x1001 r (shutterSet r (begin_ r.after s)))

/-- SHUTTER.STOP (R308): through the host door its cause is HOST, through a door NETWORK. -/
def shutterStop (r : Request) (s : State) : Reply × State :=
  command { code := 0x1002, params := [must tChoice] } (isDie s) r (fun b s =>
    if choice b > 2 then (refuse stBadParam, s) else
    match immediateStop (if r.path == .host then causeHost else causeNetwork) (choice b) s with
    | (some e, s) => (refuse e, s)
    | (none, s) => (okay [], s)) s
def execShutterStop (r : Request) (s : State) : Host.Outcome State Fault Refusal := .next (finish 0x1002 r (shutterStop r (begin_ r.after s)))

def stampOfBytes (v : Bytes) : Stamp := ⟨rd v 0 8, bits (rd v 8 4) 0 30, rd v 12 2⟩

/-- SHUTTER.ARM_TIMED (R311, R312). -/
def shutterArmTimed (r : Request) (s : State) : Reply × State :=
  command { code := 0x1003, params := [many tTime 2, must tChoice] ++ (if isTray s then [may tMask] else []) } true r (fun b s =>
    let ts := vals tTime b
    let t := stampTime (ts.getD 0 [])
    let res := (ts[1]?).map stampTime
    if choice b > 2 then (refuse stBadParam, s) else if ts.any (!stampOk ·) then (refuse stRange, s)
    else if t < s.time.now + leadUnits || (match res with | some u => decide (u < t + leadUnits) | none => false) then (refuse stRange, s)
    else if isDie s then
      (if !bit s.sht.sources causeTimed then (refuse stPermit, s)
       else if s.sht.state != shIdle then (refuse stState, s)
       else (okay [], setSht (fun x => { x with state := shArmed, arm := some ⟨0, t, choice b, res⟩ }) s))
    else
      let serial : Word := BitVec.ofNat 32 (hubAddr s * 65536 + (s.sht.cutCount + 1) % 65536)
      let s := setSht (fun x => { x with cutCount := x.cutCount + 1 }) s
      let c : CutArm := { op := 0, serial := serial, stop := stampOfBytes (ts.getD 0 []), mode := choice b, resume := (ts[1]?).map stampOfBytes }
      let (n, s) := hubArm c t ((val? tMask b).map maskBits) [] s
      (okay [stU32 0 serial.toNat, stU32 1 n], s)) s
def execShutterArmTimed (r : Request) (s : State) : Host.Outcome State Fault Refusal := .next (finish 0x1003 r (shutterArmTimed r (begin_ r.after s)))

/-- SHUTTER.CANCEL_TIMED (R314). -/
def shutterCancelTimed (r : Request) (s : State) : Reply × State :=
  command { code := 0x1004, params := [must tSerial] } true r (fun b s =>
    let k : Word := BitVec.ofNat 32 (num tSerial b)
    if isDie s then
      match s.sht.arm with
      | some a => if s.sht.state == shArmed && a.serial == k && s.time.now < a.at_ then
          (okay [], reportOutcome k 5 (setSht (fun x => { x with state := shIdle, arm := none }) s)) else (refuse stState, s)
      | none => (refuse stState, s)
    else
      match s.sht.cuts.find? (·.serial == k) with
      | some c => if s.time.now < c.at_ then
          (okay [], forwardCut { op := 1, serial := k, stop := ⟨0, 0, 0⟩, mode := 0, resume := none } (cutDoors none s) s) else (refuse stState, s)
      | none => (refuse stState, s)) s
def execShutterCancelTimed (r : Request) (s : State) : Host.Outcome State Fault Refusal :=
  .next (finish 0x1004 r (shutterCancelTimed r (begin_ r.after s)))

/-- SHUTTER.SCAN (R320). -/
def shutterScan (r : Request) (s : State) : Reply × State :=
  command { code := 0x1005, params := [must tChoice] } (isDie s) r (fun b s =>
    if (s.sht.state != shStopped && s.sht.state != shScanned) || (!liveAt 0 s && !traceBanksOn s) then (refuse stState, s)
    else if choice b == 0 || choice b > 2 || (choice b == 2 && s.sht.stopRec.resume.isSome) then (refuse stBadParam, s)
    else (okay [], beginScan (choice b) s)) s
def execShutterScan (r : Request) (s : State) : Host.Outcome State Fault Refusal := .next (finish 0x1005 r (shutterScan r (begin_ r.after s)))

/-- SHUTTER.ABORT_SCAN (R321). -/
def shutterAbortScan (r : Request) (s : State) : Reply × State :=
  command { code := 0x1006 } (isDie s) r (fun _ s =>
    if s.sht.state != shScanning then (refuse stState, s) else (okay [], setSht (fun x => { x with aborting := true }) s)) s
def execShutterAbortScan (r : Request) (s : State) : Host.Outcome State Fault Refusal :=
  .next (finish 0x1006 r (shutterAbortScan r (begin_ r.after s)))

/-- SHUTTER.RESUME (R323): on a hub by the cut serial, which it forwards. -/
def shutterResume (r : Request) (s : State) : Reply × State :=
  command { code := 0x1007, params := [may tTime] ++ (if s.build.hub then [must tSerial] else []) } true r (fun b s =>
    let k : Word := BitVec.ofNat 32 (num tSerial b)
    let v := val? tTime b
    let early := match v with | some v => decide (stampTime v < s.time.now + leadUnits) | none => false
    if (match v with | some v => !stampOk v | none => false) then (refuse stRange, s)
    else if (if s.build.hub then !s.sht.cuts.any (·.serial == k) else s.sht.state != shStopped && s.sht.state != shScanned) then (refuse stState, s)
    else if early then (refuse stRange, s)
    else if s.build.hub then
      (okay [], forwardCut { op := 2, serial := k, stop := ⟨0, 0, 0⟩, mode := 0, resume := v.map stampOfBytes } (cutDoors none s) s)
    else (okay [], resume (v.map stampTime) s)) s
def execShutterResume (r : Request) (s : State) : Host.Outcome State Fault Refusal := .next (finish 0x1007 r (shutterResume r (begin_ r.after s)))

/-- SHUTTER.SET_HANG (R325): the INDEXes are the progress counters; SETTINGs H, action and dump items. -/
def shutterSetHang (r : Request) (s : State) : Reply × State :=
  command { code := 0x1008, params := [must tFrame, mayMany tIndex 512, setting 0 4, setting 1 4, setting 2 2] } (isDie s) r (fun b s =>
    let cs := nums tIndex b
    let o := s.sht.hang
    let h : HangSet := { counters := cs, limit := (set? 0 b).getD o.limit, action := (set? 1 b).getD o.action, items := (set? 2 b).getD o.items }
    if h.limit < 10 || h.limit > 1000000 || cs.length > 64 || num tFrame b ≤ curFrame s then (refuse stRange, s)
    else if cs.any (· ≥ ctrCount s) || h.action > 2 || h.items ≥ 512 then (refuse stBadParam, s)
    else defer 0x1008 0 (num tFrame b) (.hang h) s) s
def execShutterSetHang (r : Request) (s : State) : Host.Outcome State Fault Refusal := .next (finish 0x1008 r (shutterSetHang r (begin_ r.after s)))

/-- The hang settings as SETTINGs. -/
def hangSettings (h : HangSet) : List Tlv :=
  [setU32 1 h.limit, setU32 2 h.action, setBytes 3 (toLe 2 h.items), setBytes 4 (h.counters.flatMap (toLe 4))]

/-- SHUTTER.GET: sources and hang settings with their pending changes; state, arm, head of the last stop record, hang state, program
versions, skipped dumps, scan mode and status; then the record's region and channel entries, from OFFSET on. -/
def shutterGet (r : Request) (s : State) : Reply × State :=
  command { code := 0x100B, auth := authRead, params := [may tOffset] } (isDie s) r (fun b s =>
    let x := s.sht
    let p1 := (pendOf 0x1001 0 s).toList.map fun p => match p.change with | .shutSources m => pending_ p.frame [setBytes 0 (toLe 1 m)] | _ => pending_ p.frame []
    let p2 := (pendOf 0x1008 0 s).toList.map fun p => match p.change with | .hang h => pending_ p.frame (hangSettings h) | _ => pending_ p.frame []
    let p3 := (pendOf 0x100A 0 s).toList.map fun p => pending_ p.frame []
    let arm := match x.arm with
      | some a => toLe 1 1 ++ toLe 1 a.mode ++ zeros 2 ++ toLe 4 a.serial.toNat ++ fullStamp a.at_ ++ fullStamp (a.resume.getD 0)
      | none => zeros 40
    (readout r.version ([setBytes 0 (toLe 1 x.sources)] ++ hangSettings x.hang ++ p1 ++ p2 ++ p3 ++
      [stU32 0 x.state, stBytes 1 arm, stBytes 2 (stopHead x.stopRec.flags 0 s), stU32 3 x.hangCount, stU8 4 (b2n x.hung),
        stU32 5 ((x.active.map (·.version)).getD 0), stU32 6 ((x.staged.map (·.version)).getD 0), stU32 7 x.skippedDumps, stU32 8 x.mode, stU32 9 x.scanStatus,
        stU32 10 x.clockKHz]) ((imageEntryList s).drop (num tOffset b)) (num tOffset b + ·), s)) s
def execShutterGet (r : Request) (s : State) : Host.Outcome State Fault Refusal := .next (finish 0x100B r (shutterGet r (begin_ r.after s)))

/-- SHUTTER.GET_CUT (R312): the counts per outcome, and on a tray hub each slot's. -/
def shutterGetCut (r : Request) (s : State) : Reply × State :=
  command { code := 0x100C, auth := authRead, params := [must tSerial] } s.build.hub r (fun b s =>
    match s.sht.cuts.find? (·.serial == BitVec.ofNat 32 (num tSerial b)) with
    | none => (refuse stRange, s)
    | some c =>
      let slots := if isTray s then c.outcomes.flatMap fun p => toLe 1 p.1 ++ toLe 1 p.2 else []
      (okay [stBytes 0 ((cutCounts c s).flatMap (toLe 4)), stBytes 1 slots], s)) s
def execShutterGetCut (r : Request) (s : State) : Host.Outcome State Fault Refusal := .next (finish 0x100C r (shutterGetCut r (begin_ r.after s)))

/-- SHUTTER.SET_AREA (R320). -/
def shutterSetArea (r : Request) (s : State) : Reply × State :=
  command { code := 0x100D, params := [must tFrame, mustSetting 0 4] } (isTray s) r (fun b s =>
    let gb := (set? 0 b).getD 0
    if !s.sht.images.isEmpty || !storeUsable s then (refuse stState, s)
    else if gb == 0 || gb > 32 then (refuse stRange, s)
    else defer 0x100D 0 (num tFrame b) (.area gb) s) s
def execShutterSetArea (r : Request) (s : State) : Host.Outcome State Fault Refusal := .next (finish 0x100D r (shutterSetArea r (begin_ r.after s)))

/-- SHUTTER.LIST_IMAGES: the image heads, with the area's size and its pending change. -/
def shutterListImages (r : Request) (s : State) : Reply × State :=
  command { code := 0x100E, auth := authRead, params := [may tOffset] } (isTray s) r (fun b s =>
    if !storeUsable s then (refuse stState, s) else
    let pend := (pendOf 0x100D 0 s).toList.map fun p => match p.change with | .area g => pending_ p.frame [setU32 0 g] | _ => pending_ p.frame []
    let from_ := num tOffset b
    (readout r.version ([setU32 0 s.sht.area] ++ pend) ((s.sht.images.drop from_).map fun i => i.bytes.take 64) (from_ + ·), s)) s
def execShutterListImages (r : Request) (s : State) : Host.Outcome State Fault Refusal :=
  .next (finish 0x100E r (shutterListImages r (begin_ r.after s)))

/-- The image that UNIT, SERIAL and, where both kinds hold the serial, CHOICE name. -/
def imageNamed (b : List Tlv) (i : Image) : Bool :=
  i.die == num tUnit b && i.serial == num tSerial b && (match val? tChoice b with | some v => byteAt v 0 == i.kind | none => true)

/-- SHUTTER.READ_IMAGE. -/
def shutterReadImage (r : Request) (s : State) : Reply × State :=
  command { code := 0x100F, auth := authRead, params := [may tChoice, must tUnit, may tOffset, must tSerial] } (isTray s) r (fun b s =>
    if !storeUsable s then (refuse stState, s) else
    match s.sht.images.find? (imageNamed b) with
    | none => (refuse stRange, s)
    | some i => (byteRun r.version [] i.bytes (num tOffset b), s)) s
def execShutterReadImage (r : Request) (s : State) : Host.Outcome State Fault Refusal :=
  .next (finish 0x100F r (shutterReadImage r (begin_ r.after s)))

/-- SHUTTER.RELEASE_IMAGE. -/
def shutterReleaseImage (r : Request) (s : State) : Reply × State :=
  command { code := 0x1010, params := [may tChoice, must tUnit, must tSerial] } (isTray s) r (fun b s =>
    if !storeUsable s then (refuse stState, s) else
    match findIdx (imageNamed b) s.sht.images with
    | none => (refuse stRange, s)
    | some k => (okay [], setSht (fun x => { x with images := x.images.eraseIdx k }) s)) s
def execShutterReleaseImage (r : Request) (s : State) : Host.Outcome State Fault Refusal :=
  .next (finish 0x1010 r (shutterReleaseImage r (begin_ r.after s)))

/-- The scan's output cannot go on until the host reads: the codec has no chain, or the lanes have no room. -/
def scanPaused (s : State) : Bool :=
  ((ctxAt 0 s).active && (ctxAt 0 s).status == cdFull) || (s.sht.state == shScanning && s.sht.scan.started && laneRoom s == 0)

/-- Head and entries for the host (Table SHT-7), once the payload length is known: at the stream's end, or from the program where the
captured bits stand plainly. When the stream pauses before its end with the codec at work, the length is not known yet, and is free. -/
def formHead (s : State) : State :=
  let entries := imageEntries s
  let form (flags n : Nat) (s : State) : State := setSht (fun x => { x with hostHead := some (stopHead flags (entries.length + n) s ++ entries) }) s
  if s.sht.hostHead.isSome then s
  else if s.sht.state != shScanning && s.sht.building.isNone then
    form s.sht.scan.flags (if scanTarget s == 0 then s.sht.scanRaw.length else (ctxAt 0 s).output.length) s
  else if !scanPaused s then s
  else
    let flags := s.sht.stopRec.flags + 2 * b2n ((segments s).any fun g => segSkipped s.sht.mode g s)
    if scanTarget s == 0 then form flags (sumN ((captures (segments s) s).map segBytes)) s
    else form flags (Config.freeNat s.free) { s with free := s.free + 1 }

/-- A paused job of the scan gets the chunks that the host has emptied. -/
def hostRoom (s : State) : State :=
  let n := freeChunks s
  if (ctxAt 0 s).active && (ctxAt 0 s).status == cdFull && n > 0 then giveOutput 0 (chunkBuffers n) s else s

/-- SHUTTER.READ_SCAN (R321): the next run of output; what the host has read makes room for the scan. -/
def shutterReadScan (r : Request) (s : State) : Reply × State :=
  command { code := 0x1011, params := [] } (isDie s) r (fun _ s =>
    if !s.sht.toHost then (refuse stState, s) else
    let s := formHead s
    let run := (hostRest s).take 1024
    let s := hostRoom (setSht (fun x => { x with hostRead := x.hostRead + run.length }) s)
    let done := s.sht.state != shScanning && s.sht.building.isNone && (hostRest s).isEmpty
    ({ status := stOk, tlvs := [record run], more := !done && r.version != 1 },
      if done then setSht (fun x => { x with toHost := false }) s else s)) s
def execShutterReadScan (r : Request) (s : State) : Host.Outcome State Fault Refusal := .next (finish 0x1011 r (shutterReadScan r (begin_ r.after s)))

end Sys2Proof.Machine
end

