-- ==== Sys2Proof/Machine/Windows.lean ====
section
/-! DEFINITION. Window ports, counter file, window events, stalls and the sensor hub (R80 to R106). -/
namespace Sys2Proof.Machine

def portAt (p : Nat) (s : State) : Port := s.win.ports.getD p {}
def setPort (p : Nat) (f : Port → Port) (s : State) : State :=
  { s with win := { s.win with ports := modifyAt p f s.win.ports } }
def setCtr (i : Nat) (f : Ctr → Ctr) (s : State) : State :=
  { s with win := { s.win with ctrs := tput i (f (tget {} i s.win.ctrs)) s.win.ctrs } }
def portCount (s : State) : Nat := if s.build.hub then 32 else 64

/-! ### Declarations (R82 to R84) -/

/-- The fault of a port header, if any (Table WIN-3). -/
def headerFault (p : Nat) (h : Bytes) : Option Nat :=
  let region := byteAt h 2
  if rd h 6 2 != 1 || byteAt h 0 != p then some stFormat
  else if byteAt h 1 == 255 || !allZero (slice h 12 4) || rd h 8 4 ≥ 32 then some stBadParam
  else if rd h 4 2 > 1024 || (128 ≤ region && region ≤ 254) || byteAt h 3 > 63 then some stRange
  else none

def parseEntry (b : Bytes) : DeclEntry :=
  { index := bits (rd b 0 2) 0 14, entity := bits (rd b 2 2) 0 12, kind := byteAt b 4, width := byteAt b 5
    slot := bits (rd b 6 2) 0 10, rate := rd b 8 4 }

/-- R84: a sampled counter cannot wrap twice in the longest frame. -/
def rateOk (width rate : Nat) : Bool := rate * 100020 < 2 ^ width || width == 64

/-- The fault of an entry, given the port's entries before it and the indices that other ports hold. -/
def entryFault (hub : Bool) (before : List DeclEntry) (held : List Nat) (b : Bytes) : Option Nat :=
  let e := parseEntry b
  let sampled := e.kind == 1
  let reserved := bits (rd b 0 2) 14 2 != 0 || bits (rd b 2 2) 12 4 != 0 || bits (rd b 6 2) 10 6 != 0 || !allZero (slice b 12 4)
  let widthOk := if sampled then e.width == 32 || e.width == 48 || e.width == 64 else e.width == 64
  if e.kind > 4 || reserved || !widthOk || (sampled && before.any fun x => x.kind == 1 && x.slot == e.slot) ||
     before.any (·.index == e.index) then some stBadParam
  else if e.index < (if hub then 2048 else 1024) || e.index ≥ (if hub then 16384 else 8192) ||
     (sampled && !rateOk e.width e.rate) then some stRange
  else if held.contains e.index then some stSpace
  else none

/-- Check entries in ascending position: the entries, or the first fault and its position. -/
def checkEntries (hub : Bool) (held : List Nat) : List Bytes → List DeclEntry → Except (Nat × Nat) (List DeclEntry)
  | [], acc => .ok acc
  | b :: r, acc =>
    match entryFault hub acc held b with
    | some e => .error (e, acc.length)
    | none => checkEntries hub held r (acc ++ [parseEntry b])

/-- Read a port's declaration (R82, R83): the units it presents from address 0 on; a unit it lacks reads zero. -/
def readDecl (hub : Bool) (p : Nat) (units : List Bytes) (held : List Nat) : Port :=
  let h := units.headD (zeros 16)
  let n := min 1024 (rd h 4 2)
  let es := (List.range n).map fun i => units.getD (i + 1) (zeros 16)
  let base : Port := { decl := h ++ es.flatten }
  match headerFault p h with
  | some e => { base with decl := h, state := 2, refusal := e, refEntry := 0xFFFF }
  | none =>
    match checkEntries hub held es [] with
    | .error (e, i) => { base with state := 2, refusal := e, refEntry := i }
    | .ok l => { base with state := 1, kind := byteAt h 1, region := byteAt h 2, latency := byteAt h 3, mask := rd h 8 4
                           entries := l, enabled := true }

/-- Read every port in ascending order; a refused one raises DECLARATION_REFUSED. -/
def readDecls (decls : List (Nat × List Bytes)) (s : State) : State :=
  (List.range (portCount s)).foldl (fun s p =>
    match tfind p decls with
    | none => s
    | some units =>
      let held := (s.win.ports.filter (·.state == 1)).flatMap fun q => q.entries.map (·.index)
      let port := readDecl s.build.hub p units held
      let s := setPort p (fun _ => port) s
      if port.state == 2 then
        raiseOwn 0x0F 1 0x8004 0 0 (toLe 1 p ++ zeros 1 ++ toLe 2 port.refusal ++ toLe 2 port.refEntry) s
      else port.entries.foldl (fun s e => setCtr e.index (fun c => { c with declared := true, rebase := e.kind == 1 }) s) s) s

/-! ### Counters -/

/-- A port's sampled counters in slot order. -/
def sampledOf (p : Port) : List DeclEntry := sortBy (fun a b => a.slot < b.slot) (p.entries.filter (·.kind == 1))

/-- Counter indices of a derived kind for an entity (Table WIN-2). -/
def derivedOf (kind entity : Nat) (s : State) : List Nat :=
  (s.win.ports.filter (·.state == 1)).flatMap fun p => (p.entries.filter fun e => e.kind == kind && e.entity == entity).map (·.index)
def addDerived (kind entity n : Nat) (s : State) : State := (derivedOf kind entity s).foldl (fun s i => addCtr i n s) s

/-- INCREMENT_WORD (R86, R448). -/
def addWord (p : Nat) (w : IncWord) (s : State) : State :=
  match (portAt p s).entries[w.entry]? with
  | some e => if e.kind == 0 && 1 ≤ w.amount && w.amount ≤ 65535 then addCtr e.index w.amount s
              else setPort p (fun q => { q with malformed := q.malformed + 1 }) s
  | none => setPort p (fun q => { q with malformed := q.malformed + 1 }) s

/-- The block takes a port's signals: it works, and the port's declaration is accepted and enabled (R81, R87). -/
def portLive (p : Nat) (s : State) : Bool := working s && (portAt p s).state == 1 && (portAt p s).enabled

def execIncrementWord (port : Nat) (words : List IncWord) (s : State) : Host.Outcome State Fault Refusal :=
  let s := s.fresh
  .next (if portLive port s then (words.take 4).foldl (fun s w => addWord port w s) s else s)

/-- A received sample updates its counter (R88 to R90); `i` is its index, `w` its width. -/
def takeSample (i w v : Nat) (s : State) : State :=
  let c := tget {} i s.win.ctrs
  let v := v % 2 ^ w
  let d := (v + 2 ^ w - c.raw % 2 ^ w) % 2 ^ w
  let grow := min d (u64Max - c.cleared.getD c.live)
  let delta := if c.rebase || c.satBefore then none else some grow
  let s := if c.rebase || c.cleared.isSome then s else addCtr i d s
  let now := tget {} i s.win.ctrs
  let c := { now with raw := v, rebase := c.cleared.isSome, cleared := none, newStale := false, newRebased := c.rebase, newDelta := delta
                      newPrev := now.live, newSat := if c.cleared.isSome then c.newSat else now.saturated
                      satBefore := now.satBefore && c.cleared.isNone }
  { s with win := { s.win with ctrs := tput i c s.win.ctrs } }

/-- SAMPLED_VALUE (R87, R88): values come in slot order, and count once all of the port's are in. -/
def execSampledValue (port : Nat) (value : BitVec 64) (s : State) : Host.Outcome State Fault Refusal :=
  let s := s.fresh
  let p := portAt port s
  if !portLive port s || p.awaiting == 0 || p.late then .next s else
  let got := p.got ++ [value.toNat]
  let s := setPort port (fun q => { q with awaiting := q.awaiting - 1, got := got }) s
  .next (if p.awaiting == 1 then
    ((sampledOf p).zip got).foldl (fun s (e, v) => takeSample e.index e.width v s) { s with frame := { s.frame with stepAt := s.pwr.cycles } }
  else s)

/-- A sampled counter without a sample in this frame: its delta is absent and the next one rebaselines. -/
def missSample (i : Nat) (s : State) : State :=
  setCtr i (fun c =>
    { c with newStale := true, newDelta := none, newRebased := false, rebase := true, newPrev := c.live, cleared := none
             satBefore := c.satBefore && c.cleared.isNone }) s

/-- SAMPLE_LATE (R87): 4 µs after the tick. -/
def execSampleLate (port : Nat) (s : State) : Host.Outcome State Fault Refusal :=
  let s := s.fresh
  let p := portAt port s
  if !portLive port s || p.awaiting == 0 then .next s else
  let s := advanceTo (s.frame.tickAt + 4000 * nsUnit) s
  let s := setPort port (fun q => { q with awaiting := 0, got := [], late := true }) { s with frame := { s.frame with stepAt := s.pwr.cycles } }
  let s := (sampledOf p).foldl (fun s e => missSample e.index s) s
  .next (ownEntry 0x0F02 0 0 (toLe 1 port) s)

/-- The latch of every counter at the tick's edge (R18, R87, R91): counters without samples have their deltas at
once, sampled ones wait for the strobe's answers. -/
def snapshot (s : State) : State :=
  let latch (c : Ctr) : Ctr :=
    { c with newPrev := c.live, newDelta := if c.satBefore then none else some (c.live - c.prev)
             newStale := false, newRebased := false, newSat := c.saturated, satBefore := c.saturated, cleared := none }
  let s := { s with win := { s.win with ctrs := s.win.ctrs.map fun p => (p.1, latch p.2) } }
  (List.range (portCount s)).foldl (fun s p =>
    let port := portAt p s
    let smp := sampledOf port
    if port.state != 1 || smp.isEmpty then s
    else if port.enabled then
      State.emit (.sample p) (setPort p (fun q => { q with awaiting := smp.length, got := [], late := false }) s)
    else smp.foldl (fun s e => missSample e.index s) s) s

/-- A CTR.CLEAR at its tick, after the snapshot (R91): live and previous values and SATURATED go in the tick's cycle; a sampled
counter's delta of the frame that ends still forms from the value before. The next snapshot of a sampled counter is
REBASED with an absent delta (R89); pushed, derived and own counters, which have no raw sample to set, count on and
keep their deltas (the model's choice, log entry 134). -/
def clearCounters (rs : List (Nat × Nat)) (s : State) : State :=
  let hit (i : Nat) : Bool := rs.any fun r => r.1 ≤ i && i < r.1 + r.2
  let sampled := (s.win.ports.filter fun p => p.state == 1 && p.enabled).flatMap fun p => (sampledOf p).map (·.index)
  let clear (p : Nat × Ctr) : Nat × Ctr :=
    if !hit p.1 then p
    else if sampled.contains p.1 then
      (p.1, { p.2 with live := 0, newPrev := 0, saturated := false, cleared := some (p.2.cleared.getD p.2.live) })
    else (p.1, { p.2 with live := 0, newPrev := 0, saturated := false, satBefore := false })
  { s with win := { s.win with ctrs := s.win.ctrs.map clear } }

/-! ### Events (R94 to R99) -/

/-- R250: an error event's class is one a window may raise, and the bits the block fills are 0. -/
def errorEventOk (code : Nat) (payload : Bytes) : Bool :=
  let c := code % 256
  let d := payload.drop 2
  ((0x40 ≤ c && c ≤ 0x47) || c ≥ 0x80) &&
  (c != 0x41 || !bit (byteAt d 3) 0) &&
  (c != 0x42 || (!bit (byteAt d 6) 0 && rd d 8 2 % 4096 == 0))

/-- The EVENT trigger of an accepted window event (R290). -/
def eventTrigger (code : Nat) (s : State) : State :=
  match findIdx (fun (c : Nat) => c == code) s.trc.set.codes with
  | some i => takeTrigger trgEvent i s
  | none => s

/-- A region's clock stops or starts (R74). -/
def clockEvent (code : Nat) : Bool := code == 0x10 || code == 0x11

/-- The queues of another port of a region hold an event of this kind that was captured at a cycle. -/
def sameEdgeEvents (clock : Bool) (port at_ : Nat) (s : State) : List QEvent :=
  let r := (portAt port s).region
  if r > 127 then [] else
  (s.win.ports.filter (·.region == r)).flatMap fun p => p.queue.filter fun e => e.port != port && e.at_ == at_ && clockEvent e.code == clock

/-- An event and a change of its region's clock state captured on the same edge carry the same stamp, the event's (R74). -/
def alignClock (e : QEvent) (s : State) : QEvent × State :=
  let r := (portAt e.port s).region
  if clockEvent e.code then
    (match (sameEdgeEvents false e.port e.at_ s).getLast? with
     | some x => { e with stamp := x.stamp }
     | none => e, s)
  else
    (e, if (sameEdgeEvents true e.port e.at_ s).isEmpty then s else
      { s with win := { s.win with ports := s.win.ports.map fun p =>
          if p.region != r then p
          else { p with queue := p.queue.map fun x => if x.at_ == e.at_ && clockEvent x.code then { x with stamp := e.stamp } else x } } })

/-- Put an event into its port's queue, or refuse and count it (R95); an accepted one may trigger (R290), and a clock-state
event reaches the region's trace sources (R279). -/
def queueEvent (e : QEvent) (cls : Nat) (s : State) : State :=
  let p := portAt e.port s
  if p.queue.length ≥ 32 then
    setPort e.port (fun q => { q with lost := q.lost + 1, firstLost := if q.lost == 0 then e.stamp else q.firstLost }) s
  else
    let (e, s) := alignClock e s
    let s := setPort e.port (fun q => { q with queue := q.queue ++ [e] }) s
    let s := match e.size with
      | some n => addCtr (ctrVolume e.port cls) n s
      | none => s
    eventTrigger e.code (clockEdge e.code (portAt e.port s).region s)

/-- The stamp of an event captured now on a port (R73). -/
def entryStamp (p : Nat) (s : State) : Nat := s.time.now - (portAt p s).latency * cycleUnits s

/-- Severity of a window error class (Table ERR-3, R251). -/
def windowSeverity (c : Nat) : Nat :=
  if c ≥ 0x80 then c % 4 else if c == 0x42 then 3 else if c == 0x40 || c == 0x43 then 1 else 2

/-- Entity kind that Table ERR-3 gives the subject of a window class. -/
def windowKind (c : Nat) : Nat :=
  match c with
  | 0x40 | 0x41 => 3
  | 0x42 | 0x45 => 1
  | 0x43 | 0x44 => 2
  | 0x46 => 6
  | 0x47 => 4
  | _ => 0

/-- The event as the block captures it now (R73, R74): a clock-state event carries the new state, any other the state from before
a change on the same edge; an error event carries the conditions before its stamp (R248). -/
def captured (port : Nat) (ev : WinEvent) (cls : Nat) (s : State) : QEvent :=
  let entity := ev.entity % 4096
  let kind := entityKind entity (windowKind (ev.code % 256)) s
  { code := ev.code, port := port, clock := (if clockEvent ev.code then ev.clock else ev.before) % 4, entity := entity
    stamp := entryStamp port s, payload := fit 12 ev.payload, size := ev.size, at_ := s.pwr.cycles, unlocked := s.time.lock == 0
    cond := if cls == 3 then conditions entity kind (s.pwr.cycles - (portAt port s).latency) s else {} }

/-- WINDOW_EVENT (R94, R95). -/
def execWindowEvent (after : Nat) (port : Nat) (ev : WinEvent) (s : State) : Host.Outcome State Fault Refusal :=
  let s := begin_ after s
  if !portLive port s then .next s else
  let bad := setPort port (fun q => { q with malformed := q.malformed + 1 }) s
  match eventClass ev.code with
  | none => .next bad
  | some c =>
    if !bit (portAt port s).mask c || (c == 3 && !errorEventOk ev.code ev.payload) then .next bad
    else .next (queueEvent (captured port ev c s) c s)

/-- STRETCH_EPISODE_END (R75): counted per region; a long one gives STRETCH_LONG. -/
def execStretchEpisodeEnd (after : Nat) (port : Nat) (cycles : Nat) (s : State) : Host.Outcome State Fault Refusal :=
  let s := begin_ after s
  let p := portAt port s
  if !portLive port s || p.region > 127 then .next s else
  let s := addCtr (ctrStretchCycles p.region) cycles (addCtr (ctrStretchEpisodes p.region) 1 s)
  let stamp := entryStamp port s
  .next (if cycles > s.time.servo.stretch * 100 then
    queueEvent { code := 0x12, port := port, clock := 1, entity := 0, stamp := stamp
                 payload := shortStamp (stamp - cycles * cycleUnits s), size := none, at_ := s.pwr.cycles, unlocked := s.time.lock == 0 } 2 s
  else s)

def streamAt (e : Nat) (s : State) : Stream := tget {} e s.win.streams
def setStream (e : Nat) (st : Stream) (s : State) : State := { s with win := { s.win with streams := tput e st s.win.streams } }

/-- Whole nanoseconds between two instants, counted so that parts of a span add up to it. -/
def elapsedNs (a b : Nat) : Nat := b / nsUnit - a / nsUnit

/-- An open stall accrues up to an instant (R97). -/
def accrue (e : Nat) (t : Nat) (s : State) : State :=
  let st := streamAt e s
  if st.isOpen then addDerived 2 e (elapsedNs st.accrued t) (setStream e { st with accrued := max t st.accrued } s) else s

/-- STALL_START. -/
def stallStart (e port stamp : Nat) (pos : Bytes) (s : State) : State :=
  let was := (streamAt e s).isOpen
  let s := accrue e stamp s
  let st := streamAt e s
  addDerived 3 e 1 (setStream e { st with isOpen := true, port := port, start := stamp, accrued := stamp, position := pos
                                          orphanStarts := st.orphanStarts + b2n was } s)

/-- STALL_END. Its resume position replaces the position held for WIN.GET_STREAM: Table WIN-5 says 'held' at STALL_START only (the
model's choice, log entry 137). -/
def stallEnd (e stamp : Nat) (pos : Bytes) (s : State) : State :=
  let was := (streamAt e s).isOpen
  let s := accrue e stamp s
  let st := streamAt e s
  if was then setStream e { st with isOpen := false, position := pos } s
  else setStream e { st with orphanEnds := st.orphanEnds + 1 } s

/-- Every open stall accrues at the tick (R97), and the lateness of the frame that ends is held (R99). -/
def streamsAtTick (s : State) : State :=
  let s := (s.win.streams.map (·.1)).foldl (fun s e => accrue e s.time.now s) s
  { s with win := { s.win with streams := s.win.streams.map fun p => (p.1, { p.2 with lateHeld := p.2.late, late := none }) } }

/-- A port that turns off closes its open stalls at that edge (R97). -/
def closeStalls (port : Nat) (s : State) : State :=
  (s.win.streams.filter fun p => p.2.isOpen && p.2.port == port).foldl (fun s p =>
    let s := accrue p.1 s.time.now s
    setStream p.1 { streamAt p.1 s with isOpen := false } s) s

/-- WIN.SET_ENABLE at its tick (R87, R89). -/
def setEnable (port : Nat) (on : Bool) (s : State) : State :=
  let was := (portAt port s).enabled
  let s := if on then s else closeStalls port s
  let s := setPort port (fun q => { q with enabled := on }) s
  if on && !was then (sampledOf (portAt port s)).foldl (fun s e => setCtr e.index (fun c => { c with rebase := true }) s) s else s

/-- Reserved bytes of a window class's detail are written 0 (R11, Table ERR-3, R253, R254). -/
def cleanDetail (c : Nat) (d : Bytes) : Bytes :=
  match c with
  | 0x40 => fit 12 (d.take 8)
  | 0x41 => fit 12 (d.take 3 ++ toLe 1 (byteAt d 3 % 2) ++ slice d 4 6)
  | 0x42 => fit 12 (d.take 3 ++ toLe 3 (rd d 3 3 % 2 ^ 18) ++ toLe 1 (byteAt d 6 % 2) ++ zeros 1 ++ toLe 2 (rd d 8 2 % 4096))
  | 0x43 => fit 12 (d.take 1 ++ zeros 1 ++ slice d 2 4)
  | _ => fit 12 (d.take 10)

/-- A window error event becomes a record (R250), with poison tracked (R253 to R255). -/
def errorEvent (q : QEvent) (s : State) : State :=
  let c := q.code % 256
  let d := cleanDetail c (slice q.payload 2 10)
  let base : Raised := { cls := c, sev := windowSeverity c, entity := q.entity, kind := entityKind q.entity (windowKind c) s
                         op := rd q.payload 0 2, stamp := some q.stamp, clock := q.clock, cond := some q.cond, detail := d }
  if c == 0x41 then
    let serial := rd d 0 3
    let again := s.err.births.any (·.serial == serial)
    let b : Birth := { serial := serial, entity := q.entity, frame := curFrame s, address := rd d 4 6, tag := s.frame.tag }
    let s := { s with err := { s.err with births := lastN 1024 (s.err.births ++ [b]), birthCount := s.err.birthCount + 1
                                          repeatBirths := s.err.repeatBirths + b2n again } }
    raise { base with detail := d.take 3 ++ toLe 1 (b2n again) ++ slice d 4 8 } s
  else if c == 0x42 then
    let key := (rd d 3 3, rd d 0 3, s.frame.tag)
    if s.err.consumed.contains key then addCtr ctrPoison 1 s else
    let born := if rd d 3 3 == dieId s then s.err.births.reverse.find? (·.serial == rd d 0 3) else none
    let d := match born with
      | some b => d.take 6 ++ toLe 1 1 ++ zeros 1 ++ toLe 2 b.entity ++ zeros 2
      | none => d
    raise { base with detail := d } { s with err := { s.err with consumed := s.err.consumed ++ [key], consumedCount := s.err.consumedCount + 1 } }
  else raise base s

/-- The recorder entry of a stored event (R349). -/
def recordEvent (q : QEvent) (origin : Nat) (s : State) : State :=
  enqueueEvr { code := q.code, origin := origin, clock := q.clock, unlocked := q.unlocked, entity := q.entity
               kind := entityKind q.entity 0 s, stamp := q.stamp, frame := curFrame s, payload := q.payload } s

/-- The effect of an event that is served (Table WIN-5). -/
def applyEvent (q : QEvent) (s : State) : State :=
  match q.code with
  | 0x0001 => stallStart q.entity q.port q.stamp q.payload s
  | 0x0002 => stallEnd q.entity q.stamp q.payload s
  | 0x0003 => addDerived 4 q.entity (rd q.payload 0 4) s
  | 0x0004 =>
    let st := streamAt q.entity s
    let late := rd q.payload 4 4
    if (st.late.map (·.1)).getD 0 < late || st.late.isNone then
      setStream q.entity { st with late := some (late, rd q.payload 0 4 % 2 ^ 18) } s
    else s
  | 0x0F01 => recordEvent q 0xFF s
  | c =>
    if 0x100 ≤ c && c ≤ 0x1FF then errorEvent q s
    else if c ≥ 0x8000 then
      recordEvent q q.port (setPort q.port (fun p => { p with subsystem := p.subsystem + 1 }) s)
    else recordEvent q q.port s

/-- A port's oldest event must wait: it is a clock-state event, and an event that it follows still waits on another port (R74). -/
def clockWaits (p : Nat) (s : State) : Bool :=
  match (portAt p s).queue with
  | [] => false
  | q :: _ => clockEvent q.code && !(sameEdgeEvents false p q.at_ s).isEmpty

/-- The port that rotation serves next (R95): the first that holds an event after the one served last, but for a clock-state event
that must follow another (R74). -/
def nextPort (s : State) : Option Nat :=
  let n := portCount s
  let ready := ((List.range n).map fun i => (s.win.lastServed + 1 + i) % n).filter fun p => !(portAt p s).queue.isEmpty
  (ready.find? fun p => !clockWaits p s).or ready.head?

/-- One event is taken from a port's queue and has its effect; room in a queue that lost events brings WINDOW_LOSS. -/
def servePort (p : Nat) (s : State) : State :=
  match (portAt p s).queue with
  | [] => s
  | q :: rest =>
    let port := portAt p s
    let loss : QEvent :=
      { code := 0x0F01, port := p, clock := 0, entity := 0, stamp := s.time.now, size := none, at_ := s.pwr.cycles, unlocked := s.time.lock == 0
        payload := toLe 4 port.lost ++ toLe 4 (nsOf port.firstLost) ++ toLe 4 (secOf port.firstLost) }
    let rest := if port.lost > 0 then rest ++ [loss] else rest
    let s := setPort p (fun x => { x with queue := rest, lost := 0, firstLost := 0 }) s
    applyEvent q { s with win := { s.win with lastServed := p } }

/-- EVENT_SERVICE (R95): one event per cycle. -/
def execEventService (s : State) : Host.Outcome State Fault Refusal :=
  let s := s.fresh
  match nextPort s with
  | none => .next s
  | some p => .next (servePort p (advance 1 s))

/-- Serve up to `n` events in rotation. -/
def serveEvents : Nat → State → State
  | 0, s => s
  | n + 1, s => match nextPort s with
    | none => s
    | some p => serveEvents n (servePort p s)

/-- Events captured before a tick have their effect in the frame that ends (R250): what still waits is served at the tick's edge
(the model's choice of when, log entry 138). -/
def drainEvents (s : State) : State := serveEvents (sumN (s.win.ports.map fun p => p.queue.length + b2n (p.lost > 0))) s

/-! ### Sensor hub (R100 to R105) -/

/-- Signed value of a temperature channel, unsigned of a voltage channel. -/
def trimWord (ch v : Nat) : Int := if ch < 48 then signed 16 v else (v : Int)

/-- The two-breakpoint factory trim from fuse words 0 to 143 (Table PWR-5A, R103). -/
def factoryTrim (fuses : List Word) (ch : Nat) : List (Nat × Int) :=
  if ch ≥ 72 then [] else
  [2 * ch, 2 * ch + 1].map fun i => let w := (fuses.getD i 0).toNat; (bits w 0 12, trimWord ch (bits w 16 16))

/-- R101: the sensor map's fault, if any. -/
def mapFault (m : List Word) : Option Nat :=
  let tile (c : Nat) : Nat := bits ((m.getD c 0).toNat) 12 6
  let bad (c : Nat) : Option Nat :=
    let w := (m.getD c 0).toNat
    let lo := if c < 48 then 0 else 48
    let twice := c < 72 && tile c < 40 && ((List.range (c - lo)).any fun i => tile (lo + i) == tile c)
    if bits w 18 14 != 0 || twice then some stBadParam
    else if 40 ≤ tile c && tile c ≤ 62 then some stRange
    else none
  (List.range 80).findSome? bad

/-- SENSOR_CONVERSION_REQUEST (R100, R449): at most 8 outstanding. -/
def execSensorConversionRequest (channel : Nat) (s : State) : Host.Outcome State Fault Refusal :=
  let s := s.fresh
  if !working s || s.win.requests.length ≥ 8 || channel ≥ 80 then .next s else
  .next (State.emit (.senseRequest channel) { s with win := { s.win with requests := s.win.requests ++ [channel] } })

/-- A channel's completed conversion (R100): its raw code, since the trim of its use decides its value (R104). -/
def convert (cycle code : Nat) (c : Chan) : Chan :=
  { c with recent := ((cycle, code) :: c.recent).take 256, codes := if c.codes.contains code then c.codes else c.codes ++ [code] }

/-- An answer of a front end (R449): answers come in request order and echo the channel; whether it completes a conversion. -/
def sensorAnswer (channel code : Nat) (s : State) : State × Bool :=
  match s.win.requests with
  | c :: r =>
    if c != channel then (s, false)
    else ({ s with win := { s.win with requests := r, chans := modifyAt channel (convert s.pwr.cycles code) s.win.chans } }, true)
  | [] => (s, false)

/-- SENSOR_REQUEST_TIMEOUT (R449). -/
def execSensorRequestTimeout (channel : Nat) (s : State) : Host.Outcome State Fault Refusal :=
  let s := s.fresh
  if !s.win.requests.contains channel then .next s else
  .next { s with win := { s.win with requests := s.win.requests.erase channel, abandoned := s.win.abandoned + 1 } }

/-- The smallest and the largest of some values. -/
def leastOf (l : List Int) : Option Int := bestBy (fun a b => decide (a < b)) l
def mostOf (l : List Int) : Option Int := bestBy (fun a b => decide (b < a)) l

/-- A channel at the tick (R100): its last conversion of the frame, and the frame's smallest and largest, under the trim in force. -/
def chanAtTick (ch : Nat) (c : Chan) : Chan :=
  let vs := c.codes.map fun x => (reading ch x c).1
  let last := if c.codes.isEmpty then none else (c.recent.head?.map fun x => reading ch x.2 c)
  { c with value := last.map (·.1), vLow := (last.map (·.2.1)).getD false, vHigh := (last.map (·.2.2)).getD false
           vMin := leastOf vs, vMax := mostOf vs, codes := [] }

/-- The channels' values at the tick (R100). -/
def sensorsAtTick (s : State) : State :=
  { s with win := { s.win with chans := s.win.chans.zipIdx.map fun p => chanAtTick p.2 p.1 } }

/-- Channel entries of a trim image: channel, breakpoints, and whether every reserved part is 0. -/
def trimEntries : Nat → Bytes → Option (List (Nat × List (Nat × Int) × Bool))
  | 0, b => if b.isEmpty then some [] else none
  | n + 1, b =>
    let ch := byteAt b 0
    let k := byteAt b 1
    if b.length < 4 + 4 * k then none else
    let pts := (List.range k).map fun i => (rd b (4 + 4 * i) 2, trimWord ch (rd b (6 + 4 * i) 2))
    let clean := rd b 2 2 == 0 && pts.all fun p => p.1 < 4096
    (trimEntries n (b.drop (4 + 4 * k))).map fun r => (ch, pts, clean) :: r

def rising : List Nat → Bool
  | a :: b :: r => decide (a < b) && rising (b :: r)
  | _ => true

/-- R105: a whole trim image staged, or refused with the first code that applies. Entry bytes that do not match a channel count of 1
to 72 get BAD_PARAM: R105 lists no code for them (the model's choice, log entry 139). -/
def stageTrim (img : Bytes) (s : State) : Reply × State :=
  if !verified 5 img s then (refuse stSig, s) else
  if rd img 4 2 != 1 || rd img 8 4 != img.length then (refuse stFormat, s) else
  let n := byteAt img 6
  let headBad := rd img 0 4 == 0 || byteAt img 7 != 0 || !allZero (slice img 12 20)
  match trimEntries n (slice img 32 (img.length - 160)) with
  | none => if !headBad && (n == 0 || n > 72) then (refuse stRange, s) else (refuse stBadParam, s)
  | some es =>
    if headBad || !rising (es.map (·.1)) ||
       es.any (fun e => !e.2.2 || e.2.1.length < 2 || e.2.1.length > 16 || !rising (e.2.1.map (·.1))) then (refuse stBadParam, s)
    else if n == 0 || n > 72 || es.any (·.1 > 71) then (refuse stRange, s)
    else (okay [], { s with win := { s.win with trimStaged := some ⟨rd img 0 4, es.map fun e => (e.1, e.2.1)⟩ } })

/-- SEN.ACTIVATE_TRIM at its tick (R104). -/
def activateTrim (s : State) : State :=
  match s.win.trimStaged with
  | none => s
  | some t =>
    let chans := t.channels.foldl (fun l (c, pts) => modifyAt c (fun k => { k with trim := pts }) l) s.win.chans
    let old := s.win.trimVersion
    let s := { s with win := { s.win with chans := chans, untrimmed := false, trimVersion := t.version, trimStaged := none } }
    ownEntry 0x0F30 0 0 (toLe 4 old ++ toLe 4 t.version ++ toLe 2 t.channels.length) s

/-! ### Commands (R106) -/

/-- Pending change of an enable. -/
def winGet (r : Request) (s : State) : Reply × State :=
  command { code := 0x0301, auth := authRead, params := [must tIndex, may tOffset] } true r (fun b s =>
    let p := num tIndex b
    if p ≥ portCount s then (refuse stRange, s) else
    let q := portAt p s
    let pend := (pendOf 0x0302 p s).toList.map fun x => pending_ x.frame (match x.change with | .winEnable _ on => [setU8 0 (b2n on)] | _ => [])
    (byteRun r.version ([setU8 0 (b2n q.enabled)] ++ pend ++ [stU32 0 q.state, stU8 1 (b2n q.enabled), stU32 2 q.refusal, stU32 3 q.refEntry,
      stU32 4 q.queue.length, stU32 5 q.lost, stU32 6 q.malformed, stU32 7 q.subsystem]) q.decl (num tOffset b), s)) s
def execWinGet (r : Request) (s : State) : Host.Outcome State Fault Refusal :=
  .next (finish 0x0301 r (winGet r (begin_ r.after s)))

/-- WIN.SET_ENABLE. -/
def winSetEnable (r : Request) (s : State) : Reply × State :=
  command { code := 0x0302, params := [must tFrame, must tIndex, must tFlag] } true r (fun b s =>
    let p := num tIndex b
    if p ≥ portCount s then (refuse stRange, s)
    else if flagBad b then (refuse stBadParam, s)
    else if (portAt p s).state != 1 then (refuse stState, s)
    else defer 0x0302 p (num tFrame b) (.winEnable p (flag b)) s) s
def execWinSetEnable (r : Request) (s : State) : Host.Outcome State Fault Refusal :=
  .next (finish 0x0302 r (winSetEnable r (begin_ r.after s)))

/-- An entity is a stream: by the feature table, or, without one, by its events and derived counters. -/
def isStream (e : Nat) (s : State) : Bool :=
  match s.fea.active with
  | some _ => entityKind e 0 s == 6
  | none => (tfind e s.win.streams).isSome || !(derivedOf 2 e s).isEmpty || !(derivedOf 3 e s).isEmpty || !(derivedOf 4 e s).isEmpty

/-- WIN.GET_STREAM. -/
def winGetStream (r : Request) (s : State) : Reply × State :=
  command { code := 0x0303, auth := authRead, params := [must tEntity] } true r (fun b s =>
    let e := num tEntity b
    if !isStream e s then (refuse stBadParam, s) else
    let t := streamAt e s
    let late := t.late.getD (0, 0)
    (okay [stU8 0 (b2n t.isOpen), stBytes 1 (fit 12 t.position), stU32 2 t.orphanStarts, stU32 3 t.orphanEnds,
      stU32 4 late.1, stU32 5 late.2], s)) s
def execWinGetStream (r : Request) (s : State) : Host.Outcome State Fault Refusal :=
  .next (finish 0x0303 r (winGetStream r (begin_ r.after s)))

/-- Descriptor bits [63:60] (Table WIN-4), as bits 3 to 0. -/
def ctrFlags (c : Ctr) : Nat := 8 * b2n c.saturated + 4 * b2n c.stale + 2 * b2n c.rebased + b2n c.declared

/-- The flags of the completed snapshot (R92). -/
def snapFlags (c : Ctr) : Nat := 8 * b2n c.snapSat + 4 * b2n c.stale + 2 * b2n c.rebased + b2n c.declared

/-- A RANGE past `n` items, or of count 0, which gets OUT_OF_RANGE too: the spec names no code for it (the model's choice, log entry
135). -/
def rangesBad (n : Nat) (rs : List (Nat × Nat)) : Bool := rs.any fun r => r.1 + r.2 > n || r.2 == 0

/-- Items that a command names by INDEX and by RANGE, in that order. -/
def namedItems (b : List Tlv) : List Nat := nums tIndex b ++ (ranges b).flatMap fun r => (List.range r.2).map (· + r.1)

/-- A command that takes INDEX and RANGE names none, or names one past `n`. -/
def itemsMissing (b : List Tlv) : Bool := !b.any fun t => t.ty == tIndex || t.ty == tRange
def itemsBad (n : Nat) (b : List Tlv) : Bool := (nums tIndex b).any (· ≥ n) || rangesBad n (ranges b)

/-- CTR.READ (R92). -/
def ctrRead (r : Request) (s : State) : Reply × State :=
  command { code := 0x0401, auth := authRead, params := [mayMany tIndex 512, mayMany tRange 512, must tChoice, may tOffset] } true r (fun b s =>
    if itemsMissing b || choice b > 1 then (refuse stBadParam, s)
    else if itemsBad (ctrCount s) b || (namedItems b).length > 512 then (refuse stRange, s)
    else
      let from_ := num tOffset b
      let idx := (namedItems b).drop from_
      let live (i : Nat) : Bytes := let c := tget {} i s.win.ctrs; toLe 4 i ++ toLe 8 c.live ++ toLe 4 (ctrFlags c)
      let snap (i : Nat) : Bytes :=
        let c := tget {} i s.win.ctrs
        toLe 4 i ++ toLe 8 c.prev ++ toLe 8 (c.delta.getD 0) ++ toLe 2 (snapFlags c) ++ toLe 2 (b2n c.delta.isNone)
      (readout r.version [stU64 0 (s.win.snapFrame.getD 0)] (idx.map fun i => if choice b == 0 then live i else snap i) (from_ + ·), s)) s
def execCtrRead (r : Request) (s : State) : Host.Outcome State Fault Refusal :=
  .next (finish 0x0401 r (ctrRead r (begin_ r.after s)))

/-- CTR.CLEAR (R91). -/
def ctrClear (r : Request) (s : State) : Reply × State :=
  command { code := 0x0402, params := [must tFrame, must tRange] } true r (fun b s =>
    let rs := ranges b
    if rangesBad (ctrCount s) rs then (refuse stRange, s) else
    let x := rs.headD (0, 0)
    defer 0x0402 (x.1 * 65536 + x.2) (num tFrame b) (.ctrClear rs) s) s
def execCtrClear (r : Request) (s : State) : Host.Outcome State Fault Refusal :=
  .next (finish 0x0402 r (ctrClear r (begin_ r.after s)))

/-- Name of an own counter (log entry 8). -/
def ownName (i : Nat) : Bytes :=
  if i == ctrPoison then ascii "POISON_CONSUMED_AGAIN"
  else if i == ctrAlarm then ascii "TRACKER_ALARMS"
  else if 64 ≤ i && i < 384 then ascii "EVENT_VOLUME"
  else if 384 ≤ i && i < 640 then (if i % 2 == 0 then ascii "STRETCH_EPISODES" else ascii "STRETCH_CYCLES")
  else if 640 ≤ i && i < 672 then ascii "WATCHPOINT_HITS"
  else ascii "UNUSED"

/-- Source of an own counter (R106): kind 0 the unit, 1 a port and its event class, 2 a region, 3 a watchpoint; its number; its class. -/
def ownSource (i : Nat) : Nat × Nat × Nat :=
  if 64 ≤ i && i < 384 then (1, (i - 64) / 5, (i - 64) % 5)
  else if 384 ≤ i && i < 640 then (2, (i - 384) / 2, 0)
  else if 640 ≤ i && i < 672 then (3, i - 640, 0)
  else (0, 0, 0)

/-- CTR.GET_MAP: per index its owner port (0xFF the block), kind, entity, or the source and the name of an own counter. -/
def ctrGetMap (r : Request) (s : State) : Reply × State :=
  command { code := 0x0403, auth := authRead, params := [may tIndex] } true r (fun b s =>
    let from_ := num tIndex b
    let owners := s.win.ports.zipIdx.flatMap fun (p, k) => p.entries.map fun e => (e.index, k, e.kind, e.entity)
    let item (i : Nat) : Bytes :=
      if i < windowFirst s then 
        let o := ownSource i
        toLe 2 i ++ toLe 1 0xFF ++ toLe 1 o.1 ++ toLe 1 o.2.1 ++ toLe 1 o.2.2 ++ fit 24 (ownName i)
      else match owners.find? (·.1 == i) with
        | some (_, k, kind, e) => toLe 2 i ++ toLe 1 k ++ toLe 1 kind ++ toLe 2 e
        | none => toLe 2 i ++ toLe 1 0xFE ++ zeros 3
    (readout r.version [] (((List.range (ctrCount s)).drop from_).map item) (from_ + ·), s)) s
def execCtrGetMap (r : Request) (s : State) : Host.Outcome State Fault Refusal :=
  .next (finish 0x0403 r (ctrGetMap r (begin_ r.after s)))

/-- SEN.READ: per channel, presence and range flags, then value, minimum, maximum and latest conversion. -/
def senRead (r : Request) (s : State) : Reply × State :=
  command { code := 0x0501, auth := authRead, params := [mayMany tIndex 80, mayMany tRange 80, may tOffset] } true r (fun b s =>
    if itemsMissing b then (refuse stBadParam, s) else if itemsBad 80 b then (refuse stRange, s) else
    let item (i : Nat) : Bytes :=
      let c := chanAt i s
      let l := (c.recent.head?.map fun x => reading i x.2 c)
      let (v, low, high) := l.getD (0, false, false)
      toLe 1 i ++ toLe 1 (b2n c.value.isSome + 2 * b2n c.vLow + 4 * b2n c.vHigh + 8 * b2n l.isSome + 16 * b2n low + 32 * b2n high) ++
        toLeS 2 (c.value.getD 0) ++ toLeS 2 (c.vMin.getD 0) ++ toLeS 2 (c.vMax.getD 0) ++ toLeS 2 v
    let from_ := num tOffset b
    (readout r.version [] (((namedItems b).drop from_).map item) (from_ + ·), s)) s
def execSenRead (r : Request) (s : State) : Host.Outcome State Fault Refusal :=
  .next (finish 0x0501 r (senRead r (begin_ r.after s)))

/-- SEN.GET. -/
def senGet (r : Request) (s : State) : Reply × State :=
  command { code := 0x0502, auth := authRead } true r (fun _ s =>
    let m := match s.win.map with | some m => m.flatMap fun w => toLe 4 w.toNat | none => []
    let pend := (pendOf 0x0504 0 s).toList.map fun x => pending_ x.frame []
    (okay (pend ++ [record m, stU32 0 s.win.trimVersion, stU32 1 ((s.win.trimStaged.map (·.version)).getD 0), stU8 2 (b2n s.win.untrimmed),
      stU32 3 s.win.mapStatus, stU32 4 s.win.abandoned]), s)) s
def execSenGet (r : Request) (s : State) : Host.Outcome State Fault Refusal :=
  .next (finish 0x0502 r (senGet r (begin_ r.after s)))

/-- SEN.STAGE_TRIM (R104, R105). -/
def senStageTrim (r : Request) (s : State) : Reply × State :=
  command { code := 0x0503, params := [must tPiece] } true r (fun b s =>
    let k : Slot := { key := 0x0503, limit := 5056, busy := (pendOf 0x0504 0 s).isSome
                      cleared := { s with win := { s.win with trimStaged := none } } }
    match takePiece k r.session b s with
    | .done rep s => (rep, s)
    | .whole img s => stageTrim img s) s
def execSenStageTrim (r : Request) (s : State) : Host.Outcome State Fault Refusal :=
  .next (finish 0x0503 r (senStageTrim r (begin_ r.after s)))

/-- SEN.ACTIVATE_TRIM. -/
def senActivateTrim (r : Request) (s : State) : Reply × State :=
  command { code := 0x0504, params := [must tFrame] } true r (fun b s =>
    if s.win.trimStaged.isNone then (refuse stState, s) else defer 0x0504 0 (num tFrame b) .trim s) s
def execSenActivateTrim (r : Request) (s : State) : Host.Outcome State Fault Refusal :=
  .next (finish 0x0504 r (senActivateTrim r (begin_ r.after s)))

end Sys2Proof.Machine
end

