-- ==== Sys2Proof/Machine/Features.lean ====
section
/-! DEFINITION. Feature tables, Plain trackers and feature vectors (R172 to R195), and the end of step 1 (R92). -/
namespace Sys2Proof.Machine

/-! ### The feature table (R172 to R178) -/

def parseTracker (b : Bytes) : TrkDef :=
  { signal := byteAt b 1 % 16, kinds := byteAt b 2, k := byteAt b 3, kappa := BitVec.ofNat 32 (rd b 4 4), h := BitVec.ofNat 32 (rd b 8 4)
    window := rd b 12 2, warmup := rd b 14 2, raw := slice b 1 15 }

def parseFeature (b : Bytes) : FeatDef :=
  { cls := byteAt b 2, operand := byteAt b 3, ref := rd b 4 2, missing := BitVec.ofNat 32 (rd b 8 4), kinds := byteAt b 12 }

def parseEntity (b : Bytes) : EntityDef :=
  { kind := byteAt b 0 % 16, zone := byteAt b 1, place := rd b 2 2, fw := rd b 4 2, lot := rd b 6 2 }

def parseSignal (b : Bytes) : Nat × Nat × Nat := let w := rd b 0 4; (bits w 20 12, bits w 16 4, bits w 0 16)

/-- The parts of an image (Table FEA-1). -/
def entityBytes (img : Bytes) : List Bytes := records 8 (slice img 0x100 32768)
def featureBytes (img : Bytes) : List Bytes := records 16 (slice img 0x8100 16384)
def signalBytes (img : Bytes) : List Bytes := records 4 (slice img 0xC100 8192)
def trackerBytes (img : Bytes) : List Bytes := records 32 (slice img 0xE100 4096)
def valueBytes (img : Bytes) : List Bytes := records 4 (slice img 0xF100 3840)

def parseTable (img : Bytes) : FeatTable :=
  let es := (entityBytes img).zipIdx.filter fun p => bit (byteAt p.1 0) 7
  { version := rd img 0 4
    sigKinds := (List.range 16).map fun n => byteAt img (16 + 8 * n)
    lookups := (List.range 16).map fun n => let w := rd img (144 + 4 * n) 4; (bits w 0 10, bits w 10 10)
    values := (valueBytes img).map fun b => BitVec.ofNat 32 (le b)
    entities := es.map fun p => (p.2, parseEntity p.1)
    features := ((featureBytes img).take (rd img 6 2)).map parseFeature
    sigMap := ((signalBytes img).take (rd img 8 2)).map parseSignal
    trackers := ((trackerBytes img).take (rd img 10 2)).map parseTracker
    image := img }

/-- The pairs of tracker metric and entity that a table allocates, in tracker order (R178). -/
def allocated (t : FeatTable) : List (Nat × Nat) :=
  t.trackers.zipIdx.flatMap fun (d, m) =>
    (t.sigMap.filter fun x => x.2.1 == d.signal && (match tfind x.1 t.entities with
      | some e => bit d.kinds e.kind
      | none => false)).map fun x => (m, x.1)

/-- A run of records past its count is all zero (R172; log entry 20). -/
def unusedClear (n : Nat) (l : List Bytes) : Bool := (l.drop n).all allZero

/-- BAD_PARAM of Table FEA-9. -/
def tableParamBad (hub : Bool) (img : Bytes) (t : FeatTable) : Bool :=
  let dirs := (List.range 16).map fun n => rd img (144 + 4 * n) 4
  let kindOf (n : Nat) : Nat := t.sigKinds.getD n 0
  let keys := t.sigMap.map fun x => 16 * x.1 + x.2.1
  let ordered := (keys.zip (keys.drop 1)).all fun p => p.1 < p.2
  t.version == 0 || !allZero (slice img 14 2) || !allZero (slice img 208 48) ||
  (List.range 16).any (fun n => kindOf n > 7 || !allZero (slice img (17 + 8 * n) 7)) || dirs.any (fun w => bits w 20 12 != 0) ||
  (entityBytes img).any (fun b => bits (byteAt b 0) 4 3 != 0) || t.entities.any (fun p => p.2.kind > 7) ||
  (tfind 0 t.entities).map (·.kind) != some 0 ||
  ((featureBytes img).take (rd img 6 2)).zipIdx.any (fun (b, i) =>
    let f := parseFeature b
    rd b 0 2 != i || f.cls == 0 || f.cls > 8 || !allZero (slice b 6 2) || !allZero (slice b 13 3) || isNaN32 f.missing || f.kinds == 0 || (hub && f.cls ≥ 6)) ||
  !ordered || t.sigMap.any (fun x =>
    let k := kindOf x.2.1
    (tfind x.1 t.entities).isNone || k == 0 || (k ≥ 6 && (tfind x.1 t.entities).map (·.kind) != some 6)) ||
  ((trackerBytes img).take (rd img 10 2)).zipIdx.any (fun (b, i) =>
    byteAt b 0 != i || byteAt b 1 ≥ 16 || byteAt b 2 == 0 || kindOf (byteAt b 1 % 16) == 0 || !allZero (slice b 16 16)) ||
  !unusedClear (rd img 6 2) (featureBytes img) || !unusedClear (rd img 8 2) (signalBytes img) || !unusedClear (rd img 10 2) (trackerBytes img) ||
  !unusedClear (rd img 12 2) (valueBytes img)

/-- A signal's reference lies outside Table FEA-4. -/
def signalRefBad (ctrs kind ref : Nat) : Bool :=
  match kind with
  | 1 | 2 => ref ≥ ctrs
  | 3 => ref > 79
  | 4 | 5 => ref < 48 || ref > 71
  | _ => ref != 0

/-- A definition's operand or reference lies outside Table FEA-7. -/
def featureRefBad (trackers : Nat) (f : FeatDef) : Bool :=
  match f.cls with
  | 1 => f.operand > 5 || f.ref != 0
  | 2 | 3 => f.operand > 15 || f.ref != 0
  | 4 => f.operand > 7 || f.ref ≥ trackers
  | 5 => f.operand > 5 || f.ref > 15
  | 6 | 7 => f.operand != 0 || f.ref > 1023
  | _ => f.operand != 0 || f.ref != 0

/-- OUT_OF_RANGE of Table FEA-9. -/
def tableRangeBad (ctrs : Nat) (img : Bytes) (t : FeatTable) : Bool :=
  rd img 6 2 > 1024 || rd img 8 2 > 2048 || rd img 10 2 > 128 || rd img 12 2 > 960 ||
  t.lookups.any (fun p => p.1 + p.2 > rd img 12 2) ||
  t.sigMap.any (fun x => signalRefBad ctrs (t.sigKinds.getD x.2.1 0) x.2.2) ||
  t.features.any (featureRefBad t.trackers.length) ||
  t.trackers.any fun d => d.k == 0 || d.k > 16 || d.window == 0 || d.window > 4096 || !isFinite32 d.kappa || (f32neg d.kappa && f32mant d.kappa != 0) ||
    !isFinite32 d.h || f32neg d.h || f32mant d.h == 0

/-- R191: a whole image staged, or refused with the first code of Table FEA-9. -/
def stageTable (img : Bytes) (s : State) : Reply × State :=
  if img.length != 65536 || rd img 4 2 != 1 then (refuse stFormat, s) else
  let t := parseTable img
  if tableParamBad s.build.hub img t then (refuse stBadParam, s)
  else if tableRangeBad (ctrCount s) img t then (refuse stRange, s)
  else if (allocated t).length > (if s.build.hub then 65536 else 8192) then (refuse stSpace, s)
  else (okay [], { s with fea := { s.fea with staged := some t } })

/-! ### Signals and look-ups (R174 to R176) -/

/-- The value of a counter as FP32, absent as Table FEA-4 and R114 state. -/
def counterValue (delta : Bool) (i : Nat) (s : State) : Option F32 :=
  let c := tget {} i s.win.ctrs
  if c.stale || (i ≥ windowFirst s && !c.declared) then none
  else if delta then c.delta.map nat32 else some (nat32 c.prev)

/-- A sensor value in °C, mV or MHz (Table WIN-6), exact in FP32. -/
def sensorFp (ch : Nat) (v : Int) : F32 := round32 v (if ch < 48 then 64 else if ch < 72 then 4 else 1)

/-- What a sensor channel gives: 0 value, 1 minimum, 2 maximum of the frame. -/
def sensorValue (ch sel : Nat) (s : State) : Option F32 :=
  let c := chanAt ch s
  (match sel with | 0 => c.value | 1 => c.vMin | _ => c.vMax).map (sensorFp ch)

/-- The signal map's reference of an entity's signal. -/
def signalRef (t : FeatTable) (e n : Nat) : Option Nat := (t.sigMap.find? fun x => x.1 == e && x.2.1 == n).map (·.2.2)

/-- An entity's signal in the frame (Table FEA-4). -/
def signalOf (t : FeatTable) (e n : Nat) (s : State) : Option F32 :=
  (signalRef t e n).bind fun ref =>
    match t.sigKinds.getD n 0 with
    | 1 => counterValue true ref s
    | 2 => counterValue false ref s
    | 3 => sensorValue ref 0 s
    | 4 => sensorValue ref 1 s
    | 5 => sensorValue ref 2 s
    | 6 => some (nat32 (((streamAt e s).lateHeld.map (·.1)).getD 0))
    | 7 => (streamAt e s).lateHeld.map fun p => nat32 p.2
    | _ => none

/-- An attribute of an entity, none when unknown. -/
def attrOf (e : EntityDef) (a : Nat) : Option Nat :=
  let known (unknown v : Nat) : Option Nat := if v == unknown then none else some v
  match a with
  | 0 => some e.kind
  | 1 => known 255 e.zone
  | 2 => if e.place == 0xFFFF then none else some (bits e.place 8 8)
  | 3 => if e.place == 0xFFFF then none else some (bits e.place 0 8)
  | 4 => known 0xFFFF e.fw
  | _ => known 0xFFFF e.lot

/-! ### Trackers (R178 to R183) -/

/-- Restart a tracker (R179). -/
def restart (t : Tracker) : Tracker := { metric := t.metric, entity := t.entity }

def emptyMin : F32 := 0x7F800000#32
def emptyMax : F32 := 0xFF800000#32

/-- Rotate the windows to frame `f` (R181). -/
def rotate (w f : Nat) (t : Tracker) : Tracker :=
  let g := (f % 2 ^ 32 + 2 ^ 32 - t.last) % 2 ^ 32
  let none_ := { t with curMin := emptyMin, curMax := emptyMax, prevMin := emptyMin, prevMax := emptyMax }
  if t.n == 0 || g ≥ 2 ^ 31 then none_ else
  let jl := (f - g) / w
  let jf := f / w
  if jf == jl + 1 then { t with prevMin := t.curMin, prevMax := t.curMax, curMin := emptyMin, curMax := emptyMax }
  else if jf > jl + 1 then none_ else t

/-- Least n at which mean, variance and CUSUM outputs exist. -/
def warm (d : TrkDef) : Nat := max 1 d.warmup

/-- One CUSUM side: its sum after the drift, then alarm, output and what is kept (R180). -/
def cusum (sum kappa h : F32) (d : F64) : Bool × F32 × F32 :=
  let u := fadd (widen sum) (fsub d (widen kappa))
  let v := narrow (if flt64 0 u then u else 0)
  if flt32 h v then (true, v, 0) else (false, v, v)

/-- An update with a present input (R180). -/
def trackerInput (d : TrkDef) (f : Nat) (x : F32) (t : Tracker) : Tracker :=
  let t := { rotate d.window f t with flags := 4 }
  let t :=
    if t.n == 0 then { t with mean := widen x, var := 0, resid := none, outU := t.su, outD := t.sd }
    else
      let e := fsub (widen x) t.mean
      let t := { t with resid := some e, outU := t.su, outD := t.sd }
      let t :=
        if t.n ≥ warm d then
          let (au, ou, ku) := cusum t.su d.kappa d.h e
          let (ad, od, kd) := cusum t.sd d.kappa d.h (fneg e)
          { t with su := ku, sd := kd, outU := ou, outD := od, flags := t.flags + b2n au + 2 * b2n ad }
        else t
      let step := fmul (pow2neg64 d.k) e
      { t with mean := fadd t.mean step, var := fmul (round64 (2 ^ d.k - 1) (2 ^ d.k)) (fadd t.var (fmul e step)) }
  { t with curMin := if flt32 x t.curMin then x else t.curMin, curMax := if flt32 t.curMax x then x else t.curMax
           n := satAdd u16Max t.n 1, last := f % 2 ^ 32 }

/-- A frame without input: the state stays, the flags become 0. -/
def trackerIdle (t : Tracker) : Tracker := { t with flags := 0, outU := t.su, outD := t.sd, resid := none }

/-- One tracker in step 2 of the frame. -/
def updateTracker (tab : FeatTable) (t : Tracker) (s : State) : Tracker :=
  match tab.trackers[t.metric]? with
  | none => t
  | some d => match signalOf tab t.entity d.signal s with
    | some x => trackerInput d (curFrame s) x t
    | none => trackerIdle t

/-- Count a tracker's alarms of the frame (R182). -/
def countAlarm (t : Tracker) (s : State) : State :=
  let up := bit t.flags 0
  let down := bit t.flags 1
  if !up && !down then s else
  let a := tget {} t.metric s.fea.alarms
  let a := { a with up := a.up + b2n up, down := a.down + b2n down, frame := curFrame s, entity := t.entity }
  addCtr ctrAlarm (b2n up + b2n down) { s with fea := { s.fea with alarms := tput t.metric a s.fea.alarms } }

/-- Step 2 (R180): every tracker in its order. -/
def updateTrackers (s : State) : State :=
  match s.fea.active with
  | none => s
  | some tab =>
    let ts := s.fea.trackers.map fun t => updateTracker tab t s
    ts.foldl (fun s t => countAlarm t s) { s with fea := { s.fea with trackers := ts } }

/-- PLN.RESET at the start of step 2 (R193). -/
def resetTrackers (metric : Option Nat) (s : State) : State :=
  let hit (t : Tracker) : Bool := match metric with | some m => t.metric == m | none => true
  { s with fea := { s.fea with trackers := s.fea.trackers.map fun t => if hit t then restart t else t } }

/-- The trackers of a table, keeping what R192 keeps. -/
def carryTrackers (old : Option FeatTable) (new : FeatTable) (ts : List Tracker) : List Tracker :=
  (allocated new).map fun (m, e) =>
    let fresh : Tracker := { metric := m, entity := e }
    match old, ts.find? (fun t => t.metric == m && t.entity == e) with
    | some o, some t =>
      (match o.trackers[m]?, new.trackers[m]? with
       | some a, some b =>
         if a.raw == b.raw && o.sigKinds.getD a.signal 0 == new.sigKinds.getD b.signal 0 && signalRef o e a.signal == signalRef new e b.signal
         then t else fresh
       | _, _ => fresh)
    | _, _ => fresh

/-- FEA.ACTIVATE_TABLE at its tick, before step 1 (R192). -/
def activateTable (s : State) : State :=
  match s.fea.staged with
  | none => s
  | some t => { s with fea := { s.fea with active := some t, staged := s.fea.active, trackers := carryTrackers s.fea.active t s.fea.trackers } }

def trackerOf (m e : Nat) (s : State) : Option Tracker := s.fea.trackers.find? fun t => t.metric == m && t.entity == e

/-- A tracker's output (Table PLN-3). -/
def trackerOutput (m e sel : Nat) (s : State) : Option F32 :=
  match s.fea.active, trackerOf m e s with
  | some tab, some t =>
    (match tab.trackers[m]? with
     | none => none
     | some d =>
       let w := rotate d.window (curFrame s) t
       let warmed (v : F32) : Option F32 := if t.n < warm d then none else some v
       match sel with
       | 0 => warmed (narrow t.mean)
       | 1 => warmed (narrow t.var)
       | 2 => warmed t.outU
       | 3 => warmed t.outD
       | 4 => if w.curMin == emptyMin && w.prevMin == emptyMin then none else some (if flt32 w.prevMin w.curMin then w.prevMin else w.curMin)
       | 5 => if w.curMax == emptyMax && w.prevMax == emptyMax then none else some (if flt32 w.curMax w.prevMax then w.prevMax else w.curMax)
       | 6 => t.resid.map narrow
       | _ => some (nat32 (t.flags % 4)))
  | _, _ => none

/-! ### Fleet-relative values (R186 to R188) -/

/-- The die unit's active catalogue. -/
def dieCatalogue (s : State) : Option Catalogue := tfind 0 s.cats

/-- The group entry of a returned summary. -/
def groupEntry (b : Bytes) (group : Nat) : Option Bytes :=
  ((List.range (byteAt b 20)).map fun i => slice b (160 + 16 * i) 16).find? fun e => byteAt e 0 == group

/-- The metric entry of a returned summary. -/
def metricEntry (b : Bytes) (group metric : Nat) : Option Bytes :=
  let base := 160 + 16 * byteAt b 20
  ((List.range (rd b 6 2)).map fun i => slice b (base + 40 * i) 40).find? fun e => byteAt e 2 == group && rd e 0 2 % 1024 == metric

/-- The summary in use (R46, R186): frame and bytes. -/
def summaryInUse (s : State) : Option (Nat × Bytes) :=
  match s.frame.usable, dieCatalogue s with
  | some (f, b), some c =>
    let fits := match groupEntry b s.frame.group with
      | some e => rd e 12 4 == c.version
      | none => false
    if isDie s && s.frame.tag != 0 && !s.frame.transition && curFrame s - f ≤ s.frame.params.stale && fits then some (f, b) else none
  | _, _ => none

/-- Percentile `i` of a metric entry with its two-bit flag. -/
def returnedPercentile (e : Bytes) (i : Nat) : F32 × Nat := (BitVec.ofNat 32 (rd e (16 + 4 * i) 4), bits (rd e 36 2) (2 * i) 2)

/-- The die's single addend of a metric of source 0 to 2 (R113, R114). -/
def dieAddend (m : Metric) (s : State) : Option F32 :=
  match m.source with
  | 0 => counterValue false m.ref s
  | 1 => counterValue true m.ref s
  | 2 => sensorValue m.ref m.select s
  | _ => none

/-- The own value of an entity for a metric (R187). -/
def ownValue (j e kind : Nat) (s : State) : Option F32 :=
  ((dieCatalogue s).bind fun c => c.metrics.find? (·.index == j)).bind fun m =>
    if m.source ≤ 2 then dieAddend m s
    else if m.source == 3 && bit m.kinds kind then trackerOutput m.ref e m.select s
    else none

/-- FLEET_DIFF (R187). -/
def fleetDiff (j e kind : Nat) (s : State) : Option F32 :=
  match (summaryInUse s).bind (fun p => metricEntry p.2 s.frame.group j), ownValue j e kind s with
  | some b, some o =>
    let (p50, fl) := returnedPercentile b 1
    if fl == 0 then some (narrow (fsub (widen o) (widen p50))) else none
  | _, _ => none

/-- FLEET_RANK (R188). -/
def fleetRank (j e kind : Nat) (s : State) : Option F32 :=
  match (summaryInUse s).bind (fun p => metricEntry p.2 s.frame.group j), ownValue j e kind s with
  | some b, some o =>
    let ps := (List.range 5).map (returnedPercentile b)
    if ps.any (·.2 == 3) then none else some (nat32 (ps.filter fun p => flt32 p.1 o).length)
  | _, _ => none

/-! ### The vector (R184, R185) -/

/-- What a definition's source yields for an entity. -/
def sourceValue (t : FeatTable) (e : Nat) (d : EntityDef) (f : FeatDef) (s : State) : Option F32 :=
  match f.cls with
  | 1 => (attrOf d f.operand).map nat32
  | 2 => signalOf t e f.operand s
  | 3 => signalOf t 0 f.operand s
  | 4 => trackerOutput f.ref e f.operand s
  | 5 => (attrOf d f.operand).bind fun a =>
      let l := t.lookups.getD f.ref (0, 0)
      if a < l.2 then t.values[l.1 + a]? else none
  | 6 => fleetDiff f.ref e d.kind s
  | 7 => fleetRank f.ref e d.kind s
  | 8 => (summaryInUse s).map fun p => nat32 (curFrame s - p.1)
  | _ => none

/-- Value of a definition and whether its missing code stands in. -/
def featureValue (t : FeatTable) (e : Nat) (d : EntityDef) (f : FeatDef) (s : State) : F32 × Bool :=
  match if bit f.kinds d.kind then sourceValue t e d f s else none with
  | some v => if isNaN32 v then (f.missing, true) else (v, false)
  | none => (f.missing, true)

/-- The vector of a defined entity. -/
def vectorOf (e : Nat) (s : State) : List (F32 × Bool) :=
  match s.fea.active with
  | none => []
  | some t => match tfind e t.entities with
    | none => []
    | some d => t.features.map fun f => featureValue t e d f s

/-! ### The end of step 1 (R27, R92) -/

/-- The hang count of a frame, from its deltas (R325); without a named counter nothing counts, and a job tag of 0 still ends a hang. -/
def hangCount (s : State) : State :=
  let cs := s.sht.hang.counters
  if s.build.hub then s else
  let progress := cs.any fun i => ((tget {} i s.win.ctrs).delta.getD 0) > 0
  let ends := progress || s.frame.tag == 0
  let s := if ends && s.sht.hung then
      ownEntry 0x0F51 0 0 (toLe 4 s.sht.hang.limit ++ toLe 8 (curFrame s - s.sht.hangFrame)) (setSht (fun x => { x with hung := false }) s)
    else s
  let zero := ends || cs.isEmpty || !(s.sht.state == shIdle || s.sht.state == shArmed)
  setSht (fun x => { x with hangCount := if zero then 0 else x.hangCount + 1 }) s

/-- The snapshot is swapped in, and a PLN.RESET that fell due at the tick acts (R92, R193). -/
def swapSnapshot (s : State) : State :=
  let swap (c : Ctr) : Ctr := { c with prev := c.newPrev, delta := c.newDelta, stale := c.newStale, rebased := c.newRebased, snapSat := c.newSat }
  let s := { s with win := { s.win with ctrs := s.win.ctrs.map (fun (p : Nat × Ctr) => (p.1, swap p.2)), snapFrame := some (curFrame s) }
                    frame := { s.frame with step := .trackers, stepAt := s.pwr.cycles } }
  let due := s.pend.filter fun (p : Pend) => p.opcode == 0x0902 && p.frame ≤ curFrame s
  let s := { s with pend := s.pend.filter fun (p : Pend) => !(p.opcode == 0x0902 && p.frame ≤ curFrame s) }
  due.foldl (fun s (p : Pend) => match p.change with | .plnReset m => resetTrackers m s | _ => s) s

/-- SNAPSHOT_SWAP (R92, R189): step 1 ends once every strobed port has answered or is late and the deltas are formed;
a PLN.RESET that fell due at the tick acts, and step 2 updates the trackers. The snapshot carries the number of the frame begun
at its tick, not of the frame whose deltas it holds: R92 leaves it open (the model's choice, log entry 140). -/
def execSnapshotSwap (s : State) : Host.Outcome State Fault Refusal :=
  let s := s.fresh
  if !working s || s.frame.step != .snapshot || s.win.ports.any (·.awaiting > 0) then .next s else
  .next (updateTrackers (hangCount (swapSnapshot (advanceCycles (s.frame.stepAt + 1024) s))))

/-- The state that step 4 of the current frame reads (R190): in step 1 the snapshot and the tracker updates still to come are formed
for the reader alone, a port whose samples have not come taken as late (log entry 142). -/
def stepFour (s : State) : State :=
  if s.frame.step != .snapshot then s else
  let s := (s.win.ports.filter (·.awaiting > 0)).foldl (fun s p => (sampledOf p).foldl (fun s e => missSample e.index s) s) s
  updateTrackers (swapSnapshot s)

/-! ### Commands (R195) -/

/-- FEA.STAGE_TABLE. -/
def feaStageTable (r : Request) (s : State) : Reply × State :=
  command { code := 0x0801, params := [must tPiece] } true r (fun b s =>
    let k : Slot := { key := 0x0801, limit := 65536, busy := (pendOf 0x0802 0 s).isSome
                      cleared := { s with fea := { s.fea with staged := none } } }
    match takePiece k r.session b s with
    | .done rep s => (rep, s)
    | .whole img s => stageTable img s) s
def execFeaStageTable (r : Request) (s : State) : Host.Outcome State Fault Refusal :=
  .next (finish 0x0801 r (feaStageTable r (begin_ r.after s)))

/-- FEA.ACTIVATE_TABLE (R192). -/
def feaActivateTable (r : Request) (s : State) : Reply × State :=
  command { code := 0x0802, params := [must tFrame] } true r (fun b s =>
    if s.fea.staged.isNone then (refuse stState, s) else defer 0x0802 0 (num tFrame b) .table s) s
def execFeaActivateTable (r : Request) (s : State) : Host.Outcome State Fault Refusal :=
  .next (finish 0x0802 r (feaActivateTable r (begin_ r.after s)))

/-- FEA.GET_TABLE: CHOICE 0 the active image, 1 the staged one. -/
def feaGetTable (r : Request) (s : State) : Reply × State :=
  command { code := 0x0803, auth := authRead, params := [may tChoice, may tOffset] } true r (fun b s =>
    if choice b > 1 then (refuse stBadParam, s) else
    let t := if choice b == 0 then s.fea.active else s.fea.staged
    let pend := (pendOf 0x0802 0 s).toList.map fun p => pending_ p.frame []
    (byteRun r.version (pend ++ [stU32 0 ((s.fea.active.map (·.version)).getD 0), stU32 1 ((s.fea.staged.map (·.version)).getD 0),
      stU32 2 s.fea.trackers.length]) ((t.map (·.image)).getD []) (num tOffset b), s)) s
def execFeaGetTable (r : Request) (s : State) : Host.Outcome State Fault Refusal :=
  .next (finish 0x0803 r (feaGetTable r (begin_ r.after s)))

/-- The bit per value that shows a missing code. -/
def missingMask (v : List (F32 × Bool)) : Bytes := toMask v.length ((v.zipIdx.filter fun p => p.1.2).map (·.2))

/-- FEA.GET_VECTOR: the vector as one run of bytes, and the bit per value that shows a missing code. -/
def feaGetVector (r : Request) (s : State) : Reply × State :=
  command { code := 0x0804, auth := authRead, params := [must tEntity, may tOffset] } true r (fun b s =>
    let e := num tEntity b
    if e > 4095 then (refuse stRange, s)
    else if ((s.fea.active.bind fun t => tfind e t.entities)).isNone then (refuse stBadParam, s)
    else
      let v := vectorOf e (stepFour s)
      (byteRun r.version [stBytes 0 (missingMask v)] (v.flatMap fun p => toLe 4 p.1.toNat) (num tOffset b), s)) s
def execFeaGetVector (r : Request) (s : State) : Host.Outcome State Fault Refusal :=
  .next (finish 0x0804 r (feaGetVector r (begin_ r.after s)))

/-- The 48 B of Table PLN-2. -/
def trackerState (t : Tracker) : Bytes :=
  toLe 8 t.mean.toNat ++ toLe 8 t.var.toNat ++ toLe 4 t.su.toNat ++ toLe 4 t.sd.toNat ++ toLe 4 t.curMin.toNat ++ toLe 4 t.curMax.toNat ++
    toLe 4 t.prevMin.toNat ++ toLe 4 t.prevMax.toNat ++ toLe 2 t.n ++ toLe 2 t.flags ++ toLe 4 t.last

/-- PLN.READ: INDEX and ENTITY pairs by position. -/
def plnRead (r : Request) (s : State) : Reply × State :=
  command { code := 0x0901, auth := authRead, params := [many tIndex 256, many tEntity 256, may tOffset] } true r (fun b s =>
    let ms := nums tIndex b
    let es := nums tEntity b
    if ms.length != es.length then (refuse stBadParam, s)
    else if ms.any (· ≥ ((s.fea.active.map (·.trackers.length)).getD 0)) then (refuse stRange, s)
    else
      let find (p : Nat × Nat) : Option (Tracker × Nat) := s.fea.trackers.zipIdx.find? fun t => t.1.metric == p.1 && t.1.entity == p.2
      let found := (ms.zip es).map find
      if found.any (·.isNone) then (refuse stBadParam, s) else
      let item (p : Tracker × Nat) : Bytes := toLe 4 p.2 ++ trackerState p.1
      let from_ := num tOffset b
      (readout r.version [] ((found.filterMap id).map item |>.drop from_) (from_ + ·), s)) s
def execPlnRead (r : Request) (s : State) : Host.Outcome State Fault Refusal :=
  .next (finish 0x0901 r (plnRead r (begin_ r.after s)))

/-- PLN.RESET: the metrics named, or all of them. -/
def plnReset (r : Request) (s : State) : Reply × State :=
  command { code := 0x0902, params := [must tFrame, may tIndex] } true r (fun b s =>
    let m := num? tIndex b
    let n := (s.fea.active.map (·.trackers.length)).getD 0
    if num tFrame b ≤ curFrame s || (m.map fun i => decide (i ≥ n)).getD false then (refuse stRange, s)
    else defer 0x0902 ((m.map (· + 1)).getD 0) (num tFrame b) (.plnReset m) s) s
def execPlnReset (r : Request) (s : State) : Host.Outcome State Fault Refusal :=
  .next (finish 0x0902 r (plnReset r (begin_ r.after s)))

/-- PLN.GET_ALARMS. -/
def plnGetAlarms (r : Request) (s : State) : Reply × State :=
  command { code := 0x0903, auth := authRead, params := [mayMany tIndex 128, may tOffset] } true r (fun b s =>
    let n := (s.fea.active.map (·.trackers.length)).getD 0
    let ms := if (nums tIndex b).isEmpty then List.range n else nums tIndex b
    if ms.any (· ≥ n) then (refuse stRange, s) else
    let item (m : Nat) : Bytes := let a := tget {} m s.fea.alarms; toLe 4 m ++ toLe 4 a.up ++ toLe 4 a.down ++ toLe 8 a.frame ++ toLe 2 a.entity
    let from_ := num tOffset b
    (readout r.version [] ((ms.drop from_).map item) (from_ + ·), s)) s
def execPlnGetAlarms (r : Request) (s : State) : Host.Outcome State Fault Refusal :=
  .next (finish 0x0903 r (plnGetAlarms r (begin_ r.after s)))

end Sys2Proof.Machine
end

