-- ==== Sys2Proof/Machine/Recorder.lean ====
section
/-! DEFINITION. Event recorder (R349 to R361), block SRAM (R362 to R371), store and storage ports (R456 to R459). -/
namespace Sys2Proof.Machine

/-! ### Entries -/

/-- Bytes 0 to 59 of Table EVR-1, which are written first. -/
def evrBody (seq : Nat) (e : EvrEntry) (s : State) : Bytes :=
  let b := toLe 8 seq ++ shortStamp e.stamp ++ toLe 8 (curFrame s) ++ toLe 4 s.evr.hours ++ toLe 4 s.evr.pcc ++
    toLe 2 e.code ++ toLe 1 e.origin ++ toLe 1 (e.clock + 4 * b2n e.unlocked) ++ toLe 2 (e.entity + 4096 * e.kind) ++
    zeros 2 ++ fit 12 e.payload
  b ++ toLe 4 (crc32c b)

/-- The valid mark, which a second write puts behind them (R350). -/
def evrMark (seq : Nat) : Bytes := toLe 4 (2 ^ 32 - 1 - seq % 2 ^ 32)
def evrBytes (seq : Nat) (e : EvrEntry) (s : State) : Bytes := evrBody seq e s ++ evrMark seq

/-- R350: a slot's valid mark is the complement of its sequence's low word. -/
def evrValid (b : Bytes) : Bool := b.length == 64 && rd b 60 4 + rd b 0 4 == 2 ^ 32 - 1

/-- A valid entry whose check fails. -/
def evrCorrupt (b : Bytes) : Bool := rd b 56 4 != crc32c (b.take 56)

/-- Write an entry at the head: it takes slot head − base, and the head rises (R353). -/
def writeEvr (e : EvrEntry) (s : State) : State :=
  let i := s.evr.head - s.evr.base
  let b := evrBytes s.evr.head e s
  { s with evr := { s.evr with slots := s.evr.slots.take i ++ [b], torn := [], head := s.evr.head + 1, new := true } }

/-- How far a reset finds the write of an entry: not begun, its bytes without the valid mark, or whole with the head not yet risen. -/
def tearWrite (stage : Nat) (e : EvrEntry) (s : State) : State :=
  let seq := s.evr.head
  let b := if stage == 1 then evrBody seq e s ++ zeros 4 else evrBytes seq e s
  if stage == 0 then s else { s with evr := { s.evr with torn := b } }

/-- Block reset meets the recorder (R358, R360). The write of the entry at the front of the queue may be under way: how far it has come is free.
A clear leaves the rows that it has zeroed. -/
def recorderReset (s : State) : State :=
  if s.evr.clearing then
    { s with evr := { s.evr with slots := s.evr.slots.zipIdx.map fun p => zeroRows (clearedRows s) p.2 p.1, torn := [] } }
  else match s.evr.queue with
    | [] => s
    | e :: _ => if evrFull s then s else tearWrite (Config.freeNat s.free % 3) e { s with free := s.free + 1 }

/-- Leaving reset, the slot at head − base is checked (R358): an entry that was written whole counts, and the head rises past it. -/
def recoverTorn (s : State) : State :=
  let r := s.evr
  if evrFull s || !evrValid r.torn || rd r.torn 0 8 != r.head then s
  else { s with evr := { r with slots := r.slots.take (r.head - r.base) ++ [r.torn], torn := [], head := r.head + 1 } }

/-! ### Storage (R458, R459) -/

def storageUsable (s : State) : Bool := s.build.hub && s.mem.ssRdy && s.mem.ssCap ≥ 133120

/-- Stack and granule of a store address (R456). -/
def storeMap (a : Nat) : Nat × Nat :=
  let page := a / 4096
  (page % 6, page / 6 * 32 + a % 4096 / 128)

/-- Log key of the hub's own recorder. -/
def hubLog : Nat := 2 ^ 18

/-- Area of a log: mirror log i (Table PWR-13). -/
def logArea (key : Nat) : Nat := if key == hubLog then 128 else slotOf key

/-- Issue the write of a log's entries, if a tag is free and the area accepts writes. -/
def issueLog (key : Nat) (s : State) : State :=
  let used := s.mem.cmds.map (·.tag)
  let area := logArea key
  let log := tget {} key s.mem.logs
  if !storageUsable s || s.mem.failed.contains area || log.entries.length ≤ log.written ||
     s.mem.cmds.any (fun c => c.area == area) then s
  else match (List.range 32).find? fun t => !used.contains t with
    | none => s
    | some t =>
      let c : StorageCmd := { tag := t, area := area, upTo := log.entries.length }
      State.emit (.storageWrite t area) { s with mem := { s.mem with cmds := s.mem.cmds ++ [c] } }

/-- Append an entry to a mirror log (R361): one at or below the highest stored is discarded; a full log or a failed area refuses and counts. -/
def mirrorAppend (key : Nat) (b : Bytes) (s : State) : State :=
  let log := tget {} key s.mem.logs
  let seq := rd b 0 8
  if seq ≤ log.highest then s
  else if log.entries.length ≥ 65536 || s.mem.failed.contains (logArea key) then
    { s with mem := { s.mem with logs := tput key { log with refused := log.refused + 1 } s.mem.logs } }
  else
    let log := { log with entries := log.entries ++ [b], highest := seq }
    let s := { s with mem := { s.mem with logs := tput key log s.mem.logs } }
    if log.entries.length % 64 == 0 then issueLog key s else s

/-- A hub mirrors its own recorder (R361): each written entry once. -/
def mirrorOwn (s : State) : State :=
  if storageUsable s then
    let new := s.evr.slots.drop (s.evr.mirrorNext - s.evr.base)
    new.foldl (fun s b => mirrorAppend hubLog b s) { s with evr := { s.evr with mirrorNext := s.evr.head } }
  else s

/-- Entries of a die unit reach the mirror. Those that came while the storage port was not usable, for which no credit was granted, wait for it:
bulk is lossless (R145). -/
def mirrorTake (die : Nat) (item : Bytes) (s : State) : State :=
  if storageUsable s then (records 64 item).foldl (fun s b => mirrorAppend die b s) s
  else { s with mem := { s.mem with mirrorWait := s.mem.mirrorWait ++ [(die, item)] } }

/-- The storage port has become usable, or not: waiting entries are appended. -/
def mirrorReady (s : State) : State :=
  if storageUsable s then s.mem.mirrorWait.foldl (fun s p => mirrorTake p.1 p.2 s) { s with mem := { s.mem with mirrorWait := [] } } else s

/-! ### Events -/

/-- RECORDER_WRITE (R352, R354): the next queued entry is written, one per 4 cycles. -/
def execRecorderWrite (s : State) : Host.Outcome State Fault Refusal :=
  let s := s.fresh
  match s.evr.queue with
  | e :: q =>
    if !outOfReset s || s.evr.clearing then .next s else
    let s := advance 4 { s with evr := { s.evr with queue := q } }
    .next (if evrFull s then
      { s with evr := { s.evr with refFull := satAdd u32Max s.evr.refFull 1
                                   firstRefusal := s.evr.firstRefusal.or (some e.stamp) } }
    else mirrorOwn (writeEvr e s))
  | [] => .next s

/-- RECORDER_CLEAR_DONE (R360): 4,096 cycles after the clear began, base := head and CLEARED is written. -/
def execRecorderClearDone (s : State) : Host.Outcome State Fault Refusal :=
  let s := s.fresh
  if !s.evr.clearing then .next s else
  let s := advanceCycles (s.evr.clearAt + 4096) s
  let r := s.evr
  let cleared : EvrEntry :=
    { code := 0x0F11, origin := 0xFF, clock := 0, unlocked := s.time.lock == 0, entity := 0, kind := 0, stamp := s.time.now
      frame := curFrame s, payload := toLe 4 (r.head - r.base) ++ toLe 4 r.refFull ++ toLe 4 r.refBusy }
  let s := { s with evr := { r with clearing := false, base := r.head, slots := [], torn := [], corrupt := [], refFull := 0, refBusy := 0
                                    firstRefusal := none, mirrorNext := r.head } }
  .next (mirrorOwn (writeEvr cleared s))

/-- HOUR_COUNTER_EXPIRY (R357): at 3.6e12 cycles an hour is added, the counter restarts and the hours are presented. -/
def hourLimit : Nat := 3600000000000

def execHourCounterExpiry (s : State) : Host.Outcome State Fault Refusal :=
  let s := s.fresh
  if !outOfReset s then .next s else
  let s := advance (hourLimit - s.evr.hourCtr) s
  let h := satAdd u32Max s.evr.hours 1
  .next (State.emit (.hoursOut h) { s with evr := { s.evr with hours := h, hourCtr := 0 }, pwr := { s.pwr with hoursOut := h } })

/-- PARTIAL_LOG_FLUSH (R459): each log with unwritten entries is written. -/
def execPartialLogFlush (s : State) : Host.Outcome State Fault Refusal :=
  let s := mirrorOwn s.fresh
  .next ((s.mem.logs.map (·.1)).foldl (fun s k => issueLog k s) s)

/-- STORAGE_COMPLETION (R459): status 0 stores the entries; a failure is retried once, and then fails the area. -/
def execStorageCompletion (tag status : Nat) (s : State) : Host.Outcome State Fault Refusal :=
  let s := s.fresh
  match s.mem.cmds.find? (·.tag == tag) with
  | none => .next s
  | some c =>
    let rest := s.mem.cmds.filter (·.tag != tag)
    if status == 0 then
      let up (p : Nat × Log) : Nat × Log := if logArea p.1 == c.area then (p.1, { p.2 with written := max p.2.written c.upTo }) else p
      .next { s with mem := { s.mem with cmds := rest, logs := s.mem.logs.map up } }
    else if !c.retried then
      .next (State.emit (.storageWrite tag c.area) { s with mem := { s.mem with cmds := rest ++ [{ c with retried := true }] } })
    else
      let n := tget 0 c.area s.mem.failures + 1
      .next { s with mem := { s.mem with cmds := rest, failed := s.mem.failed ++ [c.area], failures := tput c.area n s.mem.failures } }

/-- STORE_FAULT against a stack's memory-stack entity (R456). -/
def storeFault (stack address status : Nat) (s : State) : State :=
  raiseOwn 0x1B 2 0 stack 3 (toLe 8 address ++ toLe 4 status) s

/-- STORE_COMPLETION (R456): status 2 or 3 raises STORE_FAULT. -/
def execStoreCompletion (stack address status : Nat) (s : State) : Host.Outcome State Fault Refusal :=
  let s := s.fresh
  if !s.build.hub || !working s then .next s else
  .next (drainIngress (if status ≥ 2 then storeFault stack address status s else s))

/-- STORAGE_READY_CHANGE (R458). -/
def execStorageReadyChange (ready : Bool) (capacity : Nat) (s : State) : Host.Outcome State Fault Refusal :=
  let s := s.fresh
  .next (if s.build.hub then mirrorReady (mirrorOwn { s with mem := { s.mem with ssRdy := ready, ssCap := capacity } }) else s)

/-- Banks of the control core (Tables SRM-1 and SRM-2): its data, and its firmware slots. -/
def coreBank (hub : Bool) (b : Nat) : Bool := b < (if hub then 4 else 6)

/-- PATROL_SCRUB (R362): a row of a bank that is on is read; a single-bit error is corrected and raises SRAM_ECC, in a bank of the
control core CORE_ECC_CORRECTED with memory 0 for a firmware slot and 1 for data (R249, log entry 141). -/
def execPatrolScrub (bank row : Nat) (fixed : Bool) (s : State) : Host.Outcome State Fault Refusal :=
  let s := s.fresh
  if !outOfReset s || s.mem.banks.getD bank 3 != 0 || !fixed then .next s else
  let s := { s with mem := { s.mem with scrubbed := tput bank (tget 0 bank s.mem.scrubbed + 1) s.mem.scrubbed
                                        corrected := tput bank (tget 0 bank s.mem.corrected + 1) s.mem.corrected } }
  .next (if coreBank s.build.hub bank then
      raiseOwn 0x17 1 0 0 0 (toLe 4 ((if s.build.hub then 262144 else 131072) * bank + 32 * row) ++ toLe 1 (b2n (bank < 2))) s
    else raiseOwn 0x1A 1 0 0 0 (toLe 2 bank ++ toLe 4 (32 * row)) s)

/-! ### Banks (R365 to R367) -/

/-- Regions of Tables SRM-1 and SRM-2: first bank, last bank, KiB. -/
def bankMap (hub : Bool) : List (Nat × Nat × Nat) :=
  if hub then
    [(0, 1, 512), (2, 2, 256), (3, 3, 256)] ++ ((List.range 8).map fun e => (4 + 24 * e, 27 + 24 * e, 6144)) ++
    [(196, 207, 3072), (208, 208, 256), (209, 210, 512), (211, 214, 1024), (215, 215, 256), (216, 255, 10240)]
  else
    [(0, 1, 256), (2, 3, 256), (4, 5, 256), (6, 11, 768), (12, 17, 768), (18, 21, 512), (22, 23, 256), (24, 27, 512),
     (28, 29, 256), (30, 31, 256)]

/-- The region's last column reads Never. -/
def neverBank (hub : Bool) (b : Nat) : Bool :=
  if hub then b < 4 || (196 ≤ b && b < 256) else b < 6 || (18 ≤ b && b < 24) || (28 ≤ b && b < 32)

/-- A GLEN.ACTIVATE is pending. -/
def glenPending (s : State) : Bool := s.pend.any (·.opcode == 0x0A02)

/-- First bank of a die unit's staging page. -/
def stagingBank (s : State) : Nat := 6 + 6 * s.glen.side

/-- A die unit holds scan output for the host door (R321). -/
def scanHeld (s : State) : Bool := s.sht.toHost && !(hostRest s).isEmpty

/-- The condition of the last column holds: the bank may leave state on. -/
def mayLeaveOn (b : Nat) (s : State) : Bool :=
  if s.build.hub then
    let e := (b - 4) / 24
    !(s.glen.active.any (·.engine == e)) && !glenPending s
  else if b < 18 then stagingBank s ≤ b && b < stagingBank s + 6 && !glenPending s
  else s.trc.set.mode == 0 && s.wpt.auth.isNone && !scanHeld s

/-- What a bank that turns off loses (R367). -/
def bankLost (b : Nat) (s : State) : State :=
  if s.build.hub then
    let e := (b - 4) / 24
    if 4 ≤ b && b < 196 then { s with glen := { s.glen with active := s.glen.active.filter (·.engine != e) } } else s
  else if stagingBank s ≤ b && b < stagingBank s + 6 then
    { s with glen := { s.glen with staged := [] }, asm := s.asm.filter (·.slot != 0x0A01) }
  else if 24 ≤ b && b < 28 then
    { s with trc := { s.trc with queue := [] }, wpt := { s.wpt with store := [] } }
  else s

/-- BANK_CHANGE_COMPLETE (R367): the bank reaches its state, BANK_STATE is recorded, and the reply leaves once every
named bank is there. -/
def execBankChangeComplete (bank : Nat) (s : State) : Host.Outcome State Fault Refusal :=
  let s := s.fresh
  match s.mem.changing.find? (·.1 == bank) with
  | none => .next s
  | some (_, old, target) =>
    let rest := s.mem.changing.filter (·.1 != bank)
    let s := { s with mem := { s.mem with banks := modifyAt bank (fun _ => target) s.mem.banks, changing := rest } }
    let s := ownEntry 0x0F60 0 0 (toLe 1 bank ++ toLe 1 old ++ toLe 1 target) s
    let s := if target == 2 then bankLost bank s else s
    .next (match s.mem.bankReply with
      | some (r, bs) =>
        if bs.any fun b => rest.any (·.1 == b) then s
        else finish 0x1302 r (okay [], { s with mem := { s.mem with bankReply := none } })
      | none => s)

/-! ### Commands -/

def evrReadOp : Op := { code := 0x1201, auth := authRead, params := [must tSeq] }

/-- The entries that a reader takes from slot `i` on (R359): of up to 28 slots below the head, those that are valid with their sequence. -/
def entriesFrom (i : Nat) (s : State) : List (Bytes × Nat) :=
  let n := min 28 (s.evr.head - s.evr.base - i)
  ((List.range n).map fun k => (slotNow (i + k) s, i + k)).filter fun p => evrValid p.1 && rd p.1 0 8 == s.evr.base + p.2

/-- EVR.READ (R359): up to 28 whole entries, with base, head and a CORRUPT bit each. -/
def evrRead (r : Request) (s : State) : Reply × State :=
  command evrReadOp true r (fun b s =>
    let q := num tSeq b
    if q < s.evr.base || q ≥ s.evr.head then (refuse stRange, s) else
    let es := entriesFrom (q - s.evr.base) s
    let bad := (es.zipIdx.filter fun p => evrCorrupt p.1.1 || s.evr.corrupt.contains p.1.2).map (·.2)
    (okay (es.map (fun p => record p.1) ++ [stU64 0 s.evr.base, stU64 1 s.evr.head, stBytes 2 (toMask 28 bad)]), s)) s
def execEvrRead (r : Request) (s : State) : Host.Outcome State Fault Refusal :=
  .next (finish 0x1201 r (evrRead r (begin_ r.after s)))

/-- EVR.GET. -/
def evrGet (r : Request) (s : State) : Reply × State :=
  command { code := 0x1202, auth := authRead } true r (fun _ s =>
    let v := s.evr
    (okay [stU64 0 v.base, stU64 1 v.head, stU32 2 (v.head - v.base), stU8 3 (b2n (evrFull s)), stU32 4 v.refFull,
      stU32 5 v.refBusy, stBytes 6 (fullStamp (v.firstRefusal.getD 0)), stU32 7 v.pcc, stU32 8 v.hours,
      stU8 9 (b2n s.pwr.warm)], s)) s
def execEvrGet (r : Request) (s : State) : Host.Outcome State Fault Refusal :=
  .next (finish 0x1202 r (evrGet r (begin_ r.after s)))

/-- EVR.CLEAR (R360). -/
def evrClear (r : Request) (s : State) : Reply × State :=
  command { code := 0x1203, auth := authClear } true r (fun _ s =>
    if s.evr.clearing then (refuse stBusy, s)
    else (okay [stU64 0 s.evr.base, stU64 1 s.evr.head], { s with evr := { s.evr with clearing := true, clearAt := s.pwr.cycles } })) s
def execEvrClear (r : Request) (s : State) : Host.Outcome State Fault Refusal :=
  .next (finish 0x1203 r (evrClear r (begin_ r.after s)))

/-- The log that a UNIT names: a die below the tray hub, or the hub itself. -/
def logKey (u : Nat) (s : State) : Option Nat :=
  if u == unitId s then some hubLog
  else if !bit u 31 && (tfind (bits u 0 18) s.mem.logs).isSome then some (bits u 0 18) else none

/-- EVR.READ_MIRROR. -/
def evrReadMirror (r : Request) (s : State) : Reply × State :=
  command { code := 0x1204, auth := authRead, params := [must tUnit, must tSeq] } s.build.hub r (fun b s =>
    match logKey (num tUnit b) s with
    | none => (refuse stRange, s)
    | some k =>
      let l := (tget {} k s.mem.logs).entries
      let es := (l.filter fun e => num tSeq b ≤ rd e 0 8).take 28
      (okay (es.map record), s)) s
def execEvrReadMirror (r : Request) (s : State) : Host.Outcome State Fault Refusal :=
  .next (finish 0x1204 r (evrReadMirror r (begin_ r.after s)))

/-- EVR.GET_MIRROR: per log, its unit, first and last sequence, entries and refusals. -/
def evrGetMirror (r : Request) (s : State) : Reply × State :=
  command { code := 0x1205, auth := authRead, params := [may tIndex] } s.build.hub r (fun b s =>
    let from_ := num tIndex b
    let item (p : Nat × Log) : Bytes :=
      let first := (p.2.entries.head?.map fun e => rd e 0 8).getD 0
      let last := (p.2.entries.getLast?.map fun e => rd e 0 8).getD 0
      toLe 4 (if p.1 == hubLog then unitId s else p.1) ++ toLe 8 first ++ toLe 8 last ++ toLe 4 p.2.entries.length ++ toLe 4 p.2.refused
    (readout r.version [] ((s.mem.logs.drop from_).map item) (from_ + ·), s)) s
def execEvrGetMirror (r : Request) (s : State) : Host.Outcome State Fault Refusal :=
  .next (finish 0x1205 r (evrGetMirror r (begin_ r.after s)))

/-- EVR.CLEAR_MIRROR: the named logs become empty; what was stored is not stored again (R361). -/
def evrClearMirror (r : Request) (s : State) : Reply × State :=
  command { code := 0x1206, auth := authClear, params := [many tUnit 128] } s.build.hub r (fun b s =>
    let keys := (nums tUnit b).map (logKey · s)
    if keys.any (·.isNone) then (refuse stRange, s) else
    let clear (p : Nat × Log) : Nat × Log :=
      if keys.contains (some p.1) then (p.1, { p.2 with entries := [], refused := 0, written := 0 }) else p
    (okay [], { s with mem := { s.mem with logs := s.mem.logs.map clear } })) s
def execEvrClearMirror (r : Request) (s : State) : Host.Outcome State Fault Refusal :=
  .next (finish 0x1206 r (evrClearMirror r (begin_ r.after s)))

/-- SRM.GET: bank states, repairs in use and ignored, corrected and scrubbed errors per bank. -/
def srmGet (r : Request) (s : State) : Reply × State :=
  command { code := 0x1301, auth := authRead } true r (fun _ s =>
    let m := s.mem
    (okay [stBytes 0 (m.banks.map (BitVec.ofNat 8 ·)), stU32 1 m.repairs.length, stU32 2 m.ignoredRepairs,
      stBytes 3 (m.corrected.flatMap fun p => toLe 1 p.1 ++ toLe 3 p.2),
      stBytes 4 (m.scrubbed.flatMap fun p => toLe 1 p.1 ++ toLe 3 p.2)], s)) s
def execSrmGet (r : Request) (s : State) : Host.Outcome State Fault Refusal :=
  .next (finish 0x1301 r (srmGet r (begin_ r.after s)))

/-- SRM.SET_BANK (R367): accepted, the banks begin to change; the reply follows the last of them. -/
def srmSetBank (r : Request) (s : State) : Option Reply × State :=
  let (rep, s') := command { code := 0x1302, params := [many tIndex 256, must tChoice] } true r (fun b s =>
    let bs := dedup (nums tIndex b)
    let target := choice b
    if bs.any (neverBank s.build.hub) then (refuse stPermit, s)
    else if bs.any (fun b => b < s.mem.banks.length && target != 0 && !mayLeaveOn b s) then (refuse stState, s)
    else if bs.any (· ≥ s.mem.banks.length) then (refuse stRange, s)
    else if target > 2 then (refuse stBadParam, s)
    else if s.mem.bankReply.isSome then (refuse stBusy, s)
    else
      let ch := bs.filter fun b => s.mem.banks.getD b 0 != target
      if ch.isEmpty then (okay [], s) else
      let mark (banks : List Nat) : List Nat := ch.foldl (fun l b => modifyAt b (fun _ => 3) l) banks
      (okay [], { s with mem := { s.mem with banks := mark s.mem.banks
                                             changing := ch.map fun b => (b, s.mem.banks.getD b 0, target)
                                             bankReply := some (r, ch) } })) s
  (if s'.mem.bankReply == some (r, (s'.mem.changing.map (·.1))) && s.mem.bankReply.isNone then none else some rep, s')
def execSrmSetBank (r : Request) (s : State) : Host.Outcome State Fault Refusal :=
  match srmSetBank r (begin_ r.after s) with
  | (some rep, s) => .next (finish 0x1302 r (rep, s))
  | (none, s) => .next s

/-- SRM.GET_MAP. -/
def srmGetMap (r : Request) (s : State) : Reply × State :=
  command { code := 0x1303, auth := authRead } true r (fun _ s =>
    (okay ((bankMap s.build.hub).map fun (a, b, k) => record (toLe 2 a ++ toLe 2 b ++ toLe 4 k)), s)) s
def execSrmGetMap (r : Request) (s : State) : Host.Outcome State Fault Refusal :=
  .next (finish 0x1303 r (srmGetMap r (begin_ r.after s)))

end Sys2Proof.Machine
end

