-- ==== Sys2Proof/Machine/Glen.lean ====
section
/-! DEFINITION. The Glen engine: model pages, the walk, heads, modes, findings, the straggler rule and activation
(R196 to R222). -/
namespace Sys2Proof.Machine

/-! ### Model pages (R196 to R200) -/

def parseHead (b : Bytes) : Head :=
  { purpose := byteAt b 0, findings := bit (byteAt b 1) 0, attribute_ := bit (byteAt b 1) 1, k := byteAt b 2, n := byteAt b 3, kinds := byteAt b 4
    repeat_ := rd b 6 2, base := BitVec.ofNat 32 (rd b 8 4), service := BitVec.ofNat 32 (rd b 12 4), link := BitVec.ofNat 32 (rd b 16 4) }

def parseNode (b : Bytes) : Node :=
  { feature := bits (rd b 4 4) 20 12, always := bit (byteAt b 6) 0, threshold := BitVec.ofNat 32 (rd b 0 4) }

/-- Bytes that a tree of depth d takes (R197). -/
def treeSize (d : Nat) : Nat := 12 * 2 ^ d - 8

/-- A directory entry (Table GLN-3): head, depth, offset in bytes. -/
def dirEntry (img : Bytes) (i : Nat) : Nat × Nat × Nat :=
  let w := rd img (576 + 4 * i) 4
  (bits w 24 4, bits w 20 4, 8 * bits w 0 20)

/-- Bytes of the nodes and of the leaves of a tree. -/
def nodeBytes (img : Bytes) (d off : Nat) : List Bytes := records 8 (slice img off (8 * (2 ^ d - 1)))
def leafBytes (img : Bytes) (d off : Nat) : List Bytes := records 4 (slice img (off + 8 * (2 ^ d - 1)) (4 * 2 ^ d))

def parsePage (img : Bytes) : Page :=
  { version := rd img 0 4, engine := bits (byteAt img 7) 0 3, engines := bits (byteAt img 7) 4 3 + 1, features := rd img 10 2
    tableVersion := rd img 12 4, firstTree := rd img 16 4, modelTrees := rd img 20 4
    heads := ((List.range (byteAt img 6)).map fun h => parseHead (slice img (64 + 32 * h) 32))
    trees := (List.range (rd img 8 2)).map fun i =>
      let (h, d, off) := dirEntry img i
      { head := h, depth := d, nodes := (nodeBytes img d off).map parseNode, leaves := (leafBytes img d off).map fun b => BitVec.ofNat 32 (le b) }
    image := img }

def headBad (b : Bytes) : Bool :=
  let h := parseHead b
  (8 ≤ h.purpose && h.purpose ≤ 127) || byteAt b 1 ≥ 4 || h.k == 0 || h.k > 16 || h.n < h.k || h.n > 16 || h.kinds == 0 || byteAt b 5 != 0 ||
  !isFinite32 h.base || isNaN32 h.service || isNaN32 h.link || f32neg h.link || flt32 0x3F800000#32 h.link || !allZero (slice b 20 12)

/-- End of the directory, padded to 8 B. -/
def dirEnd (n : Nat) : Nat := 576 + (4 * n + 7) / 8 * 8

/-- Where each tree begins and ends breaks R199; `lo` is the end of what stands before. -/
def placesBad (img : Bytes) (stop : Nat) : List Nat → Nat → Bool
  | [], _ => false
  | i :: r, lo =>
    let (_, d, off) := dirEntry img i
    off < lo || off + treeSize d > stop || placesBad img stop r (off + treeSize d)

/-- The nodes of a tree keep their reserved bits 0 and hold no NaN; its leaves are finite (R197, R198). -/
def treeBad (img : Bytes) (d off : Nat) : Bool :=
  (nodeBytes img d off).any (fun b => bits (rd b 4 4) 17 3 != 0 || bits (rd b 4 4) 0 16 != 0 || isNaN32 (BitVec.ofNat 32 (rd b 0 4))) ||
  (leafBytes img d off).any fun b => !isFinite32 (BitVec.ofNat 32 (le b))

/-- BAD_PARAM of Table GLN-6. -/
def pageParamBad (img : Bytes) (s : State) : Bool :=
  let n := rd img 8 2
  let hc := byteAt img 6
  let stop := img.length - 128
  let dirs := (List.range n).map (dirEntry img)
  let other := s.glen.staged.find? fun p => p.version == rd img 0 4 && p.engine != bits (byteAt img 7) 0 3
  bit (byteAt img 7) 3 || bit (byteAt img 7) 7 || !allZero (slice img 28 36) || rd img 0 4 == 0 || rd img 12 4 == 0 ||
  (List.range (min hc 16)).any (fun h => headBad (slice img (64 + 32 * h) 32)) || !allZero (slice img (64 + 32 * hc) (32 * (16 - hc))) ||
  (List.range n).any (fun i => bits (rd img (576 + 4 * i) 4) 28 4 != 0) || dirs.any (fun e => e.2.1 == 0 || e.2.1 > 12 || e.1 ≥ hc) ||
  !allZero (slice img (576 + 4 * n) (dirEnd n - 576 - 4 * n)) || dirEnd n > stop || placesBad img stop (List.range n) (dirEnd n) ||
  dirs.any (fun e => treeBad img e.2.1 e.2.2) ||
  (!s.build.hub && (bits (byteAt img 7) 0 3 != 0 || bits (byteAt img 7) 4 3 != 0 || rd img 16 4 != 0)) ||
  (s.build.hub && (match other with
    | some p => slice p.image 64 512 != slice img 64 512
    | none => false))

/-- OUT_OF_RANGE of Table GLN-6, and more heads than Table SCO-4 allows (R4). -/
def pageRangeBad (img : Bytes) (s : State) : Bool :=
  let p := parsePage img
  let n := rd img 8 2
  n == 0 || n > 4096 || byteAt img 6 > 16 || p.features == 0 || p.features > 1024 || p.trees.any (fun t => t.nodes.any fun x => x.feature ≥ p.features) ||
  (s.build.hub && p.firstTree + n > p.modelTrees)

/-- Page size of R196. -/
def pageLimit (s : State) : Nat := if s.build.hub then 6291456 else 786432

/-- R200: a whole page staged, or refused with the first code of Table GLN-6. -/
def stagePage (img : Bytes) (s : State) : Reply × State :=
  if (pendOf 0x0A02 0 s).isSome || (pendOf 0x0A03 0 s).isSome then (refuse stBusy, s)
  else if !verified 2 img s then (refuse stSig, s)
  else if rd img 4 2 != 1 || rd img 24 4 != img.length then (refuse stFormat, s)
  else if pageParamBad img s then (refuse stBadParam, s)
  else if pageRangeBad img s then (refuse stRange, s)
  else
    let p := parsePage img
    let rest := s.glen.staged.filter (·.engine != p.engine)
    (okay [], { s with glen := { s.glen with staged := if s.build.hub then insertBy (fun a b => a.engine < b.engine) p rest else [p] } })

/-! ### The walk (R201 to R203) -/

/-- The word of a lane buffer past the assembled vector: a free value, since no rule fills it. -/
def bufferWord (draw i : Nat) : F32 := BitVec.ofNat 32 (le ((List.range 4).map fun k => Config.freeByte draw (4 * i + k)))

/-- Leaf, deepest deciding feature, and UNENCODED of a walk from node `i`. -/
def walkTree (t : Tree) (v : Nat → F32) : Nat → Nat → Option Nat → Bool → F32 × Option Nat × Bool
  | 0, i, deep, un => (t.leaves.getD (i - (2 ^ t.depth - 1)) 0, deep, un)
  | k + 1, i, deep, un =>
    match t.nodes[i]? with
    | none => (0, deep, un)
    | some n =>
      if n.always then walkTree t v k (2 * i + 1) deep un
      else
        let x := v n.feature
        if isNaN32 x then walkTree t v k (2 * i + 1) (some n.feature) true
        else if fle32 x n.threshold then walkTree t v k (2 * i + 1) (some n.feature) un
        else walkTree t v k (2 * i + 2) (some n.feature) un

def walked (v : Nat → F32) (t : Tree) : F32 × Option Nat × Bool := walkTree t v t.depth 0 none false

/-! ### Heads (R204 to R207) -/

/-- The active model's heads, those of engine 0. -/
def activeHeads (s : State) : List Head := (s.glen.active.head?.map (·.heads)).getD []

/-- A head's trees, in model-wide order. -/
def headTrees (h : Nat) (s : State) : List Tree := s.glen.active.flatMap fun p => p.trees.filter (·.head == h)

/-- The exact head sum in units of 2^-149 (R205), credits by feature, and UNENCODED. -/
def headSum (h : Nat) (hd : Head) (v : Nat → F32) (s : State) : Int × List (Nat × Int) × Bool :=
  (headTrees h s).foldl (fun (acc : Int × List (Nat × Int) × Bool) t =>
    let (leaf, deep, un) := walked v t
    let cr := match deep with
      | some f => tput f (tget 0 f acc.2.1 + f32scaled leaf) acc.2.1
      | none => acc.2.1
    (acc.1 + f32scaled leaf, cr, acc.2.2 || un)) (f32scaled hd.base, [], false)

/-- z_h of a head sum. -/
def headZ (v : Int) : F32 := round32 v (2 ^ 149)

/-- E[k] of R207, the integer nearest 2^(30 − k/64), found as the rounded 64th root. -/
def expTableF : Nat → Nat → Nat → Nat → Nat
  | 0, lo, _, _ => lo
  | n + 1, lo, hi, k =>
    -- the largest m with (2 m − 1)^64 ≤ 2^64 × 2^(64 × 30 − k)
    let mid := (lo + hi + 1) / 2
    if (2 * mid - 1) ^ 64 ≤ 2 ^ (64 * 31 - k) then expTableF n mid hi k else expTableF n lo (mid - 1) k
def expTable (k : Nat) : Nat := expTableF 31 1 (2 ^ 30) k

/-- Intermediates of R207: Z, U, q, k, r, G, P, M, D, y, and the output. -/
structure Link where
  z : Nat
  u : Nat
  q : Nat
  k : Nat
  r : Nat
  g : Nat
  p : Nat
  m : Nat
  d : Nat
  y : Nat
  out : F32

/-- |z| × 2^24 rounded to nearest-even, for |z| below 32 (R207). -/
def linkZ (z : F32) : Nat :=
  let a := z &&& 0x7FFFFFFF#32
  if fle32 0x42000000#32 a then 2 ^ 29 else
  let n := (f32scaled a).toNat
  let q := 2 ^ 125
  let m := n / q
  let r := n % q
  if 2 * r > q || (2 * r == q && m % 2 == 1) then m + 1 else m

/-- logistic(z) (R207). -/
def logistic (z : F32) : Link :=
  let zz := linkZ z
  let u := (zz * 6196328019 + 2 ^ 31) / 2 ^ 32
  let q := u / 2 ^ 24
  let f := u % 2 ^ 24
  let k := f / 2 ^ 18
  let r := f % 2 ^ 18
  let g := (r * 2977044472 + 2 ^ 25) / 2 ^ 26
  let p := 2 ^ 30 - g + (g * g + 2 ^ 30) / 2 ^ 31
  let m := (expTable k * p + 2 ^ 29) / 2 ^ 30
  let d := if q ≥ 31 then 2 ^ 30 else 2 ^ 30 + m / 2 ^ q
  let y := (2 ^ 54 + d / 2) / d
  let y := if f32neg z then 2 ^ 24 - y else y
  ⟨zz, u, q, k, r, g, p, m, d, y, round32 (y : Int) (2 ^ 24)⟩

/-- The head output of the mode (R206). -/
def headOutput (mode : Nat) (z : F32) : F32 := if mode == 0 then z else (logistic z).out

/-- The lane's view of an entity's vector. -/
def laneVector (e : Nat) (s : State) : Nat → F32 :=
  let v := (vectorOf e s).map (·.1)
  fun i => (v[i]?).getD (bufferWord s.glen.draw i)

/-- Kind of a defined entity. -/
def kindOf (e : Nat) (s : State) : Option Nat := ((s.fea.active.bind fun t => tfind e t.entities)).map (·.kind)

/-- Heads that apply to an entity, with their numbers. -/
def headsFor (kind : Nat) (s : State) : List (Head × Nat) := (activeHeads s).zipIdx.filter fun h => bit h.1.kinds kind

/-- Entities to evaluate, ascending (R209). -/
def evalEntities (s : State) : List Nat :=
  if s.glen.active.isEmpty then [] else
  match s.fea.active with
  | none => []
  | some t => (t.entities.filter fun p => !(headsFor p.2.kind s).isEmpty).map (·.1)

/-- In the order of R28, from the rotation cursor. -/
def evalOrder (s : State) : List Nat :=
  let es := evalEntities s
  (es.filter (s.frame.cursor ≤ ·)) ++ es.filter (· < s.frame.cursor)

/-! ### Histories and findings (R213 to R216) -/

/-- Bits set among the last n. -/
def popLast (b n : Nat) : Nat := ((List.range n).filter fun i => bit b i).length

/-- A history takes one bit: the history after, and whether an episode begins or repeats. -/
def shiftHist (h : Hist) (one : Bool) (k n rep frame : Nat) : Hist × Bool :=
  let b := (2 * h.bits + b2n one) % 65536
  let holds := popLast b n ≥ k
  let begins := holds && !h.holds
  let again := holds && h.holds && rep != 0 && (match h.lastFinding with
    | some f => decide (f + rep ≤ frame)
    | none => false)
  ({ bits := b, holds := holds, lastFinding := if begins || again then some frame else if holds then h.lastFinding else none }, begins || again)

/-- The three features with the largest nonzero credits (R214). -/
def topCredits (cr : List (Nat × Int)) : List (Nat × F32) :=
  let l := (cr.map fun p => (p.1, headZ p.2)).filter fun p => f32mant p.2 != 0 || isInf32 p.2
  (sortBy (fun a b => key32 b.2 < key32 a.2 || (key32 a.2 == key32 b.2 && a.1 < b.1)) l).take 3

/-- A finding record (Table GLN-9). -/
def findingBytes (b0 purpose kind entity : Nat) (score : F32) (tops : List (Nat × F32)) (blame : Option (Nat × Nat)) (s : State) : Bytes :=
  let feats := (List.range 3).flatMap fun i => toLe 2 ((tops[i]?.map (·.1)).getD 0xFFFF)
  let creds := (List.range 3).flatMap fun i => toLe 4 ((tops[i]?.map (·.2.toNat)).getD 0)
  toLe 1 b0 ++ toLe 1 purpose ++ toLe 2 (entity + 4096 * kind) ++ toLe 4 (dieId s) ++ toLe 8 (curFrame s) ++ toLe 4 score.toNat ++ feats ++ zeros 2 ++
    creds ++ (match blame with | some (die, st) => toLe 4 (die + 2 ^ 31) ++ toLe 2 st | none => zeros 6) ++ zeros 2

/-- Keep a finding: the ring of R216, and on a die unit the queue of those that wait for a contribution (R30). -/
def keepFinding (b : Bytes) (s : State) : State :=
  { s with glen := { s.glen with ring := lastN 256 (s.glen.ring ++ [b]), raisedNow := s.glen.raisedNow ++ [b] }
           frame := if s.build.hub then s.frame else { s.frame with carryFindings := s.frame.carryFindings ++ [b] } }

/-- The stream with the largest held lateness: lateness, source die, stream entity (R218). -/
def blamed (s : State) : Option (Nat × Nat × Nat) :=
  let l := s.win.streams.filterMap fun p => p.2.lateHeld.map fun x => (x.1, x.2, p.1)
  bestBy (fun a b => a.1 > b.1) l

/-- What the evaluation of a head on an entity comes to. -/
structure HeadResult where
  head : Nat
  hd : Head
  out : F32
  hist : Hist
  raised : Bool
  credits : List (Nat × Int)

/-- Evaluate an entity (R205, R206, R213). -/
def evalEntity (e kind : Nat) (s : State) : List HeadResult :=
  let v := laneVector e s
  (headsFor kind s).map fun (hd, h) =>
    let (sum, cr, _) := headSum h hd v s
    let out := headOutput s.glen.mode (headZ sum)
    let (hist, go) := shiftHist (tget {} (16 * e + h) s.glen.hists) (fle32 (if s.glen.mode == 0 then hd.service else hd.link) out) hd.k hd.n hd.repeat_ (curFrame s)
    ⟨h, hd, out, hist, go && hd.findings, cr⟩

/-- Walk cycles of a set of trees (R209). -/
def walkCycles (ts : List Tree) : Nat := sumN (ts.map fun t => t.depth + 1)

/-- Cycles that a lane takes over an entity: the slowest engine's walk, second walks for attribution, and 4 (R209, R210, R214). -/
def laneCycles (e kind : Nat) (s : State) : Nat :=
  let heads := (headsFor kind s).map (·.2)
  let second := ((evalEntity e kind s).filter fun r => r.raised && r.hd.attribute_).map (·.head)
  let engine (p : Page) : Nat := walkCycles (p.trees.filter fun t => heads.contains t.head) + walkCycles (p.trees.filter fun t => second.contains t.head)
  (s.glen.active.map engine).foldl max 0 + 4

/-- Cycles to fill a lane (Table FEA-8). -/
def fillCycles (s : State) : Nat := (((s.fea.active.map (·.features.length)).getD 0) + 15) / 16 + 8

/-- Give the next entity to a lane, if one waits. -/
def assignLane (l : Nat) (s : State) : State :=
  match s.glen.todo with
  | [] => s
  | e :: r =>
    let filled := max s.glen.fillEnd s.pwr.cycles + fillCycles s
    let done := filled + laneCycles e ((kindOf e s).getD 0) s
    { s with glen := { s.glen with todo := r, fillEnd := filled, lanes := modifyAt l (fun _ => some e) s.glen.lanes
                                   laneEnds := modifyAt l (fun _ => done) s.glen.laneEnds } }

/-- Step 4 begins (R209). -/
def startStep4 (s : State) : State :=
  let s := { s with glen := { s.glen with todo := evalOrder s, lanes := List.replicate 16 none, laneEnds := List.replicate 16 0, fillEnd := s.pwr.cycles
                                          doneE := [], outputs := [], draw := s.free }
                    free := s.free + 1 }
  (List.range 16).foldl (fun s l => assignLane l s) s

/-- The instant at which step 4 ends: the send cutoff, or a hub's return mark (R194). -/
def evalStop (s : State) : Nat := if s.build.hub then markAt s.frame.params.ret s else cutoffAt s

/-- Record one head's result. -/
def applyHead (e kind : Nat) (r : HeadResult) (s : State) : State :=
  let s := { s with glen := { s.glen with hists := tput (16 * e + r.head) r.hist s.glen.hists, outputs := tput (16 * e + r.head) r.out s.glen.outputs } }
  if !r.raised then s else
  let blame := if r.hd.purpose == 1 then (blamed s).bind fun b => if b.1 > 0 then some (b.2.1, b.2.2) else none else none
  keepFinding (findingBytes (16 * s.glen.mode + r.head) r.hd.purpose kind e r.out (if r.hd.attribute_ then topCredits r.credits else []) blame s) s

/-- No busy lane is free earlier than lane `l`, the lower lane first on a tie. -/
def nextLane (l : Nat) (s : State) : Bool :=
  let t := s.glen.laneEnds.getD l 0
  (List.range 16).all fun k => (s.glen.lanes.getD k none).isNone || t < s.glen.laneEnds.getD k 0 || (t == s.glen.laneEnds.getD k 0 && l ≤ k)

/-- ENTITY_EVALUATED (R209, R213): the lane has rounded its heads before the cutoff; the lane takes the next entity. -/
def execEntityEvaluated (lane : Nat) (s : State) : Host.Outcome State Fault Refusal :=
  let s := s.fresh
  match s.glen.lanes.getD lane none with
  | none => .next s
  | some e =>
    if !working s || s.frame.step != .evaluate || !nextLane lane s then .next s else
    let t := advanceCycles (s.glen.laneEnds.getD lane 0) s
    if t.time.now > evalStop s then .next s else
    let kind := (kindOf e s).getD 0
    let rs := evalEntity e kind t
    let s := rs.foldl (fun s r => applyHead e kind r s) t
    let s := { s with glen := { s.glen with doneE := s.glen.doneE ++ [e], lanes := modifyAt lane (fun _ => none) s.glen.lanes } }
    .next (assignLane lane s)

/-- Evaluation stops (R27, R28): lanes stop, and the cursor goes to the first entity not evaluated. Steps 1 and 2 go on where
they have not ended. The cursor is set here, so the contribution's header carries the next frame's (the model's choice: R28
does not say which of the two the header carries, log entry 126). -/
def stopStep4 (s : State) : State :=
  let left := (evalOrder s).filter fun e => !s.glen.doneE.contains e
  { s with glen := { s.glen with todo := [], lanes := List.replicate 16 none, lastEvaluated := s.glen.doneE.length }
           frame := { s.frame with
             evaluated := s.glen.doneE.length, cursor := left.head?.getD 0, cutoff := true
             step := if s.frame.step == .evaluate then .sent else s.frame.step } }

/-! ### The straggler rule (R217, R218) -/

/-- Own value, p50, p999 and nanoseconds per unit, when the frame has them all. -/
def ruleInputs (s : State) : Option (F32 × F32 × F32 × Nat) :=
  match summaryInUse s, (dieCatalogue s).bind fun c => c.metrics.find? (·.index == s.glen.rule.metric) with
  | some (_, b), some m =>
    if !(m.sketch && m.ret && (m.unit == 2 || m.unit == 3)) then none else
    (match metricEntry b s.frame.group m.index, ownValue m.index 0 0 s with
     | some e, some o =>
       let p50 := returnedPercentile e 1
       let p999 := returnedPercentile e 4
       if p50.2 == 3 || p999.2 == 3 then none else some (o, p50.1, p999.1, if m.unit == 3 then 1000 else 1)
     | _, _ => none)
  | _, _ => none

/-- The blamed lateness is at least half of the rule's, in ns (R218). -/
def halfLate (late : F64) (scale ns : Nat) : Bool :=
  if isNaN64 late then false else if isInf64 late then f64neg late
  else decide (f64scaled late * scale ≤ 2 * (ns : Int) * 2 ^ 1074)

/-- The rule runs after step 4. -/
def stragglerRule (s : State) : State :=
  let r := s.glen.rule
  if !r.on || s.build.hub then s else
  let inp := ruleInputs s
  let late := match inp with
    | some (o, _, p999, _) => flt64 (fadd (widen p999) (widen r.margin)) (widen o)
    | none => false
  let (h, go) := shiftHist s.glen.ruleHist late r.k r.n 0 (curFrame s)
  let s := { s with glen := { s.glen with ruleHist := h } }
  match inp with
  | some (o, p50, p999, scale) =>
    if !go then s else
    let lateness := fsub (widen o) (widen p50)
    let blame := (blamed s).bind fun b => if halfLate lateness scale b.1 then some (b.2.1, b.2.2) else none
    let rec_ := findingBytes (128 + 16 * s.glen.mode) 1 0 0 (narrow lateness) [] blame s
    keepFinding (splice rec_ 28 (toLe 4 o.toNat ++ toLe 4 p50.toNat ++ toLe 4 p999.toNat)) s
  | none => s

/-! ### Modes and activation (R212, R219 to R221) -/

def clearHists (s : State) : State := { s with glen := { s.glen with hists := [] } }

/-- Enter a mode at a tick. -/
def enterMode (m : Nat) (s : State) : State :=
  let s := if s.glen.mode == m then s else clearHists s
  { s with glen := { s.glen with mode := m, modeSince := curFrame s } }

/-- START_UP_SPAN_ELAPSED (R212): once, at a tick, before step 4 of its frame, from whatever mode; only a GLEN.SET_MODE since reset
keeps the mode. -/
def execStartUpSpanElapsed (s : State) : Host.Outcome State Fault Refusal :=
  let s := s.fresh
  .next (match s.glen.firstAct with
    | some f =>
      if working s && !s.glen.started && !s.glen.modeSet && s.frame.step == .snapshot && f + s.glen.startSpan ≤ curFrame s then
        enterMode 0 { s with glen := { s.glen with started := true } }
      else s
    | none => s)

/-- RECOVERY_SPAN_ELAPSED (R212). -/
def execRecoverySpanElapsed (s : State) : Host.Outcome State Fault Refusal :=
  let s := s.fresh
  .next (if working s && s.glen.mode == 3 && s.frame.step == .snapshot && s.glen.modeSince + s.glen.recSpan ≤ curFrame s then enterMode 0 s else s)

def modelVersion (ps : List Page) : Nat := (ps.head?.map (·.version)).getD 0

/-- MODEL_ACTIVATED. -/
def modelEntry (old new engines : Nat) (s : State) : State := ownEntry 0x0F31 0 0 (toLe 4 old ++ toLe 4 new ++ toLe 1 engines) s

/-- The staged pages of a version. -/
def stagedModel (v : Nat) (s : State) : List Page := s.glen.staged.filter (·.version == v)

/-- Tree ranges follow one another from `n` (R219). -/
def rangesFollow : List Page → Nat → Nat → Nat → Bool
  | [], _, n, total => n == total
  | p :: r, e, n, total => p.engine == e && p.firstTree == n && rangesFollow r (e + 1) (n + p.trees.length) total

/-- The staging holds the model complete (R219). -/
def modelComplete (v : Nat) (s : State) : Bool :=
  let ps := stagedModel v s
  match ps.head? with
  | none => false
  | some p => if s.build.hub then
      let qs := ps.take p.engines
      qs.length == p.engines && rangesFollow qs 0 0 p.modelTrees
    else true

/-- GLEN.ACTIVATE at its tick, after any table activation (R220). -/
def activateModel (v : Nat) (s : State) : State :=
  let ps := stagedModel v s
  match ps.head? with
  | none => s
  | some p =>
    let ps := ps.take p.engines
    let tv := (s.fea.active.map (·.version)).getD 0
    let fc := (s.fea.active.map (·.features.length)).getD 0
    let d := toLe 4 v ++ toLe 4 p.tableVersion ++ toLe 4 tv
    if ps.any fun q => q.tableVersion != tv || q.features > fc then
      ownEntry 0x0F32 0 0 d (raiseOwn 0x10 1 0x8003 0 0 d s)
    else
      let old := s.glen.active
      let s := clearHists s
      let g := { s.glen with staged := old, firstAct := s.glen.firstAct.or (some (curFrame s)), side := if s.build.hub then s.glen.side else 1 - s.glen.side }
      let g := if s.build.hub then { g with active := [], coming := ps } else { g with active := ps }
      modelEntry (modelVersion old) v ps.length { s with glen := g }

/-- GLEN.DEACTIVATE at its tick (R221). -/
def deactivateModel (s : State) : State :=
  let old := s.glen.active
  if old.isEmpty then s else
  let s := clearHists s
  modelEntry (modelVersion old) 0 old.length
    { s with glen := { s.glen with active := [], coming := [], staged := old, side := if s.build.hub then s.glen.side else 1 - s.glen.side } }

/-- A hub's copied pages come into use in the frame after their activation (R220). -/
def hubModelReady (s : State) : State :=
  if s.glen.coming.isEmpty then s else { s with glen := { s.glen with active := s.glen.coming, coming := [] } }

/-- GLEN.SET_STRAGGLER at its tick: the rule's history clears when the settings change (R217). -/
def setStraggler (r : Straggler) (s : State) : State :=
  { s with glen := { s.glen with rule := r, ruleHist := if r == s.glen.rule then s.glen.ruleHist else {} } }

/-- GLEN.SET_MODE at its tick: a mode that it leaves out stays (R376); any of them has taken effect since reset (R212). -/
def setMode (mode start recov : Option Nat) (s : State) : State :=
  let s := { s with glen := { s.glen with startSpan := start.getD s.glen.startSpan, recSpan := recov.getD s.glen.recSpan, modeSet := true } }
  match mode with
  | some m => enterMode m s
  | none => s

/-! ### Commands (R222) -/

/-- Where a page is staged can be used: a die unit's staging page is on (R367), a hub's store is usable, which holds its
staged pages (R220, R465). -/
def stagingReady (s : State) : Bool := if s.build.hub then storeUsable s else banksOn (stagingBank s) 6 s

/-- A staged model can be activated: a hub's engines that take its pages have their banks on (R219, R367). -/
def pagesReady (v : Nat) (s : State) : Bool :=
  stagingReady s && modelComplete v s &&
    (!s.build.hub || banksOn 4 (24 * (((stagedModel v s).head?.map (·.engines)).getD 0)) s)

/-- GLEN.STAGE_PAGE. -/
def glenStagePage (r : Request) (s : State) : Reply × State :=
  command { code := 0x0A01, params := if s.build.hub then [must tIndex, must tPiece] else [must tPiece] } true r (fun b s =>
    let e := num tIndex b
    let head := openingPiece b
    let clear (g : Glen) : Glen := { g with staged := if s.build.hub then g.staged.filter (·.engine != e) else [] }
    let k : Slot := { key := 0x0A01 + 65536 * e, limit := pageLimit s, busy := (pendOf 0x0A02 0 s).isSome || (pendOf 0x0A03 0 s).isSome
                      mismatch := s.build.hub && head.length ≥ 8 && bits (byteAt head 7) 0 3 != e
                      cleared := { s with glen := clear s.glen } }
    if !stagingReady s then (refuse stState, s) else
    match takePiece k r.session b s with
    | .done rep s => (rep, s)
    | .whole img s => stagePage img s) s
def execGlenStagePage (r : Request) (s : State) : Host.Outcome State Fault Refusal :=
  .next (finish 0x0A01 r (glenStagePage r (begin_ r.after s)))

/-- A change of the active model: at most one activation or deactivation is pending (R219). -/
def deferModel (code f : Nat) (c : Change) (s : State) : Reply × State :=
  if f ≤ curFrame s then (refuse stRange, s) else
  let old := (pendOf 0x0A02 0 s).or (pendOf 0x0A03 0 s)
  ({ status := stDeferred, tlvs := effect f :: (old.map fun p => (⟨tReplaced, toLe 8 p.frame⟩ : Tlv)).toList },
    setPend ⟨code, 0, f, c⟩ (dropPend 0x0A03 0 (dropPend 0x0A02 0 s)))

/-- GLEN.ACTIVATE (R219). -/
def glenActivate (r : Request) (s : State) : Reply × State :=
  command { code := 0x0A02, params := [must tFrame, must tVersion] } true r (fun b s =>
    let f := num tFrame b
    let v := num tVersion b
    if f ≤ curFrame s then (refuse stRange, s)
    else if !pagesReady v s then (refuse stState, s)
    else deferModel 0x0A02 f (.glenActivate v) s) s
def execGlenActivate (r : Request) (s : State) : Host.Outcome State Fault Refusal :=
  .next (finish 0x0A02 r (glenActivate r (begin_ r.after s)))

/-- GLEN.DEACTIVATE (R221). -/
def glenDeactivate (r : Request) (s : State) : Reply × State :=
  command { code := 0x0A03, params := [must tFrame] } true r (fun b s =>
    if s.glen.active.isEmpty then (refuse stState, s) else deferModel 0x0A03 (num tFrame b) .glenDeactivate s) s
def execGlenDeactivate (r : Request) (s : State) : Host.Outcome State Fault Refusal :=
  .next (finish 0x0A03 r (glenDeactivate r (begin_ r.after s)))

/-- Frames left in START_UP or RECOVERY. -/
def modeLeft (s : State) : Nat :=
  match s.glen.mode, s.glen.firstAct with
  | 1, some f => if s.glen.modeSet then 0 else f + s.glen.startSpan - curFrame s
  | 1, none => s.glen.startSpan
  | 3, _ => s.glen.modeSince + s.glen.recSpan - curFrame s
  | _, _ => 0

/-- The rule's settings in the order GLEN.SET_STRAGGLER names them. -/
def ruleSettings (r : Straggler) : List Tlv := [setU8 3 (b2n r.on), setU32 4 r.metric, setU32 5 r.margin.toNat, setU32 6 r.k, setU32 7 r.n]

/-- GLEN.GET: settings 0 to 2 mode and spans, 3 to 7 the straggler rule; a pending activation shows its model version as setting 8,
a deactivation 0; one record per page, header and head table. -/
def glenGet (r : Request) (s : State) : Reply × State :=
  command { code := 0x0A04, auth := authRead, params := [may tOffset] } true r (fun b s =>
    let g := s.glen
    let act := (pendOf 0x0A02 0 s).or (pendOf 0x0A03 0 s)
    let modeP := (pendOf 0x0A05 0 s).map fun p => match p.change with
      | .glenMode m a c => pending_ p.frame ([m.map (setU32 0), a.map (setU32 1), c.map (setU32 2)].filterMap id)
      | _ => pending_ p.frame []
    let ruleP := (pendOf 0x0A06 0 s).map fun p => match p.change with
      | .straggler x => pending_ p.frame (ruleSettings x)
      | _ => pending_ p.frame []
    let vers (ps : List Page) : Bytes := (List.range 8).flatMap fun e => toLe 4 (((ps.find? (·.engine == e)).map (·.version)).getD 0)
    let from_ := num tOffset b
    let items := ((g.active ++ g.staged).map fun p => p.image.take 576).drop from_
    (readout r.version ([setU32 0 g.mode, setU32 1 g.startSpan, setU32 2 g.recSpan] ++ ruleSettings g.rule ++
      (act.map fun p => pending_ p.frame [setU32 8 (match p.change with | .glenActivate v => v | _ => 0)]).toList ++ modeP.toList ++ ruleP.toList ++
      [stBytes 0 (vers g.active), stBytes 1 (vers g.staged), stU32 2 (modeLeft s), stU32 3 g.lastEvaluated, stU32 4 s.frame.cursor,
       stU32 5 g.active.length, stU32 6 g.staged.length]) items (from_ + ·), s)) s
def execGlenGet (r : Request) (s : State) : Host.Outcome State Fault Refusal :=
  .next (finish 0x0A04 r (glenGet r (begin_ r.after s)))

/-- GLEN.SET_MODE (R212). -/
def glenSetMode (r : Request) (s : State) : Reply × State :=
  command { code := 0x0A05, params := [must tFrame, setting 0 4, setting 1 4, setting 2 4] } true r (fun b s =>
    let f := num tFrame b
    if (set? 0 b).getD 0 == 1 || (set? 0 b).getD 0 > 3 then (refuse stBadParam, s)
    else if (set? 1 b).getD 0 > 65535 || (set? 2 b).getD 0 > 65535 || f ≤ curFrame s then (refuse stRange, s)
    else defer 0x0A05 0 f (.glenMode (set? 0 b) (set? 1 b) (set? 2 b)) s) s
def execGlenSetMode (r : Request) (s : State) : Host.Outcome State Fault Refusal :=
  .next (finish 0x0A05 r (glenSetMode r (begin_ r.after s)))

/-- GLEN.SET_STRAGGLER (R217). -/
def glenSetStraggler (r : Request) (s : State) : Reply × State :=
  command { code := 0x0A06, params := [must tFrame, setting 0 1, setting 1 4, setting 2 4, setting 3 4, setting 4 4] } (isDie s) r (fun b s =>
    let o := s.glen.rule
    let on := (set? 0 b).getD (b2n o.on)
    let x : Straggler := { on := on == 1, metric := (set? 1 b).getD o.metric, margin := BitVec.ofNat 32 ((set? 2 b).getD o.margin.toNat)
                           k := (set? 3 b).getD o.k, n := (set? 4 b).getD o.n }
    let f := num tFrame b
    if x.metric > 1023 || x.k == 0 || x.k > 16 || x.n < x.k || x.n > 16 || f ≤ curFrame s then (refuse stRange, s)
    else if on > 1 || !isFinite32 x.margin || (f32neg x.margin && f32mant x.margin != 0) then (refuse stBadParam, s)
    else defer 0x0A06 0 f (.straggler x) s) s
def execGlenSetStraggler (r : Request) (s : State) : Host.Outcome State Fault Refusal :=
  .next (finish 0x0A06 r (glenSetStraggler r (begin_ r.after s)))

/-- GLEN.EVAL: DATA holds overrides of 8 B, index and value; per applicable head its number, UNENCODED, z, logistic(z),
the top features, their credits, and the sum as a span. -/
def glenEval (r : Request) (s : State) : Reply × State :=
  command { code := 0x0A07, auth := authRead, params := [must tEntity, may tOffset, may tData] } true r (fun b s =>
    let e := num tEntity b
    let data := (val? tData b).getD []
    let ov := (records 8 data).map fun x => (rd x 0 4, (BitVec.ofNat 32 (rd x 4 4) : F32))
    let idx := ov.map (·.1)
    if data.length % 8 != 0 then (refuse stBadLength, s)
    else if s.glen.active.isEmpty then (refuse stState, s)
    else match kindOf e s with
    | none => (refuse stBadParam, s)
    | some kind =>
      let fc := (s.fea.active.map (·.features.length)).getD 0
      if (dedup idx).length != idx.length then (refuse stBadParam, s)
      else if idx.any (· ≥ fc) || ov.length > 192 then (refuse stRange, s)
      else
        let v (i : Nat) : F32 := match ov.find? (·.1 == i) with
          | some p => p.2
          | none => laneVector e (stepFour s) i
        let item (p : Head × Nat) : Bytes :=
          let (sum, cr, un) := headSum p.2 p.1 v s
          let z := headZ sum
          let tops := topCredits cr
          toLe 1 p.2 ++ toLe 1 (b2n un) ++ zeros 2 ++ toLe 4 z.toNat ++ toLe 4 (logistic z).out.toNat ++
            ((List.range 3).flatMap fun i => toLe 2 ((tops[i]?.map (·.1)).getD 0xFFFF)) ++ zeros 2 ++
            ((List.range 3).flatMap fun i => toLe 4 ((tops[i]?.map (·.2.toNat)).getD 0)) ++ spanBytes (sum * 2 ^ 149)
        let from_ := num tOffset b
        (readout r.version [] (((headsFor kind s).map item).drop from_) (from_ + ·), s)) s
def execGlenEval (r : Request) (s : State) : Host.Outcome State Fault Refusal :=
  .next (finish 0x0A07 r (glenEval r (begin_ r.after s)))

/-- GLEN.TEST_LINK. -/
def glenTestLink (r : Request) (s : State) : Reply × State :=
  command { code := 0x0A08, auth := authRead, params := [may tOffset, must tData] } true r (fun b s =>
    let data := (val? tData b).getD []
    let zs : List F32 := (records 4 data).map fun x => BitVec.ofNat 32 (le x)
    if data.length % 4 != 0 || data.length > 1024 then (refuse stBadLength, s)
    else if zs.any isNaN32 then (refuse stBadParam, s)
    else
      let item (z : F32) : Bytes :=
        let l := logistic z
        [l.z, l.u, l.q, l.k, l.r, l.g, l.p, l.m, l.d, l.y, l.out.toNat].flatMap (toLe 4)
      let from_ := num tOffset b
      (readout r.version [] ((zs.map item).drop from_) (from_ + ·), s)) s
def execGlenTestLink (r : Request) (s : State) : Host.Outcome State Fault Refusal :=
  .next (finish 0x0A08 r (glenTestLink r (begin_ r.after s)))

/-- GLEN.GET_FINDINGS: oldest first, from a frame. -/
def glenGetFindings (r : Request) (s : State) : Reply × State :=
  command { code := 0x0A09, auth := authRead, params := [must tFrame, may tOffset] } true r (fun b s =>
    let from_ := num tOffset b
    let l := s.glen.ring.filter fun x => num tFrame b ≤ rd x 8 8
    (readout r.version [] (l.drop from_) (from_ + ·), s)) s
def execGlenGetFindings (r : Request) (s : State) : Host.Outcome State Fault Refusal :=
  .next (finish 0x0A09 r (glenGetFindings r (begin_ r.after s)))

/-- GLEN.GET_HISTORY: ENTITY and INDEX (head) pairs by position. -/
def glenGetHistory (r : Request) (s : State) : Reply × State :=
  command { code := 0x0A0A, auth := authRead, params := [mayMany tIndex 256, mayMany tEntity 256, may tOffset] } true r (fun b s =>
    let es := nums tEntity b
    let hs := nums tIndex b
    if es.length != hs.length then (refuse stBadParam, s)
    else if es.any (· > 4095) || hs.any (· > 15) then (refuse stRange, s)
    else
      let item (p : Nat × Nat) : Bytes :=
        let h := tget {} (16 * p.1 + p.2) s.glen.hists
        toLe 2 p.1 ++ toLe 1 p.2 ++ toLe 1 (b2n h.holds) ++ toLe 2 h.bits ++ zeros 2
      let from_ := num tOffset b
      (readout r.version [stBytes 0 (toLe 2 s.glen.ruleHist.bits ++ toLe 1 (b2n s.glen.ruleHist.holds))] (((es.zip hs).map item).drop from_) (from_ + ·), s)) s
def execGlenGetHistory (r : Request) (s : State) : Host.Outcome State Fault Refusal :=
  .next (finish 0x0A0A r (glenGetHistory r (begin_ r.after s)))

end Sys2Proof.Machine
end

