-- ==== Sys2Proof/Machine/TimeBase.lean ====
section
/-! DEFINITION. The time base (R49 to R79): exchanges, parent choice, servo and lock, the root's sources, steps.
Stamps of an exchange are in 2^-16 ns, offsets and delays, which halve a sum of them, in 2^-17 ns. -/
namespace Sys2Proof.Machine

/-- The full stamp of a number of 2^-16 ns. -/
def stamp16 (t : Nat) : Bytes := fullStamp (t * 2 ^ 16)
def readStamp16 (b : Bytes) : Nat := stampTime b / 2 ^ 16

/-- The rate correction of a number of ppm within the limit, towards zero, in 2^-32 ns per cycle (R52). -/
def clampRat (lo hi x : Rat) : Rat := if x < lo then lo else if hi < x then hi else x
def ppmUnits (p : Rat) : Int :=
  let q := clampRat (-200) 200 p * (2 ^ 32 : Nat) / (1000000 : Nat)
  q.num.tdiv q.den

/-- Change time other than by rate (R53): never below 0, with TIME_CHANGED and STEPPED; trace and an armed stop follow
(R296, R314). A holdover's age is elapsed time, so its start moves along (R65). -/
def changeTime (new : Int) (s : State) : State :=
  let s := traceBeforeStep s
  let before := s.time.now
  let s := { s with time := { s.time with now := new.toNat, steps := s.time.steps + 1, stepped := true
                                          holdSince := s.time.holdSince + ((new.toNat : Int) - before) } }
  shutterStep (syncAll 4 (ownEntry 0x0F12 0 0 (shortStamp before) s))

/-- Enter a lock state (Table TIM-2); a change is recorded. HOLDOVER keeps the frequency term alone (R65). -/
def setLock (l : Nat) (s : State) : State :=
  if s.time.lock == l then s else
  let old := s.time.lock
  let t := { s.time with lock := l, good := 0, badRun := 0, holdSince := if l == 2 then s.time.now else s.time.holdSince
                         rate := if l == 2 then ppmUnits s.time.freq else s.time.rate
                         returning := if l == 1 then false else (s.time.returning || (l == 2 && isRoot s)) }
  ownEntry 0x0F14 0 0 (toLe 1 old ++ toLe 1 l) { s with time := t }

/-- The unit takes time from its own source: the primary root, or a secondary that moved to it (R62). -/
def onSource (s : State) : Bool := isPrimary s || (isSecondary s && s.time.ownSource)

/-- Source state (Table TIM-4): UNKNOWN without a time parent, and until the parent's has arrived. -/
def sourceState (s : State) : Nat :=
  if onSource s then (match s.time.lock with | 3 => 0 | 1 => 1 | 2 => 2 | _ => 3)
  else match s.time.parent with
    | some d => (doorAt d s).exch.state
    | none => 3

/-! ### Exchanges (R58 to R60) -/

/-- The end that opens exchanges: a down door, or the primary's end of a root-to-root door. -/
def isParentEnd (d : Nat) (s : State) : Bool :=
  let x := doorAt d s
  x.dir == 1 || (x.dir == 3 && isPrimary s)
def isChildEnd (d : Nat) (s : State) : Bool :=
  let x := doorAt d s
  x.dir == 2 || (x.dir == 3 && isSecondary s)

/-- A parent's time flit (Table TIM-7). -/
def parentFlit (k : Nat) (prev : Option (Nat × Nat × Nat)) (s : State) : Bytes :=
  let t := s.time
  let fl := b2n prev.isSome + 2 * b2n t.stepPending.isSome + 4 * b2n t.utcValid + 8 * b2n t.leap59 + 16 * b2n t.leap61
  let p := prev.getD (0, 0, 0)
  let st := t.stepPending.getD (0, 0)
  toLe 1 0 ++ toLe 1 k ++ toLe 1 fl ++ toLe 1 (t.lock + 16 * sourceState s) ++ toLe 2 t.servo.interval ++ toLeS 2 t.utc ++
    (if prev.isSome then stamp16 p.2.1 ++ stamp16 p.2.2 else zeros 32) ++ toLeS 8 st.1 ++ toLe 8 st.2 ++ zeros 8

/-- A child's answer (R59): its own states, interval and UTC offset as Table TIM-7 has them, and bytes 8 to 55 zero. -/
def childFlit (k : Nat) (s : State) : Bytes :=
  let t := s.time
  toLe 1 1 ++ toLe 1 k ++ toLe 1 (4 * b2n t.utcValid + 8 * b2n t.leap59 + 16 * b2n t.leap61) ++ toLe 1 (t.lock + 16 * sourceState s) ++
    toLe 2 t.adopted ++ toLeS 2 t.utc ++ zeros 56

def timeMsg (b : Bytes) : Msg := { kind := 1, type := 0x10, body := b }

/-- Preference class of a child's door (R61); none for a door that gives no time. -/
def timeClass (d : Nat) (s : State) : Option Nat :=
  let x := doorAt d s
  match role s with
  | .die => if d == 0 then some 0 else none
  | .tray | .pod => if x.dir == 2 && x.accepted then some (bits (peerHub x) 13 1) else none
  | .root => if isSecondary s && x.dir == 3 then some 0 else none

/-- A door qualifies when its last 8 exchanges were all valid. -/
def qualifies (x : Door) : Bool := x.exch.last8.length == 8 && x.exch.last8.all id

/-- The most preferred door that passes a test. -/
def bestParent (p : Door → Bool) (s : State) : Option Nat :=
  let ds := (List.range s.net.doors.length).filterMap fun d =>
    match timeClass d s with
    | some c => if p (doorAt d s) then some (c, d) else none
    | none => none
  (bestBy (fun (a b : Nat × Nat) => a.1 < b.1 || (a.1 == b.1 && a.2 < b.2)) ds).map (·.2)

/-- Take a door as time parent, recorded as TIME_PARENT. -/
def setParent (d : Nat) (s : State) : State :=
  if s.time.parent == some d then s else
  let old := s.time.parent.getD 0x7F
  let back := isSecondary s && (s.time.ownSource || s.time.lock == 3)
  let t := { s.time with parent := some d, ownSource := false, returning := s.time.returning || back }
  ownEntry 0x0F13 0 0 (toLe 1 old ++ toLe 1 (d % 100) ++ toLe 1 s.time.lock) { s with time := t }

/-- R61: when a unit takes or changes its time parent. -/
def chooseParent (s : State) : State :=
  if isPrimary s then s else
  match s.time.parent with
  | none => match bestParent qualifies s with
    | some d => setParent d s
    | none => s
  | some p =>
    if (doorAt p s).exch.quiet ≥ 16 then
      match bestParent qualifies s with
      | some d => setParent d s
      | none => s
    else
      let cls := timeClass p s
      let better (d : Nat) : Bool := match timeClass d s, cls with | some a, some b => a < b | _, _ => false
      match (List.range s.net.doors.length).find? fun d => better d && (doorAt d s).exch.streak ≥ 64 with
      | some d => setParent d s
      | none => s

/-- An exchange is discarded as invalid (R60). -/
def invalidExchange (d : Nat) (s : State) : State :=
  setExch d (fun x => { x with held := none, invalid := x.invalid + 1, streak := 0, last8 := (false :: x.last8).take 8 }) s

/-- An exchange completes: offset and delay of R60, in 2^-17 ns. -/
def completeExchange (d t1 t2 t3 t4 : Nat) (s : State) : State :=
  let up : Int := (t2 : Int) - t1
  let down : Int := (t4 : Int) - t3
  let off := up - down - (doorAt d s).exch.asym * 2 ^ 12
  let del := up + down
  if del < 0 || del > s.time.servo.delayLimit * 2 ^ 17 then invalidExchange d s else
  let s := setExch d (fun x => { x with held := none, quiet := 0, streak := x.streak + 1, last8 := (true :: x.last8).take 8, delay := some del }) s
  if s.time.parent == some d then { s with time := { s.time with offsets := s.time.offsets ++ [off] } } else s

/-- EXCHANGE_INTERVAL (R58): the parent's end opens an exchange; at the child's end an interval passes, and stamps that
have not come within two intervals make the exchange invalid (R60). -/
def execExchangeInterval (after : Nat) (door : Nat) (s : State) : Host.Outcome State Fault Refusal :=
  let s := begin_ after s
  if !working s then .next s
  else if isParentEnd door s then
    if !liveAt door s then .next s else
    let x := (doorAt door s).exch
    let k := (x.num + 1) % 256
    let prev := match x.t1, x.t4 with | some a, some b => some (x.num, a, b) | _, _ => none
    let s := setExch door (fun x => { x with num := k, t1 := none, t4 := none }) s
    .next (sendMsg door (timeMsg (parentFlit k prev s)) s)
  else if isChildEnd door s then
    let s := setExch door (fun x => { x with quiet := x.quiet + 1, age := x.age + 1 }) s
    let x := (doorAt door s).exch
    let s := if x.held.isSome && x.age ≥ 2 then invalidExchange door s else s
    .next (chooseParent s)
  else .next s

/-- What a child takes from its time parent's flit beside the stamps (R51, R58, R67, R71). A step whose frame is not ahead of
this unit is no longer taken: the unit steps at the tick of F or not at all. -/
def adoptFlit (body : Bytes) (s : State) : State :=
  let fl := byteAt body 2
  let iv := rd body 4 2
  let okIv := iv == 125 || iv == 250 || iv == 500 || iv == 1000
  let f := rd body 48 8
  let ahead := s.frame.last.all (· < f) && s.time.now < tickTime s.frame.params f
  let t := { s.time with utc := signed 16 (rd body 6 2), utcValid := bit fl 2, leap59 := bit fl 3, leap61 := bit fl 4
                         adopted := if okIv then iv else s.time.adopted
                         stepPending := if bit fl 1 && ahead then some (signed 64 (rd body 40 8), f) else s.time.stepPending }
  { s with time := t }

/-- What a parent's flit says of the exchange before it (R59, R60): its stamps complete the exchange that the child holds;
without them, the child's answer was lost or failed and the exchange is invalid. -/
def previousExchange (door k : Nat) (body : Bytes) (s : State) : State :=
  match bit (byteAt body 2) 0, (doorAt door s).exch.held with
  | true, some (hk, t2, some t3) =>
    if (hk + 1) % 256 == k then completeExchange door (readStamp16 (slice body 8 16)) t2 t3 (readStamp16 (slice body 24 16)) s
    else invalidExchange door s
  | true, _ => invalidExchange door s
  | false, some _ => invalidExchange door s
  | false, none => s

/-- TIME_FLIT_ARRIVAL (R59, R60): the first bit passed the deserializer `phase` thirty-seconds of a nanosecond after the block
clock edge, less the PHY's latency (R446). -/
def timeFlit (door phase : Nat) (bad : Bool) (body : Bytes) (s : State) : State :=
  if !working s || !liveAt door s then s else
  let now := doorStamp s.time.now ((phase : Int) - (doorAt door s).rxLat)
  let k := byteAt body 1
  if byteAt body 0 == 0 && isChildEnd door s then
    let s := chooseParent (previousExchange door k body s)
    if bad then invalidExchange door s
    else
      let s := setExch door (fun x => { x with num := k, held := some (k, now, none), age := 0, state := bits (byteAt body 3) 4 2 }) s
      let s := if s.time.parent == some door then adoptFlit body s else s
      sendMsg door (timeMsg (childFlit k s)) s
  else if byteAt body 0 == 1 && isParentEnd door s && !bad && (doorAt door s).exch.num == k then
    setExch door (fun x => { x with t4 := some now }) s
  else s

def execTimeFlitArrival (at_ : Instant) (door : Nat) (bad : Bool) (body : Bytes) (s : State) : Host.Outcome State Fault Refusal :=
  .next (timeFlit door at_.phase bad body (begin_ at_.after s))

/-! ### Servo and lock (R63 to R65) -/

/-- m: the 4th smallest of at least 4 offsets. -/
def medianOffset (os : List Int) : Option Int := (sortBy (fun a b => decide (a < b)) os)[3]?

/-- Nanoseconds of a number of 2^-17 ns. -/
def nsRat (v : Int) : Rat := mkRat v (2 ^ 17)

/-- Length of the filter period, ns (R63, R68, R69). -/
def filterNs (s : State) : Rat :=
  if onSource s && s.time.source == 0 then
    (if s.time.ptp.interval < 0 then mkRat 8000000000 (2 ^ (-s.time.ptp.interval).toNat) else 8000000000)
  else if onSource s && s.time.source == 1 then 8000000000
  else (8000 * s.time.adopted : Nat)

/-- The servo of R63 with its m: a step, or the corrections of frequency and phase. A root on its way back to a reference
departs from its frequency term by no more than the slew limit (R62, R70), and keeps that term while the limit holds it. -/
def servoStep (m : Int) (s : State) : State :=
  let big := 1000 * 2 ^ 17 < m.natAbs
  if s.time.lock == 0 && big && !s.time.returning then
    changeTime ((s.time.now : Int) - m * 2 ^ 15) s
  else
    let mm := nsRat m
    let t := filterNs s
    let f := s.time.freq - mm / 16 * 1000000 / t
    let move := f - mm / 4 * 1000000 / t - s.time.freq
    let lim := s.time.servo.slew
    if isRoot s && s.time.returning && (move < -lim || lim < move) then
      { s with time := { s.time with rate := ppmUnits (s.time.freq + clampRat (-lim) lim move) } }
    else { s with time := { s.time with freq := f, rate := ppmUnits (s.time.freq + move) } }

/-- Lock transitions of Table TIM-2 on a period's m. -/
def lockStep (m : Int) (s : State) : State :=
  let near := m.natAbs ≤ 50 * 2 ^ 17
  let far := 250 * 2 ^ 17 < m.natAbs
  if s.time.lock == 1 then
    let n := if far then s.time.badRun + 1 else 0
    let s := { s with time := { s.time with badRun := n } }
    if n ≥ 4 then setLock 0 s else s
  else if s.time.lock == 3 && !(isSecondary s && s.time.parent.isSome && !s.time.ownSource) then s
  else
    let n := if near then s.time.good + 1 else 0
    let s := { s with time := { s.time with good := n } }
    if n ≥ 8 then setLock 1 s else s

/-- Settings that wait take effect at the start of a filter period (R77). A change between PTP and EXTERNAL keeps the lock state,
LOCKED and HOLDOVER too: no row of Table TIM-2 names it (the model's choice, log entry 38). -/
def applySettings (s : State) : State :=
  let t := s.time
  let s := { s with time := { t with servo := t.servoNext.getD t.servo, servoNext := none
                                     txDelay := (t.delaysNext.map (·.1)).getD t.txDelay, rxDelay := (t.delaysNext.map (·.2.1)).getD t.rxDelay
                                     cable := (t.delaysNext.map (·.2.2)).getD t.cable, delaysNext := none, calNext := [], utcNext := none
                                     utc := (t.utcNext.map (·.1)).getD t.utc, utcValid := (t.utcNext.map (·.2.1)).getD t.utcValid
                                     leap59 := (t.utcNext.map (·.2.2.1)).getD t.leap59, leap61 := (t.utcNext.map (·.2.2.2)).getD t.leap61 } }
  let s := t.calNext.foldl (fun s (d, a) => setExch d (fun x => { x with asym := a }) s) s
  match t.sourceNext with
  | none => s
  | some (src, dom) =>
    let s := { s with time := { s.time with source := src, sourceNext := none
                                            ptp := if src == t.source && dom == t.ptp.domain then t.ptp else { domain := dom } } }
    if src == 2 && onSource s then setLock 3 s
    else if src != 2 && onSource s && s.time.lock == 3 then setLock 0 s
    else s

/-- FILTER_PERIOD_END (R63). A period that yields no m neither counts in the runs of 8 and 4 consecutive periods of Table TIM-2 nor
breaks them: the spec is silent (the model's choice, log entry 128). In HOLDOVER, a period without a valid exchange ends
with no phase correction (R65). -/
def execFilterPeriodEnd (s : State) : Host.Outcome State Fault Refusal :=
  let s := s.fresh
  if !working s then .next s else
  let m := medianOffset s.time.offsets
  let alone := s.time.lock == 2 && s.time.offsets.isEmpty
  let s := { s with time := { s.time with offsets := [], m := m.or s.time.m, ptp := { s.time.ptp with valid := 0 }
                                          rate := if alone then ppmUnits s.time.freq else s.time.rate } }
  let s := match m with
    | some m => lockStep m (servoStep m s)
    | none => s
  .next (applySettings s)

/-- No permitted parent has given a valid exchange for 16 intervals. -/
def allQuiet (s : State) : Bool :=
  (List.range s.net.doors.length).all fun d => (timeClass d s).isNone || (doorAt d s).exch.quiet ≥ 16

/-- HOLDOVER_ENTRY (R64): no permitted parent has given a valid exchange for 16 intervals; or a root LOCKED to EXTERNAL has lost
its source, whose pulses have stopped. After how many missing pulses that is, the spec leaves open: the command's coming
says it (log entry 129). -/
def execHoldoverEntry (s : State) : Host.Outcome State Fault Refusal :=
  let s := s.fresh
  let lost := if onSource s then s.time.source == 1 else allQuiet s
  .next (if working s && s.time.lock == 1 && lost then setLock 2 s else s)

/-- Estimated error in ns × 10^9 at an age in ns (R65). -/
def errorAt (age : Nat) (s : State) : Nat := age * s.time.servo.stability

def holdoverAge (s : State) : Nat := if s.time.lock == 2 then ((s.time.now : Int) - s.time.holdSince).toNat / nsUnit else 0

/-- HOLDOVER_LIMIT_EXCEEDED (R65): at the instant the estimated error passes the limit. -/
def execHoldoverLimitExceeded (s : State) : Host.Outcome State Fault Refusal :=
  let s := s.fresh
  if !working s || s.time.lock != 2 || isRoot s || s.time.servo.stability == 0 then .next s else
  let age := s.time.servo.holdLimit * 1000000000 / s.time.servo.stability + 1
  .next (setLock 0 (advanceTo (s.time.holdSince + (age * nsUnit : Nat)).toNat s))

/-- SECONDARY_OWN_SOURCE (R62): after 16 exchange intervals in HOLDOVER, counted from its entry (log entry 130). -/
def execSecondaryOwnSource (s : State) : Host.Outcome State Fault Refusal :=
  let s := s.fresh
  if !working s || !isSecondary s || s.time.lock != 2 || s.time.ownSource || !allQuiet s then .next s else
  let s := advanceTo (s.time.holdSince + (16000 * s.time.adopted * nsUnit : Nat)).toNat s
  let s := { s with time := { s.time with ownSource := true, parent := none, returning := true } }
  .next (if s.time.source == 2 then setLock 3 s else s)

/-! ### PTP and EXTERNAL (R68, R69) -/

/-- Best master clock comparison, for a slave-only clock. -/
def betterMaster (a b : PtpMsg) : Bool :=
  let k (m : PtpMsg) : List Nat := [m.priority1, m.clockClass, m.quality, beN m.grandmaster, m.stepsRemoved, beN m.source]
  decide (k a < k b)

def setPtp (f : Ptp → Ptp) (s : State) : State := { s with time := { s.time with ptp := f s.time.ptp } }

/-- R60 with PTP stamps and A = 0. -/
def ptpOffset (s : State) : State :=
  let p := s.time.ptp
  match p.t1, p.t2, p.t3, p.pairT1 with
  | some t1, some t2, some t3, some t4 =>
    let up : Int := (t2 : Int) - t1
    let down : Int := (t4 : Int) - t3
    let s := setPtp (fun p => { p with t3 := none, pairT1 := none }) s
    if up + down < 0 || up + down > s.time.servo.delayLimit * 2 ^ 17 then s
    else { s with time := { s.time with offsets := s.time.offsets ++ [up - down] } }
  | _, _, _, _ => s

/-- The block hears a PTP message within the extent of Table TIM-3; the rates are those of Sync. -/
def ptpHeard (m : PtpMsg) (s : State) : Bool :=
  m.kind != .other && m.version == 2 && m.minor ≤ 1 && m.domain == s.time.ptp.domain && (m.kind != .sync || (-7 ≤ m.interval && m.interval ≤ 0))

/-- Block clock cycles of three intervals of a logMessageInterval: an Announce older than that no longer counts, as IEEE 1588's
announceReceiptTimeout has it (PRESUMED, log entry 131). -/
def announceCycles (i : Int) : Nat := if i < 0 then 3000000000 / 2 ^ (-i).toNat else 3000000000 * 2 ^ i.toNat

/-- Select a master among those whose Announce still counts (R68); stamps of another master's messages are dropped, and a master
of clockClass 7 or higher puts a LOCKED root into HOLDOVER. -/
def chooseMaster (s : State) : State :=
  let ms := s.time.ptp.masters.filter fun p => s.pwr.cycles < p.2 + announceCycles p.1.interval
  let best := bestBy betterMaster (ms.map (·.1))
  let key := best.map (·.source)
  let s := setPtp (fun p =>
    if p.chosen == key then { p with masters := ms }
    else { p with masters := ms, chosen := key, syncSeq := none, t1 := none, t2 := none, t3 := none, pairT1 := none, pairT2 := none }) s
  match best with
  | some m => if m.clockClass ≥ 7 && s.time.lock == 1 then setLock 2 s else s
  | none => s

/-- An Announce: master selection, the UTC offset (R51), and HOLDOVER for a clockClass of 7 or higher. -/
def ptpAnnounce (m : PtpMsg) (s : State) : State :=
  let s := chooseMaster (setPtp (fun p => { p with masters := (p.masters.filter (·.1.source != m.source)) ++ [(m, s.pwr.cycles)] }) s)
  if isPrimary s && s.time.ptp.chosen == some m.source && m.utcValid then
    { s with time := { s.time with utc := m.utcOffset, utcValid := true, leap59 := m.leap59, leap61 := m.leap61 } }
  else s

/-- PTP_MESSAGE (R56, R68). Delays are in 1/16 ns, stamps in 2^-16 ns. -/
def execPtpMessage (after : Nat) (msg : PtpMsg) (s : State) : Host.Outcome State Fault Refusal :=
  let s := begin_ after s
  if !working s || !onSource s || s.time.source != 0 then .next s
  else if !ptpHeard msg s then .next (setPtp (fun p => { p with ignored := p.ignored + 1 }) s)
  else
    let s := chooseMaster s
    let now := s.time.now / 2 ^ 16
    let fromMaster := s.time.ptp.chosen == some msg.source
    let origin := ((msg.origin : Int) + msg.correction).toNat
    .next (match msg.kind with
      | .announce => ptpAnnounce msg s
      | .sync => if !fromMaster then s else
          setPtp (fun p => { p with t2 := some (now - s.time.rxDelay * 2 ^ 12), t1 := if msg.twoStep then none else some origin
                                    pairT2 := some msg.correction, syncSeq := some msg.seq, interval := msg.interval, valid := p.valid + 1 }) s
      | .followUp => if !fromMaster || s.time.ptp.syncSeq != some msg.seq then s else
          setPtp (fun p => { p with t1 := some ((msg.origin : Int) + msg.correction + p.pairT2.getD 0).toNat }) s
      | .delayResp => if !fromMaster || !msg.mine || s.time.ptp.reqSeq != msg.seq then s else
          ptpOffset (setPtp (fun p => { p with pairT1 := some ((msg.origin : Int) - msg.correction).toNat }) s)
      | .other => s)

/-- DELAY_REQ (R68): stamped with the transmit delay (R56). -/
def execDelayReq (after : Nat) (s : State) : Host.Outcome State Fault Refusal :=
  let s := begin_ after s
  if !working s || !onSource s || s.time.source != 0 then .next s else
  let q := (s.time.ptp.reqSeq + 1) % 65536
  let t := s.time.now / 2 ^ 16 + s.time.txDelay * 2 ^ 12
  .next (State.emit (.ptpDelayReq q t) (setPtp (fun p => { p with reqSeq := q, t3 := some t, pairT1 := none }) s))

/-- PTP_SYNC_LOSS (R68). -/
def execPtpSyncLoss (s : State) : Host.Outcome State Fault Refusal :=
  let s := s.fresh
  .next (if working s && onSource s && s.time.source == 0 && s.time.lock == 1 then setLock 2 s else s)

/-- PPS_EDGE (R69): the start of the second that TIME.SET_TOD gave. The edge comes `at_.phase` thirty-seconds of a nanosecond after a
block clock edge, and is stamped to 0.5 ns. A pulse before any TIME.SET_TOD is counted as ignored: R69 only bids software
to give the seconds first (the model's choice, log entry 132). -/
def execPpsEdge (at_ : Instant) (s : State) : Host.Outcome State Fault Refusal :=
  let s := begin_ at_.after s
  if !working s || !onSource s || s.time.source != 1 then .next s else
  let t : Int := (doorStamp s.time.now at_.phase : Int) - s.time.cable * 2 ^ 12
  let sec : Int := 1000000000 * 2 ^ 16
  let off := t % sec
  let near := off ≤ 1000 * 2 ^ 16 || off ≥ sec - 1000 * 2 ^ 16
  match s.time.tod with
  | none => .next { s with time := { s.time with ignoredPulses := s.time.ignoredPulses + 1 } }
  | some tod =>
    if s.time.lock == 1 && !near then
      let n := s.time.badPulses + 1
      let s := { s with time := { s.time with badPulses := n, ignoredPulses := s.time.ignoredPulses + 1, tod := some (tod + 1) } }
      .next (if n ≥ 3 then setLock 2 s else s)
    else
      .next { s with time := { s.time with badPulses := 0, tod := some (tod + 1), offsets := s.time.offsets ++ [2 * (t - tod * sec)] } }

/-! ### Commands (R77, R78) -/

/-- The exact value of a finite FP32. -/
def ratOf32 (x : F32) : Rat := mkRat (f32scaled x) (2 ^ 149)
def fp32 (q : Rat) : Bytes := toLe 4 (round32 q.num q.den).toNat
def fp32Of (v : Nat) : F32 := BitVec.ofNat 32 v

/-- TIME.GET. -/
def timeGet (r : Request) (s : State) : Reply × State :=
  command { code := 0x0201, auth := authRead } true r (fun _ s =>
    let t := s.time
    let ds := if s.build.hub then s.net.doors.take 100 else s.net.doors
    let delays := ds.flatMap fun x => fp32 (nsRat (x.exch.delay.getD 0))
    let asyms := ds.flatMap fun x => toLeS 2 x.exch.asym
    let pend := (pendOf 0x0208 0 s).toList.map fun p => pending_ p.frame (match p.change with | .stepRoot a => [setBytes 0 (toLeS 8 a)] | _ => [])
    let only (c : Bool) (x : Tlv) : List Tlv := if c then [x] else []
    (okay (only s.build.hub (setU32 0 t.servo.interval) ++ [setU32 1 t.servo.delayLimit, setU32 2 t.servo.stability] ++
      only (!isRoot s) (setU32 3 t.servo.holdLimit) ++ [setBytes 4 (fp32 (mkRat t.servo.stretch 10))] ++
      only (isRoot s) (setBytes 5 (fp32 t.servo.slew)) ++ only (isRoot s) (setU32 6 t.source) ++ only (isRoot s) (setU32 7 t.ptp.domain) ++
      [setU32 8 t.txDelay, setU32 9 t.rxDelay, setBytes 10 (toLeS 4 t.cable), setBytes 11 asyms] ++ pend ++
      [stBytes 0 (fullStamp t.now), stU32 1 t.lock, stU32 2 (sourceState s), stBytes 3 (fp32 (nsRat (t.m.getD 0))), stBytes 4 (fp32 t.freq),
        stBytes 5 delays, stU32 6 (t.parent.getD 0x7F % 128), stU32 7 (holdoverAge s / 1000000),
        stBytes 8 (fp32 (mkRat (errorAt (holdoverAge s) s) 1000000000)), stBytes 9 (toLeS 4 t.utc),
        stU8 10 (b2n t.utcValid + 2 * b2n t.leap59 + 4 * b2n t.leap61), stU32 11 (sumN (s.net.doors.map (·.exch.invalid))), stU32 12 t.steps,
        stU64 13 (t.tod.getD 0), stU32 14 t.ignoredPulses, stU32 15 t.ptp.ignored]), s)) s
def execTimeGet (r : Request) (s : State) : Host.Outcome State Fault Refusal :=
  .next (finish 0x0201 r (timeGet r (begin_ r.after s)))

/-- TIME.SET (R53). -/
def timeSet (r : Request) (s : State) : Reply × State :=
  command { code := 0x0202, params := [must tTime] } true r (fun b s =>
    let v := (val? tTime b).getD []
    if s.time.parent.isSome || !(s.time.lock == 0 || s.time.lock == 3) then (refuse stState, s)
    else if !stampOk v then (refuse stRange, s)
    else (okay [], changeTime (stampTime v) s)) s
def execTimeSet (r : Request) (s : State) : Host.Outcome State Fault Refusal :=
  .next (finish 0x0202 r (timeSet r (begin_ r.after s)))

/-- TIME.SET_SOURCE (R67). -/
def timeSetSource (r : Request) (s : State) : Reply × State :=
  command { code := 0x0203, params := [setting 0 4, setting 1 4] } (isRoot s) r (fun b s =>
    let cur := s.time.sourceNext.getD (s.time.source, s.time.ptp.domain)
    let src := (set? 0 b).getD cur.1
    let dom := (set? 1 b).getD cur.2
    if src > 2 then (refuse stBadParam, s)
    else if dom > 127 then (refuse stRange, s)
    else (okay [], { s with time := { s.time with sourceNext := some (src, dom) } })) s
def execTimeSetSource (r : Request) (s : State) : Host.Outcome State Fault Refusal :=
  .next (finish 0x0203 r (timeSetSource r (begin_ r.after s)))

/-- TIME.SET_TOD (R69). -/
def timeSetTod (r : Request) (s : State) : Reply × State :=
  command { code := 0x0204, params := [mustSetting 0 8] } true r (fun b s =>
    if !isRoot s || s.time.source != 1 then (refuse stPermit, s)
    else (okay [], { s with time := { s.time with tod := set? 0 b } })) s
def execTimeSetTod (r : Request) (s : State) : Host.Outcome State Fault Refusal :=
  .next (finish 0x0204 r (timeSetTod r (begin_ r.after s)))

/-- A door that the start-up configuration gives a peer. -/
def configured (d : Nat) (s : State) : Bool := d < s.net.doors.length && (doorAt d s).dir != 0

/-- TIME.SET_CAL (R56, R57): A of the door that INDEX names, the PHY delays, the cable delay. -/
def timeSetCal (r : Request) (s : State) : Reply × State :=
  command { code := 0x0205, params := [may tIndex, setting 0 4, setting 1 4, setting 2 4, setting 3 4] } true r (fun b s =>
    let a := (set? 0 b).map (signed 32)
    let c := (set? 3 b).map (signed 32)
    let small (v : Option Int) : Bool := match v with | some v => -32768 ≤ v && v ≤ 32767 | none => true
    let cur := s.time.delaysNext.getD (s.time.txDelay, s.time.rxDelay, s.time.cable)
    let named := (set? 1 b).isSome || (set? 2 b).isSome || c.isSome
    let delays := ((set? 1 b).getD cur.1, (set? 2 b).getD cur.2.1, c.getD cur.2.2)
    if a.isSome && (num? tIndex b).isNone then (refuse stBadParam, s)
    else if (a.isSome && !configured (num tIndex b) s) || !small a || !small c || (set? 1 b).getD 0 > u16Max || (set? 2 b).getD 0 > u16Max then (refuse stRange, s)
    else
      let cal := match a with | some a => tput (num tIndex b) a s.time.calNext | none => s.time.calNext
      (okay [], { s with time := { s.time with calNext := cal, delaysNext := if named then some delays else s.time.delaysNext } })) s
def execTimeSetCal (r : Request) (s : State) : Host.Outcome State Fault Refusal :=
  .next (finish 0x0205 r (timeSetCal r (begin_ r.after s)))

/-- The ranges of Table TIM-8. -/
def servoOk (v : Servo) : Bool :=
  (v.interval == 125 || v.interval == 250 || v.interval == 500 || v.interval == 1000) && 100 ≤ v.delayLimit && v.delayLimit ≤ 10000 &&
  1 ≤ v.stability && v.stability ≤ 1000 && 5 ≤ v.holdLimit && v.holdLimit ≤ 10000 && 1 ≤ v.stretch && v.stretch ≤ 10000 &&
  ratOf32 0x3C23D70A ≤ v.slew && v.slew ≤ 100

/-- Tenths of a microsecond that a stretch report threshold stands for: the FP32 value nearest to a whole number of them. -/
def stretchOf (x : F32) : Option Nat :=
  let v := (ratOf32 x * 10 + mkRat 1 2).floor.toNat
  if isFinite32 x && fp32 (mkRat v 10) == toLe 4 x.toNat then some v else none

/-- TIME.SET_SERVO (R78): NOT_PERMITTED for every setting before any range. A setting that the command leaves out stands as the
last accepted one gives it, since every accepted setting takes effect (R77). -/
def timeSetServo (r : Request) (s : State) : Reply × State :=
  command { code := 0x0206, params := [setting 0 4, setting 1 4, setting 2 4, setting 3 4, setting 4 4, setting 5 4] } true r (fun b s =>
    let fl (i : Nat) : Option F32 := (set? i b).map fp32Of
    let fin (o : Option F32) : Bool := match o with | some x => isFinite32 x | none => true
    let v := s.time.servoNext.getD s.time.servo
    let w : Servo :=
      { interval := (set? 0 b).getD v.interval, delayLimit := (set? 1 b).getD v.delayLimit, stability := (set? 2 b).getD v.stability
        holdLimit := (set? 3 b).getD v.holdLimit
        stretch := match fl 4 with | some x => (stretchOf x).getD 0 | none => v.stretch
        slew := match fl 5 with | some x => ratOf32 x | none => v.slew }
    if ((set? 0 b).isSome && !s.build.hub) || ((set? 3 b).isSome && isRoot s) || ((set? 5 b).isSome && !isRoot s) then (refuse stPermit, s)
    else if !fin (fl 5) || !servoOk w then (refuse stRange, s)
    else (okay [], { s with time := { s.time with servoNext := some w } })) s
def execTimeSetServo (r : Request) (s : State) : Host.Outcome State Fault Refusal :=
  .next (finish 0x0206 r (timeSetServo r (begin_ r.after s)))

/-- TIME.SET_UTC (R51). -/
def timeSetUtc (r : Request) (s : State) : Reply × State :=
  command { code := 0x0207, params := [setting 0 4, setting 1 1, setting 2 1, setting 3 1] } (isPrimary s) r (fun b s =>
    let t := s.time
    let cur := t.utcNext.getD (t.utc, t.utcValid, t.leap59, t.leap61)
    let off := match set? 0 b with | some v => signed 32 v | none => cur.1
    let on (i : Nat) (c : Bool) : Bool := match set? i b with | some v => v == 1 | none => c
    if [1, 2, 3].any fun i => (set? i b).getD 0 > 1 then (refuse stBadParam, s)
    else if off < -32768 || off > 32767 then (refuse stRange, s)
    else (okay [], { s with time := { t with utcNext := some (off, on 1 cur.2.1, on 2 cur.2.2.1, on 3 cur.2.2.2) } })) s
def execTimeSetUtc (r : Request) (s : State) : Host.Outcome State Fault Refusal :=
  .next (finish 0x0207 r (timeSetUtc r (begin_ r.after s)))

/-- TIME.STEP_ROOT (R71): the step travels in every time flit until its frame. -/
def timeStepRoot (r : Request) (s : State) : Reply × State :=
  command { code := 0x0208, params := [must tFrame, mustSetting 0 8] } (isPrimary s) r (fun b s =>
    let f := num tFrame b
    let ns := signed 64 ((set? 0 b).getD 0)
    let at_ : Int := tickTime s.frame.params f / nsUnit
    if ns.natAbs > 1000000000000 || f < curFrame s + 16 || at_ + ns < 0 then (refuse stRange, s)
    else
      let (rep, s) := defer 0x0208 0 f (.stepRoot ns) s
      (rep, { s with time := { s.time with stepPending := some (ns, f) } })) s
def execTimeStepRoot (r : Request) (s : State) : Host.Outcome State Fault Refusal :=
  .next (finish 0x0208 r (timeStepRoot r (begin_ r.after s)))

/-- A scheduled step at the tick of its frame (R71): time changes in the tick's cycle; the frame's instants keep their
distance from the tick, and the frame ends one period after it in elapsed time. Stamps of exchanges in progress are dropped, so
that no unit counts the step as an offset. A unit whose frames passed over F does not step (log entry 133). -/
def stepAtTick (f : Nat) (s : State) : State :=
  match s.time.stepPending with
  | some (ns, g) =>
    if f < g then s
    else if g < f then { s with time := { s.time with stepPending := none } } else
    let t := s.time.now
    let s := (List.range s.net.doors.length).foldl (fun s d => setExch d (fun x => { x with t1 := none, t4 := none, held := none }) s) s
    let s := changeTime ((t : Int) + ns * nsUnit) { s with time := { s.time with stepPending := none } }
    { s with frame := { s.frame with tickAt := s.time.now, endAt := some (s.time.now + periodUnits s.frame.params) } }
  | none => s

end Sys2Proof.Machine
end

