-- ==== Sys2Proof/Machine/Frame.lean ====
section
/-! DEFINITION. The frame engine of a die unit: frame parameters (R21 to R26), steps 2 to 5 (R27 to R30), contributions
(R113, R127), the returned summary (R45, R46), and the FRAME and RED commands. -/
namespace Sys2Proof.Machine

/-! ### Frame parameters (R21 to R26) -/

/-- The conditions of Table FRM-1 and Table FRM-2 for the scope that the set names (R23). -/
def paramsOk (p : FrameParams) : Bool :=
  let mark (m : Nat) : Bool := 1 ≤ m && m ≤ 999
  let ns (m : Nat) : Nat := p.period * m
  let g := p.grace * 1000
  (if p.trayScope then 250 else 500) ≤ p.period && p.period ≤ 100000 && mark p.emit && mark p.tray && mark p.pod && mark p.root && 1 ≤ p.ret && p.ret ≤ 1000 &&
  2 ≤ p.grace && p.grace ≤ 50 && 1 ≤ p.limit && p.limit ≤ 32 && 1 ≤ p.stale && p.stale ≤ 64 &&
  25000 + sendTime p.limit * 1000 ≤ ns p.emit && ns p.emit + g + 20000 ≤ ns p.tray &&
  (if p.trayScope then p.emit < p.tray && p.tray < p.ret && ns p.tray + 30000 ≤ ns p.ret
   else p.emit < p.tray && p.tray < p.pod && p.pod < p.root && p.root < p.ret && ns p.tray + g + 20000 ≤ ns p.pod && ns p.pod + g + 20000 ≤ ns p.root &&
     ns p.root + 30000 ≤ ns p.ret)

/-- A set of parameters placed at activation frame `f`, where the parameters `old` place its tick (R24). -/
def placed (old new : FrameParams) (f : Nat) : FrameParams := { new with anchor := f, anchorNs := old.anchorNs + (f - old.anchor) * old.period * 1000 }

/-- The frame that the engine begins next, the instant of its tick, and whether the pending parameters place it (R15, R19, R24): the
first above the last one begun whose tick does not lie behind, and after a step of time none before the stepped frame's end (R71). -/
def nextFrame (s : State) : Nat × Nat × Bool :=
  let f := s.frame
  let from_ := max (s.time.now - (cycleUnits s - 1)) (f.endAt.getD 0)
  let low := (f.last.map (· + 1)).getD 0
  let n := max low (frameAfter f.params from_)
  match f.pending with
  | some q =>
    if q.anchor ≤ n then let m := max low (frameAfter q from_); (m, tickTime q m, true)
    else (n, tickTime f.params n, false)
  | none => (n, tickTime f.params n, false)

/-- The root parameters message (R25). -/
def sendRootParams (s : State) : State :=
  match peerDoor s with
  | some d => sendMsg d { kind := 1, type := 0x12, body := paramBlock s.frame.params ++ (match s.frame.pending with
      | some p => paramBlock p
      | none => zeros 48) } s
  | none => s

/-- Parameters received in a summary or a root parameters message (R25, R26). -/
def receiveParams (cur : FrameParams) (pend : Option FrameParams) (s : State) : State :=
  let s := if isTray s then { s with frame := { s.frame with fleet := some (cur, pend) } } else s
  if isPrimary s || (isTray s && s.frame.params.trayScope) then s
  else if cur == s.frame.params then
    { s with frame := { s.frame with pending := pend.or s.frame.pending, awaitFleet := false } }
  else { s with frame := { s.frame with adopt := some (cur, pend), muted := true, awaitFleet := false } }

/-- The parameter blocks of a returned summary. -/
def summaryParams (b : Bytes) : FrameParams × Option FrameParams :=
  (readParams (slice b 24 48), readPending (slice b 72 48))

/-! ### Contributions (R113, R127) -/

/-- The die unit reduces in this frame: in a group whose catalogue is active, and not in transition (R39, R40, R124). -/
def reduces (s : State) : Bool :=
  s.frame.tag != 0 && !s.frame.transition && (match dieCatalogue s with
    | some c => c.group == s.frame.group
    | none => false)

/-- The active catalogue's worst case exceeds L (R30). -/
def oversize (s : State) : Bool :=
  match dieCatalogue s with
  | some c => worstCase c.metrics > s.frame.params.limit * 1024
  | none => false

/-- Addends of a metric of source 0 to 3, each with its entity (R113, R114). -/
def addendsOf (m : Metric) (s : State) : List (F32 × Nat) :=
  if m.source ≤ 2 then ((dieAddend m s).map (·, 0)).toList
  else if m.source == 3 then
    (s.fea.trackers.filter fun t => t.metric == m.ref && (match kindOf t.entity s with
      | some k => bit m.kinds k
      | none => false)).filterMap fun t => (trackerOutput m.ref t.entity m.select s).map (·, t.entity)
  else []

/-- Addends of a metric of source 4: the head's outputs over the evaluated entities of its kinds. -/
def headAddends (m : Metric) (s : State) : List (F32 × Nat) :=
  (s.glen.outputs.filter fun p => p.1 % 16 == m.ref && s.glen.doneE.contains (p.1 / 16) && (match kindOf (p.1 / 16) s with
    | some k => bit m.kinds k
    | none => false)).map fun p => (p.2, p.1 / 16)

/-- Reduce a metric's addends into the frame's accumulators. -/
def reduceMetric (m : Metric) (xs : List (F32 × Nat)) (s : State) : State :=
  if xs.isEmpty then s else
  let a := xs.foldl (fun a x => addValue (shapeOf m) x.1 (dieId s) x.2 a) {}
  { s with work := tput m.index a s.work }

/-- Step 3 (R27): the metrics of sources 0 to 3. -/
def preReduce (s : State) : State :=
  match dieCatalogue s with
  | some c => if reduces s && !oversize s then (c.metrics.filter (·.source ≤ 3)).foldl (fun s m => reduceMetric m (addendsOf m s) s) { s with work := [] }
              else { s with work := [] }
  | none => { s with work := [] }

/-- Step 5's part of the reduction: the metrics of source 4. -/
def reduceHeads (s : State) : State :=
  match dieCatalogue s with
  | some c => if reduces s && !oversize s then (c.metrics.filter (·.source == 4)).foldl (fun s m => reduceMetric m (headAddends m s) s) s else s
  | none => s

/-- Cycles of step 3 (R189): one per VALUE record of sources 0 to 2 and one per tracker addend. -/
def reduceCycles (s : State) : Nat :=
  match dieCatalogue s with
  | some c => if reduces s && !oversize s then sumN (c.metrics.map fun m => (addendsOf m s).length) else 0
  | none => 0

/-- TRACKER_UPDATE_END (R27, R189): step 2 ends; steps 3 and 4 begin, unless the send cutoff has passed. -/
def execTrackerUpdateEnd (s : State) : Host.Outcome State Fault Refusal :=
  let s := s.fresh
  if !working s || s.frame.step != .trackers then .next s else
  let n := s.fea.trackers.length
  let s := advanceCycles (s.frame.stepAt + (if s.build.hub then (n + 1) / 2 else 2 * n)) s
  if s.frame.cutoff then .next { s with frame := { s.frame with step := .sent } } else
  let s := { s with frame := { s.frame with step := .evaluate, stepAt := s.pwr.cycles, reducedAt := s.pwr.cycles + reduceCycles s } }
  .next (startStep4 (if s.build.hub then s else preReduce s))

/-- Hottest temperature of the frame (Table RED-13); with no conversion on any channel the rules state none, and it is a
free value (log entry 21). -/
def hottestNow (s : State) : Int :=
  let vs := (List.range 48).filterMap fun c => (chanAt c s).value
  match vs with
  | [] => signed 16 (Config.noTemperature (curFrame s) s.free % 2 ^ 16)
  | v :: r => r.foldl max v

/-- Version of the active probe pack. -/
def packVersion (s : State) : Nat := (s.prb.active.map (·.version)).getD 0

/-- HEALTH body (Table RED-13). -/
def healthBody (s : State) : Bytes :=
  toLe 1 (s.time.lock + 16 * sourceState s) ++
    toLe 1 (b2n s.sht.hung + 2 * b2n (bit s.sht.sources 1 || bit s.sht.sources 4) + 4 * b2n s.win.untrimmed + 8 * b2n (!s.glen.active.isEmpty)) ++ toLeS 2 (hottestNow s) ++
    toLe 4 s.err.ring.length ++ toLe 8 s.err.next ++ toLe 4 (modelVersion s.glen.active) ++ toLe 4 (packVersion s) ++ toLe 4 s.frame.skipped ++ zeros 4

/-- The order of findings: descending score, then frame, entity and head, rule findings after head findings (R30, R215). -/
def findingBefore (a b : Bytes) : Bool :=
  let sc (x : Bytes) : Int := key32 (BitVec.ofNat 32 (rd x 16 4))
  let key (x : Bytes) : Nat := rd x 8 8 * 2 ^ 20 + rd x 2 2 % 4096 * 2 ^ 8 + byteAt x 0 % 16 + 16 * b2n (bit (byteAt x 0) 7)
  decide (sc b < sc a) || (sc a == sc b && key a < key b)

/-- A probe record is of a failing run (Table PRB-9). -/
def probeFailed (b : Bytes) : Bool := byteAt b 1 % 16 != 0
/-- Ascending frame and then tile (R243). -/
def probeBefore (a b : Bytes) : Bool := rd a 8 8 < rd b 8 8 || (rd a 8 8 == rd b 8 8 && byteAt a 0 % 64 < byteAt b 0 % 64)

/-- How many records of a size fit in a space, with the section's header unless the section stands already. -/
def fitCount (space size n : Nat) (began : Bool) : Nat :=
  let s := space - (if began then 0 else 8)
  min n (s / size)

/-- Bytes that a number of records takes of the space. -/
def fitBytes (size n : Nat) (began : Bool) : Nat := if n == 0 then 0 else size * n + (if began then 0 else 8)

/-- The waiting records that a contribution of free space `space` carries: probe records, findings (R30, R243). -/
def fillRest (space : Nat) (s : State) : List Bytes × List Bytes :=
  let fails := sortBy probeBefore (s.frame.carryProbes.filter probeFailed)
  let passes := sortBy probeBefore (s.frame.carryProbes.filter fun b => !probeFailed b)
  let finds := sortBy findingBefore s.frame.carryFindings
  let a := fitCount space 40 fails.length false
  let space := space - fitBytes 40 a false
  let b := fitCount space 48 finds.length false
  let space := space - fitBytes 48 b false
  let c := fitCount space 40 passes.length (a > 0)
  (fails.take a ++ passes.take c, finds.take b)

/-- The contribution of the frame; the cutoff has just passed, and `overran` says that steps 1 to 3 had not ended (R29). -/
def contribution (overran : Bool) (s : State) : Bytes × List Bytes × List Bytes :=
  let f := s.frame
  let unassigned := f.tag == 0
  let big := oversize s
  let header := overran || big || !reduces s
  let v := formatOut s
  let data := if header then [] else dataSections false v s.work
  let health := section_ 1 1 (healthBody s)
  let used := 64 + health.length + sumN (data.map (·.length))
  let (probes, finds) := fillRest (f.params.limit * 1024 - used) (if v == 3 then { s with frame := { s.frame with carryProbes := [] } } else s)
  let secs := [health] ++ data ++ (if finds.isEmpty then [] else [section_ 5 finds.length finds.flatten]) ++
    (if probes.isEmpty then [] else [section_ 6 probes.length probes.flatten])
  let body := secs.flatten
  let carried := (finds.filter fun b => rd b 8 8 < curFrame s).length
  let cat := match dieCatalogue s with
    | some c => if !unassigned && c.group == f.group then c.version else 0
    | none => 0
  let flags := b2n (overran || big) + 2 * b2n f.transition + 4 * b2n unassigned + 8 * b2n (carried > 0) + 16 * b2n big
  let head := toLe 1 v ++ toLe 1 1 ++ toLe 2 flags ++ toLe 4 (dieId s + 2 ^ 18 * f.group) ++ toLe 8 (curFrame s) ++ toLe 4 f.tag.toNat ++ toLe 4 f.seq ++
    shortStamp (cutoffAt s) ++ toLe 2 f.cursor ++ toLe 2 f.evaluated ++ toLe 2 carried ++ toLe 2 secs.length ++ toLe 4 (64 + body.length) ++ toLe 4 cat ++
    toLe 4 (fwVersion s) ++ zeros 8
  (head ++ body, probes, finds)

/-- The oldest waiting finding gives way above 512 (R30); among equally old ones, the one that R215 orders last. -/
def capFindings : Nat → List Bytes → List Bytes × Nat
  | 0, l => (l, 0)
  | n + 1, l =>
    if l.length ≤ 512 then (l, 0) else
    let older (a b : Bytes) : Bool := rd a 8 8 < rd b 8 8 || (rd a 8 8 == rd b 8 8 && findingBefore b a)
    match bestBy older l with
    | none => (l, 0)
    | some x => let (r, k) := capFindings n (l.erase x); (r, k + 1)

/-- The die unit sends in this frame: counted as locked since its tick and now, not under wrong parameters, and the die
door carries contributions (R20, R25, R26). -/
def dieSends (s : State) : Bool := s.frame.locked && countsLocked s && !s.frame.muted && liveAt 0 s

/-- SEND_CUTOFF (R27 to R30, R217): evaluation stops, the straggler rule runs, and the contribution is completed and sent. -/
def execSendCutoff (s : State) : Host.Outcome State Fault Refusal :=
  let s := s.fresh
  if s.build.hub || !working s || s.frame.step == .idle || s.frame.cutoff then .next s else
  let s := advanceTo (cutoffAt s) s
  let overran := s.frame.step != .evaluate || s.pwr.cycles < s.frame.reducedAt
  let s := reduceHeads (stragglerRule (stopStep4 s))
  let s :=
    if dieSends s then
      let (b, probes, finds) := contribution overran s
      let fr := { s.frame with history := lastN 64 (s.frame.history ++ [(curFrame s, b)]), seq := (s.frame.seq + 1) % 2 ^ 32
                               carryFindings := s.frame.carryFindings.filter (fun x => !finds.contains x)
                               carryProbes := s.frame.carryProbes.filter (fun x => !probes.contains x) }
      sendMsg 0 { kind := 1, type := 0x01, body := b, frame := some (curFrame s) } { s with frame := fr }
    else s
  let (fs, lost) := capFindings s.frame.carryFindings.length s.frame.carryFindings
  .next { s with frame := { s.frame with carryFindings := fs, carryLost := s.frame.carryLost + lost, overrun := overran } }

/-! ### The returned summary at a die unit (R45, R46, R165) -/

/-- A returned summary's shape (Table RED-18). -/
def returnedOk (b : Bytes) : Bool := b.length ≥ 160 && byteAt b 1 == 5 && (byteAt b 0 == 4 || byteAt b 0 == 3) && rd b 16 4 == b.length

/-- DIVERGENT of Table RED-16. -/
def divergent (b : Bytes) : Bool := bit (rd b 2 2) 7

/-- A returned summary is accepted; one flagged DIVERGENT does not replace the usable one (R46, R160). -/
def keepReturned (n : Nat) (b : Bytes) (f : FrameEng) : FrameEng :=
  { f with summary := some (n, b), good := if divergent b then f.good else some (n, b) }

/-- A complete or aborted copy reaches a die unit. -/
def dieReturned (door : Nat) (aborted : Bool) (b : Bytes) (s : State) : State :=
  if aborted then s
  else if !returnedOk b then malformedOn door s
  else
    let f := rd b 8 8
    let (cur, pend) := summaryParams b
    let s := receiveParams cur pend s
    match tfind f s.frame.closes with
    | some t =>
      if s.time.now > t then { s with frame := { s.frame with lateReturned := s.frame.lateReturned + 1 } }
      else if s.frame.gotReturned == some f then { s with frame := { s.frame with dupReturned := s.frame.dupReturned + 1 } }
      else { s with frame := keepReturned f b { s.frame with gotReturned := some f } }
    | none => { s with frame := { s.frame with lateReturned := s.frame.lateReturned + 1 } }

/-- A hub exports the findings of its own evaluation (Table ERR-8). -/
def exportOwnFindings (s : State) : State :=
  if s.glen.raisedNow.isEmpty then s else exportItem 2 (curFrame s) s.glen.raisedNow.flatten s

/-- RETURN_MARK (R27, R194, R232): the probe window opens on a die unit; a hub's evaluation stops. -/
def execReturnMark (s : State) : Host.Outcome State Fault Refusal :=
  let s := s.fresh
  if !working s || s.frame.last.isNone then .next s else
  let t := markAt s.frame.params.ret s
  let s := advanceTo t s
  .next (if s.build.hub then (if s.frame.step != .idle && !s.frame.cutoff then exportOwnFindings (stopStep4 s) else s)
         else { s with prb := { s.prb with window := true } })

/-- RETURN_CLOSE (R45): acceptance of the oldest open frame's summary ends. -/
def execReturnClose (s : State) : Host.Outcome State Fault Refusal :=
  let s := s.fresh
  if !working s then .next s else
  match s.frame.closes with
  | [] => .next s
  | (_, t) :: r => .next (let s := advanceTo t s; { s with frame := { s.frame with closes := r } })

/-! ### FRAME commands (R23 to R26, R39, R44) -/

/-- The parameters as SETTINGs, the rows of Table FRM-1. -/
def paramSettings (p : FrameParams) : List Tlv :=
  [setU32 0 p.period, setU32 1 p.emit, setU32 2 p.tray, setU32 3 p.pod, setU32 4 p.root, setU32 5 p.ret, setU32 6 p.grace, setU32 7 p.limit,
    setU32 8 (b2n p.trayScope), setU32 9 p.stale]

/-- The set that a FRAME.SET makes of the current parameters. -/
def givenParams (b : List Tlv) (p : FrameParams) : FrameParams :=
  { p with period := (set? 0 b).getD p.period, emit := (set? 1 b).getD p.emit, tray := (set? 2 b).getD p.tray, pod := (set? 3 b).getD p.pod
           root := (set? 4 b).getD p.root, ret := (set? 5 b).getD p.ret, grace := (set? 6 b).getD p.grace, limit := (set? 7 b).getD p.limit
           trayScope := (set? 8 b).getD (b2n p.trayScope) == 1, stale := (set? 9 b).getD p.stale }

/-- Accept a pending parameter change. -/
def acceptParams (p : FrameParams) (s : State) : Reply × State :=
  let old := s.frame.pending.map fun q => (⟨tReplaced, toLe 8 q.anchor⟩ : Tlv)
  let s := { s with frame := { s.frame with pending := some p } }
  ({ status := stDeferred, tlvs := effect p.anchor :: old.toList }, if isPrimary s then sendRootParams s else s)

/-- FRAME.SET (R23 to R26). -/
def frameSet (r : Request) (s : State) : Reply × State :=
  command { code := 0x0101, params := must tFrame :: (List.range 10).map (setting · 4) } true r (fun b s =>
    let f := num tFrame b
    let cur := s.frame.params
    let new := givenParams b cur
    let scope := (set? 8 b).getD (b2n cur.trayScope)
    let late := f ≤ curFrame s
    let check (s : State) : Reply × State := if scope > 1 || !paramsOk new then (refuse stRange, s) else acceptParams (placed cur new f) s
    match role s with
    | .die => if liveAt 0 s then (refuse stPermit, s) else if late then (refuse stRange, s) else check s
    | .pod => (refuse stPermit, s)
    | .root =>
      if !isPrimary s then (refuse stPermit, s)
      else if scope == 1 then (refuse stBadParam, s)
      else if f < curFrame s + 16 || late then (refuse stRange, s)
      else check s
    | .tray =>
      if !cur.trayScope then
        if scope == 0 then (refuse stPermit, s)
        else if late then (refuse stRange, s)
        else if (match s.frame.fleet with
          | some (_, some p) => decide (p.anchor > curFrame s)
          | _ => false) then (refuse stState, s)
        else check s
      else if scope == 0 then
        if b.any fun t => t.ty != tFrame && t.ty != tSetting 8 then (refuse stBadParam, s)
        else if late then (refuse stRange, s)
        else check s
      else if late then (refuse stRange, s)
      else check s) s
def execFrameSet (r : Request) (s : State) : Host.Outcome State Fault Refusal :=
  .next (finish 0x0101 r (frameSet r (begin_ r.after s)))

/-- FRAME.GET: settings with pending changes; anchor, its tick, current frame, group and tag. -/
def frameGet (r : Request) (s : State) : Reply × State :=
  command { code := 0x0102, auth := authRead } true r (fun _ s =>
    let f := s.frame
    let pend := f.pending.toList.map fun p => pending_ p.anchor (paramSettings p)
    let grp := (pendOf 0x0103 0 s).toList.map fun p => pending_ p.frame (match p.change with
      | .group t g => [setBytes 0 (toLe 1 g ++ zeros 3 ++ toLe 4 t.toNat)]
      | _ => [])
    (okay (paramSettings f.params ++ pend ++ grp ++ [stU64 0 f.params.anchor, stBytes 1 (fullStamp (f.params.anchorNs * nsUnit)), stU64 2 (curFrame s),
      stBytes 3 (toLe 1 f.group ++ zeros 3 ++ toLe 4 f.tag.toNat), stU8 4 (b2n f.transition), stU64 5 f.lateReturned, stU64 6 f.dupReturned, stU64 7 f.carryLost]), s)) s
def execFrameGet (r : Request) (s : State) : Host.Outcome State Fault Refusal :=
  .next (finish 0x0102 r (frameGet r (begin_ r.after s)))

/-- FRAME.SET_GROUP (R39, R40). -/
def frameSetGroup (r : Request) (s : State) : Reply × State :=
  command { code := 0x0103, params := [must tFrame, must tGroupTag] } (isDie s) r (fun b s =>
    let v := (val? tGroupTag b).getD []
    if byteAt v 0 > 63 then (refuse stRange, s)
    else defer 0x0103 0 (num tFrame b) (.group (BitVec.ofNat 32 (rd v 4 4)) (byteAt v 0)) s) s
def execFrameSetGroup (r : Request) (s : State) : Host.Outcome State Fault Refusal :=
  .next (finish 0x0103 r (frameSetGroup r (begin_ r.after s)))

/-- FRAME.GET_STATS: per child, by its identity in the form of the target block, its 12 outcome counts and standby; the
skipped-frame counter. -/
def frameGetStats (r : Request) (s : State) : Reply × State :=
  command { code := 0x0104, auth := authRead, params := [may tOffset] } true r (fun b s =>
    let item (p : Nat × List Nat) : Bytes := toLe 4 p.1 ++ (List.range 13).flatMap fun i => toLe 4 (p.2.getD i 0)
    let from_ := num tOffset b
    (readout r.version [stU64 0 s.frame.skipped] ((s.hub.children.map item).drop from_) (from_ + ·), s)) s
def execFrameGetStats (r : Request) (s : State) : Host.Outcome State Fault Refusal :=
  .next (finish 0x0104 r (frameGetStats r (begin_ r.after s)))

/-- A down door configured in use (R36). -/
def inUse (d : Door) : Bool := d.dir == 1 && d.enabled

/-- The start-up configuration brings a custom door map (Table PWR-15). -/
def customMap (s : State) : Bool := bit s.cfg.flags 1

/-- The slot of a door follows from its number (R36). -/
def standardSlot (d : Nat) (s : State) : Bool := !customMap s && (!isTray s || d < 84)

/-- Slot, tray position or pod that a down door serves (R36, Table DOR-6). -/
def doorSlot (d : Nat) (s : State) : Option Nat :=
  if standardSlot d s then some (match role s with
    | .pod => d / 2
    | .root => d % 100 % 64
    | _ => d)
  else (doorAt d s).slot

/-- Down doors in use whose slot no hello has taught (R36). -/
def unlearned (s : State) : List Nat :=
  (s.net.doors.zipIdx.filter fun p => inUse p.1 && !standardSlot p.2 s && p.1.slot.isNone).map (·.2)

/-- A frame of the last 64, which a unit's readouts reach back to (R37, R135, R158). -/
def recent (n : Nat) (s : State) : Bool := curFrame s ≤ n + 64

/-- FRAME.GET_PRESENCE: the maps of a frame (R36, R37), and the doors whose slot is not learned. -/
def frameGetPresence (r : Request) (s : State) : Reply × State :=
  command { code := 0x0105, auth := authRead, params := [must tFrame] } s.build.hub r (fun b s =>
    match (tfind (num tFrame b) s.hub.maps).filter fun _ => recent (num tFrame b) s with
    | none => (refuse stRange, s)
    | some m =>
      let maps := match role s with
        | .tray => (List.range 4).map fun i => stBytes i (slice m (16 * i) 16)
        | .root => [stBytes 0 (slice m 0 8), stBytes 1 (slice m 8 8)]
        | _ => [stBytes 0 m]
      (okay (maps ++ if isTray s then [stBytes 4 ((unlearned s).map (BitVec.ofNat 8 ·))] else []), s)) s
def execFrameGetPresence (r : Request) (s : State) : Host.Outcome State Fault Refusal :=
  .next (finish 0x0105 r (frameGetPresence r (begin_ r.after s)))

/-- FRAME.GET_CONTRIBUTION (R44). -/
def frameGetContribution (r : Request) (s : State) : Reply × State :=
  command { code := 0x0106, auth := authRead, params := [must tFrame, may tOffset] } (isDie s) r (fun b s =>
    match tfind (num tFrame b) s.frame.history with
    | none => (refuse stRange, s)
    | some c => (byteRun r.version [] c (num tOffset b), s)) s
def execFrameGetContribution (r : Request) (s : State) : Host.Outcome State Fault Refusal :=
  .next (finish 0x0106 r (frameGetContribution r (begin_ r.after s)))

/-! ### RED commands (R123, R124, R135) -/

/-- The slot of a catalogue: 0 on a die unit, the group on a hub. -/
def catKey (group : Nat) (s : State) : Nat := if isDie s then 0 else group

/-- RED.STAGE_CATALOGUE. -/
def redStageCatalogue (r : Request) (s : State) : Reply × State :=
  command { code := 0x0601, params := if s.build.hub then [must tIndex, must tPiece] else [must tPiece] } (isDie s || treeTop s) r (fun b s =>
    let g := num tIndex b
    let key := catKey g s
    let head := openingPiece b
    let k : Slot := { key := 0x0601 + 65536 * key, limit := 16544
                      busy := if isDie s then s.pend.any (·.opcode == 0x0602) else (pendOf 0x0602 g s).isSome
                      mismatch := s.build.hub && head.length ≥ 1 && byteAt head 0 != g
                      cleared := { s with catsStaged := tdel key s.catsStaged } }
    match takePiece k r.session b s with
    | .done rep s => (rep, s)
    | .whole img s => stageCatalogue img s) s
def execRedStageCatalogue (r : Request) (s : State) : Host.Outcome State Fault Refusal :=
  .next (finish 0x0601 r (redStageCatalogue r (begin_ r.after s)))

/-- RED.ACTIVATE_CATALOGUE (R124). -/
def redActivateCatalogue (r : Request) (s : State) : Reply × State :=
  command { code := 0x0602, params := if s.build.hub then [must tFrame, must tIndex] else [must tFrame] } (isDie s || treeTop s) r (fun b s =>
    let key := catKey (num tIndex b) s
    if (tfind key s.catsStaged).isNone then (refuse stState, s) else defer 0x0602 key (num tFrame b) (.catalogue key) s) s
def execRedActivateCatalogue (r : Request) (s : State) : Host.Outcome State Fault Refusal :=
  .next (finish 0x0602 r (redActivateCatalogue r (begin_ r.after s)))

/-- RED.GET_CATALOGUE: CHOICE 0 the active image of the group, 1 the staged one. -/
def redGetCatalogue (r : Request) (s : State) : Reply × State :=
  command { code := 0x0603, auth := authRead, params := [must tIndex, may tChoice, may tOffset] } true r (fun b s =>
    let g := num tIndex b
    if g > 63 then (refuse stRange, s)
    else if choice b > 1 then (refuse stBadParam, s)
    else
      let get (t : List (Nat × Catalogue)) : Option Catalogue := (tfind (catKey g s) t).filter (·.group == g)
      let a := get s.cats
      let w := get s.catsStaged
      let pend := (pendOf 0x0602 (catKey g s) s).toList.map fun p => pending_ p.frame []
      (byteRun r.version (pend ++ [stU32 0 ((a.map (·.version)).getD 0), stU32 1 ((w.map (·.version)).getD 0)])
        (((if choice b == 0 then a else w).map (·.image)).getD []) (num tOffset b), s)) s
def execRedGetCatalogue (r : Request) (s : State) : Host.Outcome State Fault Refusal :=
  .next (finish 0x0603 r (redGetCatalogue r (begin_ r.after s)))

/-- RED.GET_SUMMARY. -/
def redGetSummary (r : Request) (s : State) : Reply × State :=
  command { code := 0x0604, auth := authRead, params := [must tFrame, may tOffset] } true r (fun b s =>
    match (tfind (num tFrame b) (if isDie s then s.frame.history else s.hub.summaries)).filter fun _ => recent (num tFrame b) s with
    | none => (refuse stRange, s)
    | some c => (byteRun r.version [] c (num tOffset b), s)) s
def execRedGetSummary (r : Request) (s : State) : Host.Outcome State Fault Refusal :=
  .next (finish 0x0604 r (redGetSummary r (begin_ r.after s)))

/-- RED.GET_RETURNED. -/
def redGetReturned (r : Request) (s : State) : Reply × State :=
  command { code := 0x0605, auth := authRead, params := [may tOffset] } (isDie s) r (fun b s =>
    match s.frame.summary with
    | none => (refuse stState, s)
    | some (f, c) => (byteRun r.version [stU32 0 (curFrame s - f)] c (num tOffset b), s)) s
def execRedGetReturned (r : Request) (s : State) : Host.Outcome State Fault Refusal :=
  .next (finish 0x0605 r (redGetReturned r (begin_ r.after s)))

/-- RED.TEST: sum span, squares span, infinity and NaN counts, a RESULTS record, each value's bucket, an EXTREMES record, and
the FP32 variance with the FP64 spread, which a RESULTS record leaves out. The bucket of a NaN, 0xFFFF, and the die ID of the
EXTREMES record, 0, are the model's choice (log entry 125). -/
def redTest (r : Request) (s : State) : Reply × State :=
  command { code := 0x0606, auth := authRead, params := [must tData, mustSetting 0 4] } true r (fun b s =>
    let data := (val? tData b).getD []
    let sc := signed 32 ((set? 0 b).getD 0)
    if data.length % 4 != 0 || data.length > 1024 then (refuse stBadLength, s)
    else if sc < -149 || sc > 96 then (refuse stRange, s)
    else
      let xs : List F32 := (records 4 data).map fun x => BitVec.ofNat 32 (le x)
      let k : Shape := { sum := true, squares := true, min := true, max := true, sketch := some sc }
      let a := xs.zipIdx.foldl (fun a p => addValue k p.1 0 p.2 a) {}
      let bucket (x : F32) : Nat := if isNaN32 x then 0xFFFF else bucketOf x sc
      (okay [stBytes 0 (spanBytes a.sum), stBytes 1 (spanBytes a.sq), stBytes 2 ([a.pinf, a.ninf, a.nan].flatMap (toLe 4)),
        stBytes 3 (resultRecord 0 a (some sc)), stBytes 4 (xs.flatMap fun x => toLe 2 (bucket x)), stBytes 5 (extremeRecord 0 a),
        stBytes 6 (toLe 4 (resultsOf a).var32.toNat ++ toLe 8 (resultsOf a).spread64.toNat)], s)) s
def execRedTest (r : Request) (s : State) : Host.Outcome State Fault Refusal :=
  .next (finish 0x0606 r (redTest r (begin_ r.after s)))

/-- RED.GET_CHECK: own basis and digest, peer basis and digest, outcome of Table DOR-11 by row, standby (R158). -/
def redGetCheck (r : Request) (s : State) : Reply × State :=
  command { code := 0x0607, auth := authRead, params := [must tFrame] } (isRoot s) r (fun b s =>
    match s.hub.checks.find? fun c => c.frame == num tFrame b && recent c.frame s with
    | none => (refuse stRange, s)
    | some c =>
      let basis (x : Bytes) : Bytes := slice x 0 2 ++ slice x 8 80
      let peer := c.peer.getD []
      (okay [stBytes 0 (basis c.own), stBytes 1 c.ownDigest, stBytes 2 (basis peer), stBytes 3 (slice peer 88 32), stU32 4 c.outcome, stU32 5 c.standby], s)) s
def execRedGetCheck (r : Request) (s : State) : Host.Outcome State Fault Refusal :=
  .next (finish 0x0607 r (redGetCheck r (begin_ r.after s)))

end Sys2Proof.Machine
end

