-- ==== Sys2Proof/Machine/Probes.lean ====
section
/-! DEFINITION. Known-answer probes (R223 to R246): packs, the window and its scheduler, coverage, verdicts, and the PROBE
commands. -/
namespace Sys2Proof.Machine

def setPrb (f : Probes → Probes) (s : State) : State := { s with prb := f s.prb }
def tileAt (t : Nat) (s : State) : Tile := s.prb.tiles.getD t {}
def setTile (t : Nat) (f : Tile → Tile) (s : State) : State := setPrb (fun x => { x with tiles := modifyAt t f x.tiles }) s

/-! ### Cells (R233 to R236) -/

/-- Adjacent tiles of a tile under settings (R235). -/
def neighboursOf (t : Nat) (p : ProbeSet) : List Nat :=
  if p.custom then p.neighbours.getD t []
  else
    let row := t / 8
    let col := t % 8
    (if row > 0 then [t - 8] else []) ++ (if row < 4 then [t + 8] else []) ++ (if col > 0 then [t - 1] else []) ++ (if col < 7 then [t + 1] else [])
def adjacent (t : Nat) (s : State) : List Nat := neighboursOf t s.prb.set

/-- A tile's channel in a range of the sensor map. -/
def tileChan (t lo hi : Nat) (s : State) : Option Nat := (chansOf t 1 lo hi s).head?
def tileTemp (t : Nat) (s : State) : Option Int := ((tileChan t 0 48 s).bind fun c => convAt c s.pwr.cycles s).map (·.1)
def tileVolt (t : Nat) (s : State) : Option Int := ((tileChan t 48 72 s).bind fun c => convAt c s.pwr.cycles s).map (·.1)

/-- Voltage bin (Table PRB-5). -/
def voltBin (n : Nat) (v : Int) : Option Nat :=
  let x := 100 * v
  if 94 * (n : Int) ≤ x && x < 96 * (n : Int) then some 0
  else if 96 * (n : Int) ≤ x && x < 98 * (n : Int) then some 1
  else if 98 * (n : Int) ≤ x && x < 100 * (n : Int) then some 2
  else if 100 * (n : Int) ≤ x && x ≤ 102 * (n : Int) then some 3
  else none

/-- The cell of temperature, voltage and `b` busy cycles of the adjacent tiles over `len` cycles (R233). -/
def cellOf (t : Nat) (temp volt : Option Int) (b len : Nat) (s : State) : Nat :=
  let a := (adjacent t s).length
  match temp.bind tempBin, volt.bind (voltBin (s.prb.set.nominal.getD t 3000)) with
  | some tb, some vb => if a == 0 then 255 else 16 * tb + 4 * vb + min 3 (4 * b / (a * len))
  | _, _ => 255

/-- The predicted cell (R234). -/
def predicted (t : Nat) (sig : TileSignal) (s : State) : Nat := cellOf t (tileTemp t s) (tileVolt t s) sig.busy 8192 s

def cellAt (t c : Nat) (s : State) : Cell := tget {} (128 * t + c) s.prb.cells
def setCell (t c : Nat) (f : Cell → Cell) (s : State) : State :=
  if c ≥ 128 then s else setPrb (fun x => { x with cells := tput (128 * t + c) (f (tget {} (128 * t + c) x.cells)) x.cells }) s

def cellOpen : Nat := 0
def cellSuspect : Nat := 1
def cellConfirmed : Nat := 2

/-- A cell's state changes; CONFIRMED stays (R240). -/
def markCell (t c st : Nat) (s : State) : State := setCell t c (fun x => if x.state == cellConfirmed then x else { x with state := st }) s

/-- The need of a cell (R236). -/
def need (t c : Nat) (s : State) : Nat := if (cellAt t c s).state == cellConfirmed then 0 else s.prb.set.target - (cellAt t c s).passes

/-- A coverage cell (Table PRB-6). -/
def cellBytes (c : Cell) : Bytes :=
  toLe 8 (c.passes * 2 ^ 48 + c.fails * 2 ^ 40 + c.state * 2 ^ 38 + c.next * 2 ^ 27 + c.lastPass % 2 ^ 27)

/-! ### The window (R232) -/

def packProbes (s : State) : List ProbeDef := match s.prb.active with | some p => p.probes | none => []
def probeAt (i : Nat) (s : State) : ProbeDef := (packProbes s).getD i ⟨0, 0, 0, 0, 0, 0, 0⟩

/-- The window closes 2 µs before the next tick. -/
def windowClose (s : State) : Nat := s.frame.endAt.getD (s.frame.tickAt + periodUnits s.frame.params) - 2000 * nsUnit

/-- The running frame is window-short (R232). -/
def windowShort (s : State) : Bool :=
  match packProbes s with
  | [] => false
  | p :: r => decide (windowClose s < markAt s.frame.params.ret s + ((r.foldl (fun m q => min m q.duration) p.duration) + 2) * 1000 * nsUnit)

/-- A probe may start now on a tile that signals so (R232). -/
def startable (p : ProbeDef) (sig : TileSignal) (s : State) : Bool :=
  sig.idle && p.duration ≤ sig.horizon && decide (s.time.now + p.duration * 1000 * nsUnit ≤ windowClose s)

/-- From probe `i` on, at most once round the pack: the first that can start now. -/
def nextStartable (i : Nat) (sig : TileSignal) (s : State) : Option Nat :=
  let n := (packProbes s).length
  ((List.range n).map fun k => (i + k) % n).find? fun j => startable (probeAt j s) sig s

/-- Index of a probe ID in the active pack. -/
def probeIndex (id : Nat) (s : State) : Option Nat := findIdx (fun p => p.id.toNat == id) (packProbes s)

/-- Start a probe on a tile. -/
def startRun (t i : Nat) (retest queued : Bool) (s : State) : State :=
  let run : Run := { probe := i, startedAt := s.time.now, cycle := s.pwr.cycles, frame := curFrame s, retest := retest, queued := queued, vStart := tileVolt t s }
  let s := setTile t (fun x => { x with run := some run, started := true }) (setPrb (fun x => { x with lastStarted := some t }) s)
  State.emit (.probeGo t (probeAt i s)) s

/-- What the scheduler may do with a tile. -/
inductive Choice where
  | skip
  | wait                                 -- a probe is chosen and cannot start now
  | rerun (probe : Nat)
  | order (probe : Nat)
  | cell (c probe : Nat)
  | outside (probe : Nat)

/-- The scheduler's choice for one tile (R237, R246). -/
def chooseProbe (t : Nat) (sig : TileSignal) (s : State) : Choice :=
  let x := tileAt t s
  let c := predicted t sig s
  let fromCell : Choice := match nextStartable (cellAt t c s).next sig s with | some i => .cell c i | none => .wait
  let ordered : Option Nat := x.order.bind fun o => if o.2.2 ≤ curFrame s then some o.1 else none
  match ordered with
  | some id => (match probeIndex id s with
    | some i => if startable (probeAt i s) sig s then .order i else .wait
    | none => .wait)
  | none => match x.retest with
    | some q => if c == q.cell || q.cell == 255 then
        (match probeIndex q.probe.toNat s with
         | some i => if startable (probeAt i s) sig s then .rerun i else .wait
         | none => .wait)
      else .skip
    | none =>
      if c != 255 && need t c s > 0 then fromCell
      else if x.idleFrames ≥ s.prb.set.background then
        (if c != 255 then fromCell else match nextStartable x.outside sig s with | some i => .outside i | none => .wait)
      else .skip

/-- One tile of a pass. -/
def examine (t : Nat) (sig : TileSignal) (s : State) : State :=
  let x := tileAt t s
  let n := (packProbes s).length
  if x.hung || x.disabled || x.started || x.run.isSome || x.ended.isSome || (s.prb.tiles.filter (·.run.isSome)).length ≥ s.prb.set.conc then s else
  match chooseProbe t sig s with
  | .skip => setTile t (fun x => { x with skips := x.skips + 1 }) s
  | .wait => s
  | .rerun i => startRun t i true false s
  | .order i => startRun t i false true s
  | .cell c i => startRun t i false false (setCell t c (fun k => { k with next := (i + 1) % n }) s)
  | .outside i => startRun t i false false (setTile t (fun x => { x with outside := (i + 1) % n }) s)

/-- Failing records that wait in the carry queue; 512 of them pause the scheduler (R30). -/
def failsWaiting (s : State) : Nat := (s.frame.carryProbes.filter probeFailed).length
def probePause (s : State) : Bool := failsWaiting s ≥ 512

/-- PROBE_SCHEDULER_PASS (R237, R242): one per microsecond of the window. -/
def execProbeSchedulerPass (tiles : List TileSignal) (s : State) : Host.Outcome State Fault Refusal :=
  let s := s.fresh
  if !working s || s.build.hub || !s.prb.window then .next s else
  let t := markAt s.frame.params.ret s + s.prb.pass * 1000 * nsUnit
  if t > windowClose s then .next (setPrb (fun x => { x with window := false }) s) else
  let s := setPrb (fun x => { x with pass := x.pass + 1 }) (advanceTo t s)
  if !s.prb.set.on || s.prb.active.isNone || s.sht.hung || probePause s then .next s else
  let order := (List.range 40).map fun k => (s.prb.cursor + k) % 40
  .next (order.foldl (fun s x => examine x (tiles.getD x ⟨false, 0, 0⟩) s) s)

/-! ### Results (R234, R238 to R243) -/

/-- Drop a passing record, counted for its tile. -/
def countDropped (b : Bytes) (s : State) : State := setTile (byteAt b 0 % 64) (fun x => { x with dropped := x.dropped + 1 }) s

/-- A probe record joins the carry queue; above 512 the oldest passing record gives way (R30). -/
def addProbe (b : Bytes) (s : State) : State :=
  let l := s.frame.carryProbes ++ [b]
  if l.length ≤ 512 then { s with frame := { s.frame with carryProbes := l } } else
  match bestBy probeBefore (l.filter fun b => !probeFailed b) with
  | some old => countDropped old { s with frame := { s.frame with carryProbes := l.erase old } }
  | none => { s with frame := { s.frame with carryProbes := l } }

/-- A record of the probe classes, against the tile (Table ERR-3, Table ERR-4). -/
def raiseProbe (cls sev t cell : Nat) (id : Word) (diff : BitVec 64) (tag : Option Nat) (s : State) : State :=
  raise { cls := cls, sev := sev, op := 0x8100 + min 255 cell, entity := t, kind := 1, ownTag := tag, detail := toLe 4 id.toNat ++ toLe 8 diff.toNat } s

/-- The reply of a PROBE.RUN: STATE 0 says how it ended (0 a result, 1 YIELDED, 2 no end within 1,000 frames), with the probe
record of a result. -/
def answerOrder (t how : Nat) (rec_ : Option Bytes) (s : State) : State :=
  match (tileAt t s).order with
  | none => s
  | some (_, r, _) =>
    let s := setTile t (fun x => { x with order := none }) s
    finish 0x0B0C r (okay ((rec_.toList.map record) ++ [stU32 0 how]), s)

/-- A completed run ends starvation (R241). -/
def fed (t : Nat) (s : State) : State :=
  let x := tileAt t s
  let s := setTile t (fun x => { x with idleFrames := 0, starveFrames := 0, starvedAt := none }) s
  match x.starvedAt with
  | some f => raiseOwn 0x16 0 0 t 1 (toLe 8 (curFrame s - f)) s
  | none => s

/-- Verdicts of Table PRB-9. -/
def vNone : Nat := 0
def vPending : Nat := 1
def vTransient : Nat := 2
def vConfirmed : Nat := 3

/-- A retest ends UNRESOLVED (Table PRB-7). -/
def unresolved (t : Nat) (s : State) : State :=
  match (tileAt t s).retest with
  | none => s
  | some q => raiseProbe 0x14 1 t q.cell q.probe q.diff none (markCell t q.cell cellOpen (setTile t (fun x => { x with retest := none }) s))

/-- The retest at a run's end (R239, Table PRB-7): verdict and place of the run. A fail whose probe a pack activated since then lacks
opens a retest that ends at once. -/
def judgeRun (t cell : Nat) (e : Ended) (s : State) : (Nat × Nat) × State :=
  let fail := e.outcome != 0
  match (tileAt t s).retest with
  | none =>
    if fail && !e.run.queued then
      let q : Retest := { probe := e.probe.id, cell := cell, openedAt := e.run.frame, diff := e.diff }
      let s := markCell t cell cellSuspect (setTile t (fun x => { x with retest := some q }) s)
      ((vPending, 1), if (probeIndex e.probe.id.toNat s).isNone then unresolved t s else s)
    else ((vNone, 0), s)
  | some q =>
    if !e.run.retest || cell != q.cell then ((vNone, 0), s)
    else if fail then
      let s := setCell t cell (fun c => { c with state := cellConfirmed }) (setTile t (fun x => { x with retest := none }) s)
      ((vConfirmed, q.runs + 1), raiseProbe 0x12 2 t q.cell q.probe q.diff (some e.tag) s)
    else if q.runs < 2 then ((vPending, q.runs + 1), setTile t (fun x => { x with retest := some { q with runs := q.runs + 1 } }) s)
    else
      let s := markCell t cell cellOpen (setTile t (fun x => { x with retest := none }) s)
      ((vTransient, q.runs + 1), raiseProbe 0x13 1 t q.cell q.probe q.diff (some e.tag) s)

/-- A probe record (Table PRB-9). -/
def probeRecord (t verdict cell place : Nat) (temp : Option Int) (e : Ended) (s : State) : Bytes :=
  let a := (adjacent t s).length
  toLe 1 t ++ toLe 1 (16 * verdict + e.outcome) ++ toLe 1 cell ++ toLe 1 place ++ toLe 4 e.probe.id.toNat ++ toLe 8 e.run.frame ++ toLeS 2 (temp.getD 0) ++
    toLeS 2 (e.volt.getD 0) ++ toLe 2 (if a == 0 then u16Max else 1000 * e.busy / (a * e.cycles)) ++ toLe 2 (min u16Max e.cycles) ++ toLe 8 e.diff.toNat ++
    toLe 4 e.pack ++ zeros 4

/-- Counts of the measured cell (R238). -/
def countRun (t cell : Nat) (e : Ended) (s : State) : State :=
  setCell t cell (fun c =>
    if e.outcome != 0 then { c with fails := satAdd 255 c.fails 1 } else { c with passes := satAdd u16Max c.passes 1, lastPass := e.run.frame % 2 ^ 27 }) s

/-- A completed run is settled with v_T (R234): its measured cell, counts, retest, record, and the records and triggers that need
them. Where it comes after a clearing of the coverage, only the record remains (R242). -/
def settleRun (t : Nat) (temp : Option Int) (s : State) : State :=
  match (tileAt t s).ended with
  | none => s
  | some e =>
    let s := setTile t (fun x => { x with ended := none }) s
    let cell := cellOf t temp e.volt e.busy e.cycles s
    let s := if e.hung then raiseProbe 0x11 2 t cell e.probe.id 0 (some e.tag) s else s
    let ((verdict, place), s) := if e.cleared then ((vNone, 0), s) else judgeRun t cell e (countRun t cell e s)
    let rec_ := probeRecord t verdict cell place temp e s
    let s := addProbe rec_ s
    let s := if s.trc.set.confirmedOnly && verdict == vConfirmed then takeTrigger trgProbe t s else s
    if e.run.queued then answerOrder t 0 (some rec_) s else s

/-- v_V (R234): the smallest conversion of the tile's voltage channel that completed during the run, or the latest before it. -/
def runVolt (t : Nat) (run : Run) (s : State) : Option Int :=
  match tileChan t 48 72 s with
  | none => none
  | some c =>
    let k := chanAt c s
    (leastOf ((k.recent.filter fun x => run.cycle ≤ x.1).map fun x => (reading c x.2 k).1)).or run.vStart

/-- A run completes: it ends starvation, a fail triggers trace unless only a CONFIRMED verdict does (Table TRC-7), and it is settled by
the first temperature conversion after it, at once where the tile has no temperature channel. -/
def completeRun (t : Nat) (run : Run) (outcome : Nat) (hung : Bool) (r : ProbeResult) (s : State) : State :=
  let p := probeAt run.probe s
  let e : Ended :=
    { run := run, probe := p, pack := packVersion s, outcome := outcome, diff := if outcome == 1 then r.signature ^^^ p.expected else 0
      busy := r.busy, cycles := r.cycles, volt := runVolt t run s, tag := s.frame.tag.toNat, hung := hung }
  let s := fed t (setTile t (fun x => { x with run := none, ended := some e }) s)
  let s := if outcome != 0 && !s.trc.set.confirmedOnly then takeTrigger trgProbe t s else s
  if (tileChan t 0 48 s).isNone then settleRun t none s else s

/-- SENSOR_ANSWER (R102, R449): a conversion; the first of a tile's temperature channel after a run settles the run (R234). -/
def execSensorAnswer (channel : Nat) (code : Nat) (s : State) : Host.Outcome State Fault Refusal :=
  let (s, done) := sensorAnswer channel code s.fresh
  if !done || channel ≥ 48 then .next s else
  .next ((List.range 40).foldl (fun s t => if tileChan t 0 48 s == some channel then settleRun t (tileTemp t s) s else s) s)

/-- PROBE_DONE (R224 to R226, R238): T cycles after GO. -/
def execProbeDone (tile : Nat) (result : ProbeResult) (s : State) : Host.Outcome State Fault Refusal :=
  let s := s.fresh
  match (tileAt tile s).run with
  | none => .next s
  | some run =>
    if !working s || result.status > 2 then .next s else
    let s := State.emit (.probeDrop tile) (advanceTo (run.startedAt + result.cycles * cycleUnits s) s)
    if run.aborted then .next (completeRun tile run 2 false result s)
    else if result.status == 2 then
      let s := setTile tile (fun x => { x with run := none, yields := x.yields + 1 }) s
      .next (if run.queued then answerOrder tile 1 none s else s)
    else if result.status == 1 then .next (completeRun tile run 3 false result s)
    else .next (completeRun tile run (b2n (result.signature != (probeAt run.probe s).expected)) false result s)

/-- When a run's declared duration ends. -/
def runLimit (run : Run) (s : State) : Nat := run.startedAt + (probeAt run.probe s).duration * 1000 * nsUnit

/-- PROBE_DURATION_EXPIRY (R226). -/
def execProbeDurationExpiry (tile : Nat) (s : State) : Host.Outcome State Fault Refusal :=
  let s := s.fresh
  match (tileAt tile s).run with
  | none => .next s
  | some run =>
    if !working s || run.aborted then .next s else
    .next (State.emit (.probeAbort tile) (setTile tile (fun x => { x with run := some { run with aborted := true } }) (advanceTo (runLimit run s) s)))

/-- What a tile that never reports would have presented: its run ends with the limit, and the busy cycles that no DONE closes are a
free value (R234). -/
def hungResult (run : Run) (s : State) : ProbeResult × State :=
  let len := (s.time.now - run.startedAt) / cycleUnits s
  ({ status := 0, signature := 0, cycles := len, busy := Config.freeNat s.free % (4 * len + 1) }, { s with free := s.free + 1 })

/-- PROBE_ABORT_TIMEOUT (R226): 4 µs after ABORT the tile is hung, and its run is a TIMEOUT; PROBE_HUNG carries the measured cell. -/
def execProbeAbortTimeout (tile : Nat) (s : State) : Host.Outcome State Fault Refusal :=
  let s := s.fresh
  match (tileAt tile s).run with
  | none => .next s
  | some run =>
    if !working s || !run.aborted then .next s else
    let s := State.emit (.probeDrop tile) (advanceTo (runLimit run s + 4000 * nsUnit) s)
    let (r, s) := hungResult run s
    .next (completeRun tile run 2 true r (setTile tile (fun x => { x with hung := true }) s))

/-- RETEST_LIMIT_EXPIRY (R239). -/
def execRetestLimitExpiry (tile : Nat) (s : State) : Host.Outcome State Fault Refusal :=
  let s := s.fresh
  match (tileAt tile s).retest with
  | none => .next s
  | some q => if !working s || q.runs > 1 || curFrame s < q.openedAt + s.prb.set.retest then .next s else .next (unresolved tile s)

/-- PROBE_STARVED (R241). -/
def execProbeStarved (tile : Nat) (s : State) : Host.Outcome State Fault Refusal :=
  let s := s.fresh
  let x := tileAt tile s
  if !working s || s.build.hub || x.starvedAt.isSome || x.starveFrames < s.prb.set.starve then .next s else
  .next (raiseOwn 0x15 0 0 tile 1 (toLe 8 s.prb.set.starve) (setTile tile (fun x => { x with starvedAt := some (curFrame s) }) s))

/-- PASSING_RECORD_DROP (R243): passing records unsent for 64 frames. -/
def execPassingRecordDrop (s : State) : Host.Outcome State Fault Refusal :=
  let s := s.fresh
  if !working s then .next s else
  let old (b : Bytes) : Bool := !probeFailed b && rd b 8 8 + 64 ≤ curFrame s
  let gone := s.frame.carryProbes.filter old
  .next (gone.foldl (fun s b => countDropped b s) { s with frame := { s.frame with carryProbes := s.frame.carryProbes.filter fun b => !old b } })

/-- PROBE_RUN_TIMEOUT (R246). -/
def execProbeRunTimeout (tile : Nat) (s : State) : Host.Outcome State Fault Refusal :=
  let s := s.fresh
  match (tileAt tile s).order with
  | none => .next s
  | some (_, _, f) => if !working s || curFrame s < f + 1000 then .next s else .next (answerOrder tile 2 none s)

/-! ### Ticks and changes -/

/-- The end of a frame (R237, R241): counts, cursor and the closing of the window. A run of an earlier frame whose temperature channel
gave no conversion in the whole frame that ends is settled without one (R100, R234). -/
def probesAtTick (s : State) : State :=
  let late (t : Nat) : Bool := match (tileAt t s).ended with | some e => decide (e.run.frame < curFrame s) | none => false
  let s := ((List.range 40).filter late).foldl (fun s t => settleRun t none s) s
  let short := windowShort s
  let on := s.prb.active.isSome && s.frame.last.isSome
  let tile (x : Tile) : Tile :=
    { x with started := false, idleFrames := x.idleFrames + b2n on, starveFrames := x.starveFrames + b2n (on && !short) }
  setPrb (fun x => { x with tiles := x.tiles.map tile, shortFrames := x.shortFrames + b2n (on && short), window := false, pass := 0
                            cursor := (match x.lastStarted with | some t => (t + 1) % 40 | none => x.cursor), lastStarted := none }) s

/-- The staged pack becomes active and the old active pack the staged one (R230, R237, R242). -/
def activatePack (s : State) : State :=
  let s := setPrb (fun x => { x with active := x.staged, staged := x.active, cells := x.cells.map fun c => (c.1, { c.2 with next := 0 })
                                     tiles := x.tiles.map fun t => { t with outside := 0, idleFrames := 0, starveFrames := 0 } }) s
  (List.range 40).foldl (fun s t => match (tileAt t s).retest with
    | some q => if (probeIndex q.probe.toNat s).isNone then unresolved t s else s
    | none => s) s

/-- PROBE.CLEAR_COVERAGE at its tick (R242). -/
def clearCoverage (s : State) : State := setPrb (fun x => { x with cells := [], tiles := x.tiles.map fun t => { t with retest := none, ended := t.ended.map fun e => { e with cleared := true } } }) s

/-- A tile is disabled, or enabled again and no longer hung. -/
def tileOn (t : Nat) (on : Bool) (s : State) : State :=
  setTile t (fun x => if on then { x with disabled := false, hung := false } else { x with disabled := true }) s

/-! ### Packs (R227 to R231) -/

def packHash (img : Bytes) : Bytes := slice img 16 32
/-- Bytes of the codec output in a pack. -/
def packCoded (img : Bytes) : Bytes := slice img 64 (img.length - 192)
/-- The largest pack: 16 blocks stored raw, between envelope and trailer. -/
def packLimit : Nat := 64 + 16 * 4104 + 128
/-- Body length rounded up to 4 KiB. -/
def packRoom (img : Bytes) : Nat := (rd img 8 4 + 4095) / 4096 * 4096

def readProbe (b : Bytes) : ProbeDef :=
  { id := BitVec.ofNat 32 (rd b 0 4), kernel := rd b 4 2, mask := byteAt b 6, duration := byteAt b 7, seed := BitVec.ofNat 64 (rd b 8 8)
    params := BitVec.ofNat 64 (rd b 16 8), expected := BitVec.ofNat 64 (rd b 24 8) }

/-- The checks that need no decompression (Table PRB-4), after BUSY. -/
def packEarly (img : Bytes) (s : State) : Option Nat :=
  if img.length < 192 || !verified 3 img s then some stSig
  else if rd img 4 2 != 1 || rd img 8 4 > 65536 || rd img 12 4 != img.length - 192 then some stFormat
  else none

/-- The checks after decompression, `c` being the context's result. -/
def packLate (img : Bytes) (c : Ctx) (s : State) : Except Reply Pack :=
  let len := rd img 8 4
  let body := c.output.take len
  let n := rd body 0 2
  let es := (List.range n).map fun i => slice body (32 + 32 * i) 32
  let ids := es.map (rd · 0 4)
  let badEntry (p : Bytes × Nat) : Bool :=
    let k := readProbe p.1
    k.id == 0 || ((ids.take p.2).contains (rd p.1 0 4)) || k.mask == 0 || k.mask > 31 || k.duration == 0 || k.duration > 40
  if c.status != cdDone then .error (detail stFormat c.status 0)
  else if len != 32 + 32 * n || sha256 body != packHash img || !allZero (c.output.drop len) || rd body 4 4 != rd img 0 4 then .error (refuse stFormat)
  else if rd img 48 4 > s.prb.lib then .error (refuse stVersion)
  else if rd img 0 4 == 0 || !allZero (slice img 6 2) || !allZero (slice img 52 12) || !allZero (slice body 2 2) || !allZero (slice body 8 24) then
    .error (refuse stBadParam)
  else match findIdx badEntry es.zipIdx with
    | some i => .error (detail stBadParam 0 i)
    | none =>
      if n == 0 || n > 2047 then .error (refuse stRange)
      else match findIdx (fun (e : Bytes) => rd e 4 2 ≥ s.prb.kernels) es with
        | some i => .error (detail stRange 0 i)
        | none => .ok { version := rd img 0 4, hash := packHash img, probes := es.map readProbe }

/-- An installation may not open: an activation is pending, or a pack is in the decompressor. -/
def packBusy (s : State) : Bool := (pendOf 0x0B02 0 s).isSome || s.prb.install.isSome

/-- The pack is active or staged already (R229). -/
def packHeld (hash : Bytes) (s : State) : Bool :=
  (s.prb.active.map (·.hash)) == some hash || (s.prb.staged.map (·.hash)) == some hash

/-- A whole pack goes to the decompressor, or is refused. -/
def openInstall (r : Option Request) (img : Bytes) (f : Option Nat) (s : State) : Option Nat × State :=
  match packEarly img s with
  | some e => (some e, s)
  | none =>
    let s := jobOn 2 (freshJob true (headOf (packCoded img)).target (packRoom img) true (packCoded img)) s
    (none, setPrb (fun x => { x with install := some (r, img, f) }) s)

/-- One outcome of a pushed pack goes to the parent (Table DOR-5B). -/
def sendPackOutcome (hash : Bytes) (status : Nat) (s : State) : State :=
  let (n, s) := nextSerial 6 s
  sendBulk 0 6 n (hash ++ toLe 2 status ++ zeros 2 ++ toLe 4 1) s

/-- The decompressor has ended: the pack is staged or refused, and the command or the push is answered (R228, R230). -/
def packDecoded (s : State) : State :=
  match s.prb.install with
  | none => s
  | some (r, img, f) =>
    let s := setPrb (fun x => { x with install := none }) s
    let (rep, s) : Reply × State := match packLate img (ctxAt 2 s) s with
      | .error e => (e, s)
      | .ok p =>
        let s := setPrb (fun x => { x with staged := some p }) s
        match f with
        | none => (okay [], s)
        | some f =>
          let f := max f (curFrame s + 1)
          ({ status := stDeferred, tlvs := [effect f] }, setPend ⟨0x0B02, 0, f, .pack⟩ s)
    match r with
    | some r => finish 0x0B01 r (rep, s)
    | none => sendPackOutcome (packHash img) rep.status s

/-- PROBE.INSTALL_PACK (R228 to R230, R392): the last piece is answered when the decompressor has ended. -/
def probeInstallPack (r : Request) (s : State) : Option Reply × State :=
  let (rep, s') := command { code := 0x0B01, params := [may tFrame, must tPiece] } (isDie s) r (fun b s =>
    let opening := openingPiece b
    let slot : Slot := { key := 0x0B01, limit := packLimit, busy := packBusy s, dup := opening.length ≥ 64 && packHeld (packHash opening) s
                         cleared := setPrb (fun x => { x with staged := none }) s }
    match takePiece slot r.session b s with
    | .done p s => (p, s)
    | .whole img s =>
      if packBusy s then (refuse stBusy, s)
      else if (match num? tFrame b with | some f => decide (f ≤ curFrame s) | none => false) then (refuse stRange, s)
      else match openInstall (some r) img (num? tFrame b) s with
        | (some e, s) => (refuse e, s)
        | (none, s) => (okay [], s)) s
  if s'.prb.install.isSome && s.prb.install.isNone then (none, s') else (some rep, s')
def execProbeInstallPack (r : Request) (s : State) : Host.Outcome State Fault Refusal :=
  match probeInstallPack r (begin_ r.after s) with
  | (some p, s) => .next (finish 0x0B01 r (p, s))
  | (none, s) => .next s

/-! ### Pushes (R231) -/

/-- The unit at the far end of a door, in the form of the target block. -/
def peerId (d : Door) : Nat := if peerIsHub d then 2 ^ 31 + peerHub d else peerDie d

/-- A push of the hub changes. -/
def setPush (hash : Bytes) (f : Push → Push) (s : State) : State :=
  setPrb (fun x => { x with pushes := x.pushes.map fun p => if p.hash == hash then f p else p }) s

/-- A push is still in progress on the hub. -/
def pushing (hash : Bytes) (s : State) : Bool := s.prb.pushes.any fun p => p.hash == hash && !p.ended

/-- A push goes to every live child that has not had it: on a door of its own each. -/
def pushOne (hash : Bytes) (s : State) : State :=
  s.net.doors.zipIdx.foldl (fun s x =>
    match s.prb.pushes.find? (·.hash == hash) with
    | none => s
    | some p =>
      let id := peerId x.1
      if x.1.dir != 1 || !live x.1 || p.done.contains id then s else
      let s := setPush hash (fun q => { q with done := q.done ++ [id] }) s
      let (n, s) := nextSerial 5 s
      sendBulk x.2 5 n (toLe 8 (p.frame.getD 0) ++ p.pack) s) s

/-- Every push in progress goes to the children that have not had it. -/
def pushOn (s : State) : State := (s.prb.pushes.filter fun p => !p.ended).foldl (fun s p => pushOne p.hash s) s

/-- A push begins here, beside those still in progress. -/
def startPush (source : Option Nat) (f : Option Nat) (img : Bytes) (s : State) : State :=
  let p : Push := { hash := packHash img, pack := img, frame := f, source := source }
  pushOn (setPrb (fun x => { x with pushes := (x.pushes.filter fun q => q.hash != p.hash) ++ [p] }) s)

/-- A die unit takes a pushed pack as if by PROBE.INSTALL_PACK. -/
def takePack (f : Option Nat) (img : Bytes) (s : State) : State :=
  let answer (st : Nat) : State := sendPackOutcome (packHash img) st s
  if packBusy s then answer stBusy
  else if img.length > packLimit then answer stSpace
  else if packHeld (packHash img) s then answer stOk
  else if f.any (· ≤ curFrame s) then answer stRange
  else match openInstall none img f s with
    | (some e, _) => answer e
    | (none, s) => s

/-- PROBE_PACK_ARRIVAL (R231). -/
def execProbePackArrival (door : Nat) (item : Bytes) (s : State) : Host.Outcome State Fault Refusal :=
  let s := s.fresh
  if !carries door s then .next s
  else if item.length < 8 + 192 || (doorAt door s).dir == 1 then .next (malformedOn door s)
  else
    let f := if rd item 0 8 == 0 then none else some (rd item 0 8)
    let img := item.drop 8
    if !s.build.hub then .next (takePack f img s)
    else if pushing (packHash img) s then .next s
    else .next (startPush (some door) f img s)

/-- PACK_OUTCOME_ARRIVAL (R231): counted, and passed to the hub that the push came from. -/
def execPackOutcomeArrival (door : Nat) (item : Bytes) (s : State) : Host.Outcome State Fault Refusal :=
  let s := s.fresh
  let n := (item.length - 32) / 8
  if !carries door s || !s.build.hub then .next s
  else if item.length < 40 || item.length % 8 != 0 || n > 16 then .next (malformedOn door s)
  else match s.prb.pushes.find? (·.hash == item.take 32) with
    | none => .next s
    | some p =>
      let counts := (records 8 (item.drop 32)).foldl (fun t e => tput (rd e 0 2) (tget 0 (rd e 0 2) t + rd e 4 4) t) p.counts
      let s := setPush p.hash (fun q => { q with counts := counts }) s
      match p.source with
      | none => .next s
      | some d => match (if liveAt d s then some d else uplink s) with
        | none => .next s
        | some d => let (n, s) := nextSerial 6 s; .next (sendBulk d 6 n item s)

/-- PROBE.PUSH_PACK (R231). -/
def probePushPack (r : Request) (s : State) : Reply × State :=
  command { code := 0x0B03, params := [may tFrame, must tPiece] } s.build.hub r (fun b s =>
    let opening := openingPiece b
    let dup := opening.length ≥ 64 && pushing (packHash opening) s
    match takePiece { key := 0x0B03, limit := packLimit, dup := dup, cleared := s } r.session b s with
    | .done p s => (p, s)
    | .whole img s =>
      if !storeUsable s then (refuse stState, s)
      else if (match num? tFrame b with | some f => decide (f ≤ curFrame s) | none => false) then (refuse stRange, s)
      else if img.length < 192 || !verified 3 img s then (refuse stSig, s)
      else (okay [], startPush none (num? tFrame b) img s)) s
def execProbePushPack (r : Request) (s : State) : Host.Outcome State Fault Refusal := .next (finish 0x0B03 r (probePushPack r (begin_ r.after s)))

/-- PROBE.END_PUSH (R231): it names no push, so it ends the distribution of every one in progress; their counts stay (log entry 143). -/
def probeEndPush (r : Request) (s : State) : Reply × State :=
  command { code := 0x0B04 } s.build.hub r (fun _ s =>
    if s.prb.pushes.all (·.ended) then (refuse stState, s)
    else (okay [], setPrb (fun x => { x with pushes := x.pushes.map fun p => { p with ended := true } }) s)) s
def execProbeEndPush (r : Request) (s : State) : Host.Outcome State Fault Refusal := .next (finish 0x0B04 r (probeEndPush r (begin_ r.after s)))

/-- A push for PROBE.GET_PUSH: hash, ended, children served, then status and count pairs. -/
def pushBytes (p : Push) : Bytes :=
  p.hash ++ toLe 4 (b2n p.ended) ++ toLe 4 p.done.length ++ p.counts.flatMap fun c => toLe 2 c.1 ++ zeros 2 ++ toLe 4 c.2

/-- PROBE.GET_PUSH (R231): the pushes since reset, oldest first. -/
def probeGetPush (r : Request) (s : State) : Reply × State :=
  command { code := 0x0B05, auth := authRead, params := [may tOffset] } s.build.hub r (fun b s =>
    let from_ := num tOffset b
    if s.prb.pushes.isEmpty then (refuse stState, s)
    else (readout r.version [] ((s.prb.pushes.drop from_).map pushBytes) (from_ + ·), s)) s
def execProbeGetPush (r : Request) (s : State) : Host.Outcome State Fault Refusal := .next (finish 0x0B05 r (probeGetPush r (begin_ r.after s)))

/-! ### Other commands (Tables PRB-11 and PRB-12) -/

/-- PROBE.ACTIVATE_PACK (R230). -/
def probeActivatePack (r : Request) (s : State) : Reply × State :=
  command { code := 0x0B02, params := [must tFrame] } (isDie s) r (fun b s =>
    if s.prb.staged.isNone then (refuse stState, s) else defer 0x0B02 0 (num tFrame b) .pack s) s
def execProbeActivatePack (r : Request) (s : State) : Host.Outcome State Fault Refusal :=
  .next (finish 0x0B02 r (probeActivatePack r (begin_ r.after s)))

/-- The settings as SETTINGs, the rows of Table PRB-11. -/
def probeSettings (p : ProbeSet) : List Tlv :=
  let near := (List.range 40).flatMap fun t => fit 4 ((neighboursOf t p).map (fun n => (BitVec.ofNat 8 n : Byte)) ++ List.replicate 4 0xFF)
  [setU8 0 (b2n p.on), setBytes 1 (p.nominal.flatMap (toLe 4)), setU32 2 p.target, setU32 3 p.background, setU32 4 p.starve, setU32 5 p.retest,
    setU32 6 p.conc, setBytes 7 near]

/-- The settings that a PROBE.SET makes of the current ones; 0xFF in the neighbour table names no tile. -/
def givenProbes (b : List Tlv) (p : ProbeSet) : ProbeSet :=
  let near (v : Bytes) : List (List Nat) := (records 4 v).map fun q => (q.map (·.toNat)).filter (· != 255)
  { on := ((set? 0 b).map (· != 0)).getD p.on, nominal := ((val? (tSetting 1) b).map fun v => (records 4 v).map le).getD p.nominal
    target := (set? 2 b).getD p.target, background := (set? 3 b).getD p.background, starve := (set? 4 b).getD p.starve
    retest := (set? 5 b).getD p.retest, conc := (set? 6 b).getD p.conc, neighbours := ((val? (tSetting 7) b).map near).getD p.neighbours
    custom := p.custom || (val? (tSetting 7) b).isSome }

/-- PROBE.SET (R245). -/
def probeSet (r : Request) (s : State) : Reply × State :=
  command { code := 0x0B06, params := [must tFrame, setting 0 1, setting 1 160, setting 2 4, setting 3 4, setting 4 4, setting 5 4, setting 6 4, setting 7 160] }
    (isDie s) r (fun b s =>
    let p := givenProbes b s.prb.set
    if (set? 0 b).getD 0 > 1 || p.nominal.any (fun v => v == 0 || v > 65535) || p.target == 0 || p.target > 255 || p.background == 0 || p.background > 65535 || p.starve < 100 ||
      p.starve > 16777215 || p.retest < 100 || p.retest > 1000000 || p.conc == 0 || p.conc > 40 || num tFrame b ≤ curFrame s then (refuse stRange, s)
    else if p.neighbours.zipIdx.any fun q => q.1.any fun n => n > 39 || n == q.2 then (refuse stBadParam, s)
    else defer 0x0B06 0 (num tFrame b) (.probeSet p) s) s
def execProbeSet (r : Request) (s : State) : Host.Outcome State Fault Refusal := .next (finish 0x0B06 r (probeSet r (begin_ r.after s)))

/-- State of one tile for PROBE.GET: flags hung, disabled, starved, run in progress, order queued, retest pending; retest cell, runs and
probe; frames since the last completed run; yields, stops, skips, dropped records. -/
def tileBytes (t : Nat) (s : State) : Bytes :=
  let x := tileAt t s
  toLe 1 t ++ toLe 1 (b2n x.hung + 2 * b2n x.disabled + 4 * b2n x.starvedAt.isSome + 8 * b2n x.run.isSome + 16 * b2n x.order.isSome + 32 * b2n x.retest.isSome) ++
    toLe 1 ((x.retest.map (·.cell)).getD 0) ++ toLe 1 ((x.retest.map (·.runs)).getD 0) ++ toLe 4 ((x.retest.map (·.probe.toNat)).getD 0) ++
    toLe 4 x.idleFrames ++ toLe 4 x.yields ++ toLe 4 x.stops ++ toLe 4 x.skips ++ toLe 4 x.dropped

def packState (p : Option Pack) : Bytes := match p with | some p => toLe 4 p.version ++ p.hash | none => zeros 36

/-- PROBE.GET: settings with their pending change; active and staged version and hash, activation frame, cursor, window-short count,
carry-queue pause; per tile from INDEX on. -/
def probeGet (r : Request) (s : State) : Reply × State :=
  command { code := 0x0B07, auth := authRead, params := [may tIndex] } (isDie s) r (fun b s =>
    let from_ := num tIndex b
    let pend := (pendOf 0x0B06 0 s).toList.map fun p => match p.change with
      | .probeSet q => pending_ p.frame (probeSettings q)
      | _ => pending_ p.frame []
    let act := ((pendOf 0x0B02 0 s).map (·.frame)).getD 0
    (readout r.version (probeSettings s.prb.set ++ pend ++ [stBytes 0 (packState s.prb.active), stBytes 1 (packState s.prb.staged), stU64 2 act, stU32 3 s.prb.cursor,
      stU32 4 s.prb.shortFrames, stU32 5 (b2n (probePause s))]) (((List.range 40).drop from_).map (tileBytes · s)) (from_ + ·), s)) s
def execProbeGet (r : Request) (s : State) : Host.Outcome State Fault Refusal := .next (finish 0x0B07 r (probeGet r (begin_ r.after s)))

/-- PROBE.GET_COVERAGE: each named tile's number and 128 cells, from the OFFSETth named tile on. -/
def probeGetCoverage (r : Request) (s : State) : Reply × State :=
  command { code := 0x0B08, auth := authRead, params := [many tIndex 40, may tOffset] } (isDie s) r (fun b s =>
    let ts := nums tIndex b
    if ts.any (· > 39) then (refuse stRange, s) else
    let item (t : Nat) : Bytes := toLe 4 t ++ (List.range 128).flatMap fun c => cellBytes (cellAt t c s)
    (readout r.version [] ((ts.drop (num tOffset b)).map item) (num tOffset b + ·), s)) s
def execProbeGetCoverage (r : Request) (s : State) : Host.Outcome State Fault Refusal :=
  .next (finish 0x0B08 r (probeGetCoverage r (begin_ r.after s)))

/-- PROBE.CLEAR_COVERAGE (R242). -/
def probeClearCoverage (r : Request) (s : State) : Reply × State :=
  command { code := 0x0B09, params := [must tFrame] } (isDie s) r (fun b s => defer 0x0B09 0 (num tFrame b) (.clearCoverage (List.range 40)) s) s
def execProbeClearCoverage (r : Request) (s : State) : Host.Outcome State Fault Refusal :=
  .next (finish 0x0B09 r (probeClearCoverage r (begin_ r.after s)))

/-- PROBE.DISABLE_TILE and RESUME_TILE name one object, the tile (R391). -/
def deferTile (code t f : Nat) (on : Bool) (s : State) : Reply × State :=
  if f ≤ curFrame s then (refuse stRange, s) else
  let old := (pendOf 0x0B0A t s).or (pendOf 0x0B0B t s)
  ({ status := stDeferred, tlvs := effect f :: (old.map fun p => (⟨tReplaced, toLe 8 p.frame⟩ : Tlv)).toList },
    setPend ⟨code, t, f, .tileOn t on⟩ (dropPend 0x0B0B t (dropPend 0x0B0A t s)))

/-- PROBE.DISABLE_TILE. -/
def probeDisableTile (r : Request) (s : State) : Reply × State :=
  command { code := 0x0B0A, params := [must tFrame, must tIndex] } (isDie s) r (fun b s =>
    if num tIndex b > 39 then (refuse stRange, s) else deferTile 0x0B0A (num tIndex b) (num tFrame b) false s) s
def execProbeDisableTile (r : Request) (s : State) : Host.Outcome State Fault Refusal :=
  .next (finish 0x0B0A r (probeDisableTile r (begin_ r.after s)))

/-- PROBE.RESUME_TILE (R226). -/
def probeResumeTile (r : Request) (s : State) : Reply × State :=
  command { code := 0x0B0B, params := [must tFrame, must tIndex] } (isDie s) r (fun b s =>
    let t := num tIndex b
    if t ≤ 39 && !(tileAt t s).hung && !(tileAt t s).disabled then (refuse stState, s)
    else if t > 39 then (refuse stRange, s)
    else deferTile 0x0B0B t (num tFrame b) true s) s
def execProbeResumeTile (r : Request) (s : State) : Host.Outcome State Fault Refusal :=
  .next (finish 0x0B0B r (probeResumeTile r (begin_ r.after s)))

/-- PROBE.RUN (R246): the first INDEX is the tile, the second the probe ID. It is answered when the run ends. -/
def probeRun (r : Request) (s : State) : Option Reply × State :=
  let (rep, s') := command { code := 0x0B0C, params := [many tIndex 2] } (isDie s) r (fun b s =>
    match nums tIndex b with
    | [t, id] =>
      if t > 39 then (refuse stRange, s)
      else if s.prb.active.isNone || (tileAt t s).order.isSome then (refuse stState, s)
      else if (probeIndex id s).isNone then (refuse stBadParam, s)
      else (okay [], setTile t (fun x => { x with order := some (id, r, curFrame s + b2n s.prb.window) }) s)
    | _ => (refuse stBadParam, s)) s
  if rep.status == stOk then (none, s') else (some rep, s')
def execProbeRun (r : Request) (s : State) : Host.Outcome State Fault Refusal :=
  match probeRun r (begin_ r.after s) with
  | (some p, s) => .next (finish 0x0B0C r (p, s))
  | (none, s) => .next s

end Sys2Proof.Machine
end

