-- ==== Sys2Proof/Machine/Dump.lean ====
section
/-! DEFINITION. Hangs and hang dumps (R325, R326), and the codec engine's turn (R344). -/
namespace Sys2Proof.Machine

/-! ### Dump items (Table SHT-8); the order of fields within an item is this model's where no other table gives it -/

/-- The counter file: live, previous, delta and descriptor of every counter (R85). -/
def dumpCounters (s : State) : Bytes :=
  let all (f : Ctr → Nat) : Bytes := (List.range (ctrCount s)).flatMap fun i => toLe 8 (f (tget {} i s.win.ctrs))
  all (·.live) ++ all (·.prev) ++ all (fun c => c.delta.getD 0) ++ all fun c =>
    c.raw % 2 ^ 48 + 2 ^ 60 * (8 * b2n c.saturated + 4 * b2n c.stale + 2 * b2n c.rebased + b2n c.declared)

/-- Stream entities: open stall, port, start in ns, saved position. -/
def dumpStreams (s : State) : Bytes :=
  s.win.streams.flatMap fun p => toLe 2 p.1 ++ toLe 1 (b2n p.2.isOpen) ++ toLe 1 p.2.port ++ fit 12 p.2.position

/-- Coverage matrices, then a retest per tile: cell, runs, probe, difference, frame. -/
def dumpProbes (s : State) : Bytes :=
  let cells := (List.range 40).flatMap fun t => (List.range 128).flatMap fun c => cellBytes (cellAt t c s)
  let retests := (List.range 40).flatMap fun t => match (tileAt t s).retest with
    | some q => toLe 1 1 ++ toLe 1 q.cell ++ toLe 1 q.runs ++ zeros 1 ++ toLe 4 q.probe.toNat ++ toLe 8 q.diff.toNat ++ toLe 8 q.openedAt
    | none => zeros 24
  cells ++ fit 1024 retests

/-- One item of the block's own, copied as it stands now. -/
def dumpItem (k : Nat) (s : State) : Bytes :=
  match k with
  | 0 => dumpCounters s
  | 1 => fit (4096 * 64) (s.evr.slots.flatMap (fit 64))
  | 2 => fit (4096 * 64) (s.err.ring.flatMap (·.bytes))
  | 3 => fit 524288 ((s.trc.queue ++ s.trc.srcs.filterMap (·.chunk)).flatMap fun c => fit 1024 (chunkBody c s))
  | 4 => fit 393216 (s.fea.trackers.flatMap trackerState)
  | 5 => fit 12288 s.glen.ring.flatten
  | 6 => dumpStreams s
  | 7 => dumpProbes s
  | _ => []

/-- LIVE segments of the active program that a dump runs: it stops nothing, so their chains must go back unchanged (R319, R326). -/
def liveSegments (s : State) : List Segment := (segments s).filter fun g => g.op == 2 && g.recirc

/-! ### The dump (R326) -/

/-- The program's codec target; 2,048 B without a program. -/
def dumpTarget (s : State) : Nat := match s.sht.active with | some p => p.target | none => 1

/-- The next item goes to the codec; after the last, and once the lanes have brought the LIVE segments, the image leaves. With codec target 0
the items stand plainly. -/
def dumpNext (s : State) : State :=
  match s.sht.dumpHead with
  | none => s
  | some head =>
    let finishDump (l : List (Nat × Nat × Bytes)) (s : State) : State :=
      let dir := l.flatMap fun p => toLe 1 p.1 ++ zeros 3 ++ toLe 4 p.2.1
      sendImage 2 head [] (dir ++ l.flatMap (·.2.2)) (setSht (fun x => { x with dumpHead := none, dumpTodo := [], dumpDone := [] }) s)
    match s.sht.dumpTodo with
    | [] => if s.sht.liveRun then s else finishDump s.sht.dumpDone s
    | (_, b) :: _ =>
      if dumpTarget s != 0 then jobOn 1 (freshJob false (dumpTarget s) 0 false b) s
      else if s.sht.liveRun then s
      else finishDump (s.sht.dumpTodo.map fun p => (p.1, p.2.length, p.2)) s

/-- An item has left the codec. -/
def dumpItemDone (s : State) : State :=
  match s.sht.dumpTodo with
  | [] => s
  | (k, b) :: r => dumpNext (setSht (fun x => { x with dumpTodo := r, dumpDone := x.dumpDone ++ [(k, b.length, (ctxAt 1 s).output)] }) s)

/-- Flags of the dump's image gain SKIPPED. -/
def dumpSkipped (s : State) : State :=
  setSht (fun x => { x with dumpHead := x.dumpHead.map fun h => splice h 2 (toLe 1 (byteAt h 2 ||| 2)) }) s

/-- The tick after the declaration (R326): the block's own items are copied, and the LIVE segments go on the lanes, unless a stop has
taken the die since. -/
def dumpAtTick (s : State) : State :=
  if !s.sht.dumpDue then s else
  let codes := (List.range 8).filter fun k => bit s.sht.hang.items k
  let live := bit s.sht.hang.items 8
  let free := s.sht.state == shIdle || s.sht.state == shArmed
  let runs := live && free && !(liveSegments s).isEmpty
  let items := codes.map (fun k => (k, dumpItem k s)) ++ (if live && !runs then [(8, [])] else [])
  let s := setSht (fun x => { x with dumpDue := false, dumpTodo := items, dumpDone := [], liveRun := runs }) s
  let s := if live && (segments s).any (fun g => g.op == 2 && !(runs && g.recirc)) then dumpSkipped s else s
  dumpNext (if runs then State.emit (.scanStart 1 (scanTck s)) s else s)

/-- The lanes have run the dump's LIVE segments (R326): all of them, or, when a stop's scan waits for the lanes, those that its outputs
complete; the others are skipped. -/
def liveEnd (output : List Bytes) (s : State) : State :=
  let gs := liveSegments s
  let ran := if s.sht.state == shScanning then gs.take output.length else gs
  let bits_ := ran.zipIdx.map fun (g, i) => (g, fit (segBytes g) (output.getD i []))
  let s := if ran.length < gs.length then dumpSkipped s else s
  let s := setSht (fun x => { x with liveRun := false, dumpTodo := x.dumpTodo ++ [(8, bits_.flatMap (·.2))] }) s
  let s := State.emits (bits_.map fun p => .scanShift p.1.lane p.1.op p.1.length p.2) s
  if (ctxAt 1 s).active then s else dumpNext s

/-- SCAN_END (R319, R321, R326): the lanes complete segments, whose outputs it brings, as far as the output has room. The scan ends with the
last of them. A dump's LIVE segments come first, and a scan waits until the image before it has left the codec. -/
def execScanEnd (output : List Bytes) (s : State) : Host.Outcome State Fault Refusal :=
  let s := s.fresh
  if s.sht.liveRun then .next (liveEnd output s)
  else if s.sht.state != shScanning || s.sht.building.isSome then .next s
  else .next (scanOn output s)

/-- The head of the episode's image. -/
def hangHead (s : State) : Bytes :=
  imageHead 2 0 (8 * b2n (s.time.lock != 1)) s.sht.episode 0 s.frame.tickAt (curFrame s) s.frame.tag 0 0 0xFF 0 0 s

/-- A dump is still being built or sent. -/
def dumpSending (s : State) : Bool := s.sht.dumpHead.isSome || s.sht.liveRun || (openTransfers (doorAt 0 s)).any (·.1 == 2)

/-- HANG_DECLARED (R325, R326). -/
def execHangDeclared (s : State) : Host.Outcome State Fault Refusal :=
  let s := s.fresh
  let h := s.sht.hang
  if !working s || s.build.hub || h.counters.isEmpty || s.sht.hung || s.sht.hangCount < h.limit then .next s else
  let s := setSht (fun x => { x with hung := true, hangFrame := curFrame s, episode := x.episode + 1 }) s
  let s := ownEntry 0x0F50 0 0 (toLe 4 h.limit) s
  match h.action with
  | 1 => .next (if dumpSending s then setSht (fun x => { x with skippedDumps := x.skippedDumps + 1 }) s
                else setSht (fun x => { x with dumpHead := some (hangHead s), dumpDue := true }) s)
  | 2 => .next (immediateStop causeHang 1 s).2
  | _ => .next s

/-! ### The codec engine (R344) -/

/-- What follows the end of a context's job: the scan image, the next dump item, the probe pack, or the test's reply. -/
def jobEnded (k : Nat) (s : State) : State :=
  if s.build.hub then testEnded s else
  match k with
  | 0 => scanStreamEnded s
  | 1 => dumpItemDone s
  | 2 => packDecoded s
  | _ => testEnded s

/-- CODEC_BLOCK (R344): one block of the first context that has one. -/
def execCodecBlock (s : State) : Host.Outcome State Fault Refusal :=
  let s := s.fresh
  if !working s then .next s else
  match engineStep s with
  | (some k, s) => .next (jobEnded k s)
  | (none, s) => .next s

end Sys2Proof.Machine
end

