-- ==== Sys2Proof/Machine/Audit.lean ====
section
/-! DEFINITION. Bulk items that hubs keep for their units (R361), and audit digests (R435 to R441). -/
namespace Sys2Proof.Machine

/-! ### Recorder mirror (R361) -/

/-- The written entry of a sequence number. -/
def entryOf (seq : Nat) (s : State) : Option Bytes := if seq < s.evr.base || seq ≥ s.evr.head then none else s.evr.slots[seq - s.evr.base]?

/-- MIRROR_ENTRY_SEND (R361): the next written entry, once the hub grants bulk credit. -/
def execMirrorEntrySend (s : State) : Host.Outcome State Fault Refusal :=
  let s := s.fresh
  if s.build.hub || !carries 0 s then .next s else
  let k := max s.evr.mirrorNext s.evr.base
  match entryOf k s with
  | none => .next s
  | some b =>
    let (n, s) := nextSerial 8 { s with evr := { s.evr with mirrorNext := k + 1 } }
    .next (sendBulk 0 8 n b s)

/-- RECORDER_MIRROR_ARRIVAL (R361). -/
def execRecorderMirrorArrival (door : Nat) (item : Bytes) (s : State) : Host.Outcome State Fault Refusal :=
  let s := s.fresh
  if !isTray s || !carries door s then .next s
  else if item.isEmpty || item.length % 64 != 0 then .next (malformedOn door s)
  else .next (mirrorTake (peerDie (doorAt door s)) item s)

/-! ### Audit channels of a die unit (R435 to R437) -/

def setAud (f : Audit → Audit) (s : State) : State := { s with aud := f s.aud }
def auditChunk : Nat := 65536

/-- Stream bytes join a channel: whole chunks become leaf hashes (R436). `fuel` bounds the chunks. -/
def takeChunks : Nat → AuditCh → AuditCh
  | 0, c => c
  | f + 1, c => if c.part.length < auditChunk then c else
      takeChunks f { c with leaves := c.leaves ++ [leafHash (c.part.take auditChunk)], part := c.part.drop auditChunk }

def feed (data : Bytes) (c : AuditCh) : AuditCh := takeChunks (data.length + 1) { c with bytes := c.bytes + data.length, part := c.part ++ data }

/-- AUDIT_TRANSFER (R435): counted from the tick of F up to the sealing tick. -/
def execAuditTransfer (channel : Nat) (data : Bytes) (s : State) : Host.Outcome State Fault Refusal :=
  let s := s.fresh
  if !working s || s.build.hub || s.aud.start.isNone || (s.aud.chans.getD channel {}).role == 0 then .next s
  else .next (setAud (fun a => { a with chans := modifyAt channel (feed data) a.chans }) s)

/-- AUDIT_LOSS (R435). -/
def execAuditLoss (channels : BitVec 16) (s : State) : Host.Outcome State Fault Refusal :=
  let s := s.fresh
  if !working s || s.build.hub || s.aud.start.isNone then .next s else
  let lost (p : AuditCh × Nat) : AuditCh := if bit channels.toNat p.2 && p.1.role != 0 then { p.1 with incomplete := true } else p.1
  .next (setAud (fun a => { a with chans := a.chans.zipIdx.map lost }) s)

/-- A channel's stream root (R436). -/
def streamRoot (c : AuditCh) : Bytes := merkleRoot (c.leaves ++ if c.part.isEmpty then [] else [leafHash c.part])

/-- The die audit record (Table HSH-1). -/
def dieRecord (tag : Word) (start sealF : Nat) (s : State) : Bytes :=
  let used := s.aud.chans.filter (·.role != 0)
  let ch (c : AuditCh) : Bytes := toLe 1 c.role ++ toLe 1 (b2n c.incomplete) ++ toLe 2 c.entity ++ zeros 4 ++ toLe 8 c.bytes ++ streamRoot c
  let tiles := ((List.range 40).filter fun t => bit s.aud.set.tiles t).length
  toLe 1 1 ++ toLe 1 used.length ++ zeros 2 ++ toLe 4 (dieId s) ++ toLe 4 tag.toNat ++ toLe 4 tiles ++ toLe 8 start ++ toLe 8 sealF ++ used.flatMap ch

/-- The seal (R435, R437). `tag` is the job tag that the audit ran under, `n` the frame whose tick this is. -/
def auditAtTick (tag : Word) (n : Nat) (transition : Bool) (s : State) : State :=
  match s.aud.start with
  | none => s
  | some f =>
    let due := match s.aud.set.seal_ with | some k => decide (k ≤ n) | none => false
    if n ≤ f || !(due || transition) then s else
    let sealF := match s.aud.set.seal_ with | some k => min k n | none => n
    let rec_ := dieRecord tag f sealF s
    let s := setAud (fun a => { a with start := none, records := lastN 4 (a.records ++ [rec_]) }) s
    let (k, s) := nextSerial 9 s
    sendBulk 0 9 k rec_ s

/-- HSH.SET_AUDIT at the tick of F: the audit starts anew. -/
def startAudit (a : AuditSet) (f : Nat) (s : State) : State :=
  setAud (fun x => { x with set := a, start := some f, chans := a.roles.map fun r => { role := r.1, entity := r.2 } }) s

/-! ### The tree of a hub (R438) -/

/-- What a level covers: tree levels and the lead of its close. -/
def auditLevels (s : State) : Nat := match role s with | .tray => 7 | .pod => 5 | _ => 6
def auditLead (s : State) : Nat := match role s with | .tray => 1024 | .pod => 1040 | _ => 1056

def keyIs (tag : Word) (f : Nat) (k : AuditKey) : Bool := k.tag == tag && k.sealF == f
def auditKey (tag : Word) (f : Nat) (s : State) : Option AuditKey := s.aud.keys.find? (keyIs tag f)
def putKey (k : AuditKey) (s : State) : State := setAud (fun a => { a with keys := a.keys.map fun x => if keyIs k.tag k.sealF x then k else x }) s

/-- The part of a leaf that counts: a root takes plane A's of a pod, or else plane B's. -/
def partUsed (k : AuditKey) (s : State) (p : Nat × Nat × Nat × Nat) : Bool :=
  !isRoot s || p.1 < 64 || !k.leaves.any (·.1 == p.1 - 64)

/-- Dies, tiles and late records of a key. -/
def auditCounts (k : AuditKey) (s : State) : Nat × Nat × Nat :=
  let ps := k.parts.filter (partUsed k s)
  (sumN (ps.map (·.2.1)), sumN (ps.map (·.2.2.1)), k.late + sumN (ps.map (·.2.2.2)))

/-- The digest or node of a leaf. -/
def leafNode (k : AuditKey) (s : State) (i : Nat) : Bytes :=
  match tfind i k.leaves with
  | some b => b
  | none => if isRoot s then (tfind (i + 64) k.leaves).getD (zeros 32) else zeros 32

/-- The item of Table DOR-5B for a closed key. -/
def nodeItem (k : AuditKey) (s : State) : Bytes :=
  let (d, t, l) := auditCounts k s
  toLe 4 k.tag.toNat ++ zeros 4 ++ toLe 8 k.sealF ++ fit 32 k.node ++ toLe 4 d ++ toLe 4 t ++ toLe 4 l ++ zeros 4

/-- The door to a parent of a plane, live or not: bulk waits for its door (R145). -/
def parentDoor (plane : Nat) (s : State) : Option Nat :=
  (upDoor plane s).or (findIdx (fun d => d.dir == 2 && d.accepted && peerIsHub d && bits (peerHub d) 13 1 == plane) s.net.doors)

/-- A tray hub sends to both pod hubs, a pod hub to both roots. -/
def sendNode (k : AuditKey) (s : State) : State :=
  [0, 1].foldl (fun s p => match parentDoor p s with
    | some d => let (n, s) := nextSerial 10 s; sendBulk d 10 n (nodeItem k s) s
    | none => s) s

/-- The job record (Table HSH-2). -/
def jobRecord (k : AuditKey) (s : State) : Bytes :=
  let (d, t, l) := auditCounts k s
  let seeds := ((s.aud.seeds.find? (·.1 == k.tag)).map (·.2)).getD []
  toLe 4 k.tag.toNat ++ toLe 8 k.sealF ++ toLe 4 d ++ toLe 4 t ++ toLe 4 l ++ fit 64 seeds ++ fit 32 k.node ++ zeros 8

/-- The tick at which the level closes the key of a seal frame has come. -/
def closeDue (sealFrame : Nat) (s : State) : Bool := sealFrame + auditLead s ≤ curFrame s

/-- A key closes: its node is formed and sent on; a root forms the job record (R438, R439). -/
def closeKey (k : AuditKey) (s : State) : State :=
  let k := { k with isClosed := true, node := auditTree (leafNode k s) (auditLevels s) 0 }
  let s := putKey k s
  if isRoot s then setAud (fun a => { a with jobs := a.jobs ++ [jobRecord k s] }) s else sendNode k s

/-- AUDIT_CLOSE (R438, R439): at the tick of the seal frame plus the level's lead. -/
def execAuditClose (tag : Word) (sealFrame : Nat) (s : State) : Host.Outcome State Fault Refusal :=
  let s := s.fresh
  match auditKey tag sealFrame s with
  | none => .next s
  | some k =>
    .next (if !working s || !s.build.hub || k.isClosed || !closeDue sealFrame s then s else closeKey k s)

/-- Keys that a hub holds open. -/
def openKeys (s : State) : Nat := (s.aud.keys.filter (!·.isClosed)).length

/-- The key of an arrival, opened if there is room for it; otherwise the arrival is counted and dropped. From its closing tick on a
key is closed, and what comes is late (R438). -/
def withKey (tag : Word) (f : Nat) (act : AuditKey → State → State) (s : State) : State :=
  match auditKey tag f s with
  | some k =>
    if k.isClosed || !closeDue f s then act k s else
    let s := closeKey k s
    act ((auditKey tag f s).getD k) s
  | none =>
    if closeDue f s then
      let k : AuditKey := { tag := tag, sealF := f, isClosed := true, node := zeros 32 }
      act k (setAud (fun a => { a with keys := a.keys ++ [k] }) s)
    else if openKeys s ≥ 16 then setAud (fun a => { a with excess := a.excess + 1 }) s
    else
      let k : AuditKey := { tag := tag, sealF := f }
      act k (setAud (fun a => { a with keys := a.keys ++ [k] }) s)

/-- A leaf arrives for an open key, or late: excluded and counted, with the new count sent on. -/
def placeLeaf (leaf : Nat) (node : Bytes) (dies tiles late : Nat) (k : AuditKey) (s : State) : State :=
  let here := k.leaves.any (·.1 == leaf)
  let parts (d t : Nat) : List (Nat × Nat × Nat × Nat) := tput leaf (d, t, late) k.parts
  if !k.isClosed then putKey { k with leaves := tput leaf node k.leaves, parts := parts dies tiles } s
  else
    let old := (tfind leaf k.parts).getD (0, 0, 0)
    let k := if here then { k with parts := parts old.1 old.2.1 } else { k with late := k.late + dies + late }
    let s := setAud (fun a => { a with lateCount := a.lateCount + b2n (!here) }) (putKey k s)
    if isRoot s then s else sendNode k s

/-- AUDIT_RECORD_ARRIVAL (R438). -/
def execAuditRecordArrival (door : Nat) (item : Bytes) (s : State) : Host.Outcome State Fault Refusal :=
  let s := s.fresh
  if !isTray s || !carries door s then .next s
  else if item.length < 32 || item.length != 32 + 48 * byteAt item 1 || byteAt item 0 != 1 || byteAt item 1 > 16 ||
      rd item 4 4 != peerDie (doorAt door s) then .next (malformedOn door s)
  else .next (withKey (BitVec.ofNat 32 (rd item 8 4)) (rd item 24 8) (placeLeaf (slotOf (rd item 4 4)) (sha256 (0x10 :: item)) 1 (rd item 12 4) 0) s)

/-- AUDIT_NODE_ARRIVAL (R438). -/
def execAuditNodeArrival (door : Nat) (item : Bytes) (s : State) : Host.Outcome State Fault Refusal :=
  let s := s.fresh
  if !(isPod s || isRoot s) || !carries door s then .next s
  else if item.length != 64 || !allZero (slice item 4 4) || !allZero (slice item 60 4) then .next (malformedOn door s)
  else
    let peer := peerHub (doorAt door s)
    let leaf := if isPod s then bits peer 0 5 else bits peer 0 6 + 64 * bits peer 13 1
    .next (withKey (BitVec.ofNat 32 (rd item 0 4)) (rd item 8 8) (placeLeaf leaf (slice item 16 32) (rd item 48 4) (rd item 52 4) (rd item 56 4)) s)

/-! ### HSH commands (Table SEC-9) -/

/-- Roles and entities of the 16 channels. -/
def auditRoles (a : AuditSet) : List (Nat × Nat) := a.roles ++ List.replicate (16 - a.roles.length) (0, 0)

/-- An audit as SETTINGs: roles, entities, tile mask, seal frame. -/
def auditSettings (a : AuditSet) : List Tlv :=
  [setBytes 0 ((auditRoles a).flatMap fun r => toLe 1 r.1), setBytes 1 ((auditRoles a).flatMap fun r => toLe 4 r.2), setBytes 2 (toLe 5 a.tiles),
    setBytes 3 (toLe 8 (a.seal_.getD 0))]

/-- HSH.GET (R441): the settings and what is pending; a RECORD per channel in use: channel, role, entity, INCOMPLETE, bytes hashed; on a
root one per job tag with seeds; the engine load, which the spec does not measure, is a free value. -/
def hshGet (r : Request) (s : State) : Reply × State :=
  command { code := 0x1401, auth := authRead, params := [may tOffset] } true r (fun b s =>
    let from_ := num tOffset b
    let item (p : AuditCh × Nat) : Bytes := toLe 1 p.2 ++ toLe 1 p.1.role ++ toLe 2 p.1.entity ++ toLe 1 (b2n p.1.incomplete) ++ zeros 3 ++ toLe 8 p.1.bytes
    let pend := (pendOf 0x1402 0 s).toList.map fun p => match p.change with
      | .audit a => pending_ p.frame (auditSettings a)
      | .seeds t d => pending_ p.frame [setBytes 4 (toLe 4 t.toNat ++ d)]
      | _ => pending_ p.frame []
    let seeds := s.aud.seeds.map fun p => toLe 4 p.1.toNat ++ fit 64 p.2
    let (load, t) := drawBytes 4 s
    let p := readout r.version (auditSettings s.aud.set ++ pend ++ [stBytes 0 load])
      (((s.aud.chans.zipIdx.filter (·.1.role != 0)).map item ++ seeds).drop from_) (from_ + ·)
    (p, if p.status == stOk then t else s)) s
def execHshGet (r : Request) (s : State) : Host.Outcome State Fault Refusal := .next (finish 0x1401 r (hshGet r (begin_ r.after s)))

/-- Roles and stream entities that HSH.SET_AUDIT asks for: those it leaves out stand as they are. -/
def givenAudit (b : List Tlv) (s : State) : List (Nat × Nat) :=
  let roles : List Nat := match val? (tSetting 0) b with | some v => v.map (·.toNat) | none => (auditRoles s.aud.set).map (·.1)
  let ents : List Nat := match val? (tSetting 1) b with | some v => (records 4 v).map le | none => (auditRoles s.aud.set).map (·.2)
  roles.zip ents

/-- HSH.SET_AUDIT on a die unit (R435): FRAME is F, and the settings are the roles and the stream entities of the 16 channels, the
tile mask and the seal frame. A setting left out keeps its value (R376); no seal frame is none. -/
def setAuditDie (b : List Tlv) (s : State) : Reply × State :=
  let f := num tFrame b
  let pairs := givenAudit b s
  if f ≤ curFrame s || (set? 3 b).any (· ≤ f) || pairs.any (·.2 > 4095) then (refuse stRange, s)
  else if pairs.any fun p => p.1 > 3 || (p.1 != 0 && !isStream p.2 s) then (refuse stBadParam, s)
  else defer 0x1402 0 f (.audit { roles := pairs, tiles := (set? 2 b).getD s.aud.set.tiles, seal_ := set? 3 b }) s

/-- HSH.SET_AUDIT on a root (R439): seeds of a job tag. -/
def setSeeds (b : List Tlv) (s : State) : Reply × State :=
  let d := (val? tData b).getD []
  if d.length > 64 then (refuse stBadLength, s)
  else if (val? tGroupTag b).isNone || (val? tData b).isNone then (refuse stBadParam, s)
  else defer 0x1402 0 (num tFrame b) (.seeds (BitVec.ofNat 32 (rd ((val? tGroupTag b).getD []) 4 4)) d) s

/-- HSH.SET_AUDIT (R435, R439). -/
def hshSetAudit (r : Request) (s : State) : Reply × State :=
  let seeds := (val? tData r.body).isSome
  let settings := [setting 0 16, setting 1 64, setting 2 5, setting 3 8]
  command { code := 0x1402, params := must tFrame :: (if seeds then [may tGroupTag, may tData] else settings) }
    (isRoot s || (isDie s && !seeds)) r (fun b s => if isRoot s then setSeeds b s else setAuditDie b s) s
def execHshSetAudit (r : Request) (s : State) : Host.Outcome State Fault Refusal := .next (finish 0x1402 r (hshSetAudit r (begin_ r.after s)))

/-- The key that FRAME and GROUP_TAG name: seal frame and job tag. -/
def namedKey (b : List Tlv) : Option (Word × Nat) :=
  match val? tFrame b, val? tGroupTag b with
  | some f, some g => some (BitVec.ofNat 32 (rd g 4 4), le f)
  | _, _ => none

/-- HSH.GET_DIGEST: a die unit's sealed records and the state of its open streams; a hub's node and counts per key,
which stand in its store (R457, R465). -/
def hshGetDigest (r : Request) (s : State) : Reply × State :=
  command { code := 0x1403, auth := authRead, params := [may tFrame, may tOffset, may tGroupTag] } true r (fun b s =>
    let from_ := num tOffset b
    let key := namedKey b
    if isDie s then
      let pass (x : Bytes) : Bool := match key with | some (t, f) => rd x 8 4 == t.toNat && rd x 24 8 == f | none => true
      let rs := s.aud.records.filter pass
      let open_ := s.aud.chans.flatMap fun c => toLe 1 c.role ++ toLe 1 (b2n c.incomplete) ++ toLe 2 c.entity ++ toLe 4 c.leaves.length ++ toLe 8 c.bytes
      if key.isSome && rs.isEmpty then (refuse stRange, s)
      else (readout r.version [stBytes 0 (optNum 8 s.aud.start), stBytes 1 open_] (rs.drop from_) (from_ + ·), s)
    else
      if !storeUsable s then (refuse stState, s) else
      let ks := s.aud.keys.filter fun k => match key with | some (t, f) => keyIs t f k | none => true
      if key.isSome && ks.isEmpty then (refuse stRange, s)
      else (readout r.version [stU32 0 s.aud.excess, stU32 1 s.aud.lateCount] ((ks.drop from_).map fun k => nodeItem k s ++ toLe 4 (b2n k.isClosed)) (from_ + ·), s)) s
def execHshGetDigest (r : Request) (s : State) : Host.Outcome State Fault Refusal := .next (finish 0x1403 r (hshGetDigest r (begin_ r.after s)))

/-- HSH.GET_JOB_DIGEST (R439). -/
def hshGetJobDigest (r : Request) (s : State) : Reply × State :=
  command { code := 0x1404, auth := authRead, params := [must tFrame, must tGroupTag] } (isRoot s) r (fun b s =>
    match namedKey b with
    | none => (refuse stRange, s)
    | some (t, f) => match s.aud.jobs.find? fun j => rd j 0 4 == t.toNat && rd j 4 8 == f with
      | some j => (okay [record j, stBytes 0 (sha256 (0x12 :: j))], s)
      | none => (refuse stRange, s)) s
def execHshGetJobDigest (r : Request) (s : State) : Host.Outcome State Fault Refusal :=
  .next (finish 0x1404 r (hshGetJobDigest r (begin_ r.after s)))

end Sys2Proof.Machine
end

