-- ==== Sys2Proof/Machine/Errors.lean ====
section
/-! DEFINITION. Delivery of error records (R259 to R265), export periods (R270), and the ERR and PSN commands. -/
namespace Sys2Proof.Machine

/-! ### Entries as they are sent (R259) -/

/-- Ring entries in sequence order, each after the gap that its loss mark announces; with each, its last number. -/
def withGaps (s : State) : Nat → List RingEntry → List (Nat × Bytes)
  | _, [] => []
  | prev, e :: r =>
    (match e.mark with
     | some m => if prev + 1 < e.seq then [(e.seq - 1, gapRecord (prev + 1) (e.seq - 1) m s)] else []
     | none => []) ++ (e.seq, e.bytes) :: withGaps s e.seq r

def ringEntries (s : State) : List (Nat × Bytes) := withGaps s s.err.release s.err.ring

/-- The highest number in the ring, or the release point. -/
def newest (s : State) : Nat := (s.err.ring.getLast?.map (·.seq)).getD s.err.release

/-- The tail gap of the present tail mark. -/
def tailGap (s : State) : List (Nat × Bytes) :=
  match s.err.tail with
  | some m => if newest s + 1 < s.err.next then [(s.err.next - 1, gapRecord (newest s + 1) (s.err.next - 1) m s)] else []
  | none => []

/-- An entry is a gap record. -/
def isGap (e : Bytes) : Bool := byteAt e 38 == 1
/-- The last number that an entry covers. -/
def lastOf (e : Bytes) : Nat := if isGap e then rd e 52 8 else rd e 0 8
/-- A gap that spans `n` begins at `n` (R263). -/
def clipGap (n : Nat) (e : Bytes) : Bytes := if isGap e && rd e 0 8 < n then toLe 8 n ++ e.drop 8 else e

/-- At each tick: a tail mark that has changed since the last tail gap is announced once every entry has been sent. -/
def tailAtTick (s : State) : State :=
  match s.err.tail with
  | some m => if s.err.tailSent == some (s.err.next - 1, m) then s else { s with err := { s.err with tailDue := true } }
  | none => s

/-! ### The reporter (R260 to R262) -/

/-- Begin a resend of every entry above the release point. -/
def resendAll (s : State) : State := { s with err := { s.err with sent := s.err.release, resend := true, tailDue := s.err.tail.isSome } }

/-- A record acknowledgement body (Table ERR-5). -/
def ackBody (reporter : Nat) (resend : Bool) (release : Nat) : Bytes := toLe 4 reporter ++ toLe 2 (b2n resend) ++ zeros 2 ++ toLe 8 release

/-- Raise the release point and free every entry at or below it (R262). -/
def releaseTo (n : Nat) (s : State) : State :=
  if n ≤ s.err.release then s else { s with err := { s.err with release := n, ring := s.err.ring.filter (n < ·.seq) } }

/-- A 0x23 for a reporter (R261): down by R166, or to this unit itself. -/
def sendAck (reporter : Nat) (resend : Bool) (release : Nat) (s : State) : State :=
  if reporter == unitId s then (if resend then resendAll s else releaseTo release s)
  else forwardMsg { kind := 2, type := 0x23, flags := headFlags reporter, target := headTarget reporter, body := ackBody reporter resend release } s

/-- The door that records leave by; a change of door begins a resend, and a FORWARD hub that moves to another parent asks
for one from every reporter that it passed (R262). -/
def recordDoor (s : State) : Option Nat × State :=
  match uplink s with
  | none => (none, s)
  | some d =>
    if s.err.via == some d then (some d, s) else
    let moved := match s.err.via with
      | some o => s.build.hub && peerHub (doorAt o s) != peerHub (doorAt d s)
      | none => false
    let first := s.err.via.isNone
    let s := { s with err := { s.err with via := some d } }
    let s := if first then s else resendAll s
    (some d, if moved then s.err.passedUp.foldl (fun s p => sendAck p.1 true 0 s) s else s)

/-- ERROR_ENTRY_SEND (R259, R262): up to 16 entries of a die unit on the fleet route leave in one message. A hub exports its own
entries, so none of them leaves this way (R260). -/
def execErrorEntrySend (s : State) : Host.Outcome State Fault Refusal :=
  let s := s.fresh
  if !working s || !s.err.fleet || s.build.hub then .next s else
  match recordDoor s with
  | (none, s) => .next s
  | (some d, s) =>
    let due := (ringEntries s).filter (s.err.sent < ·.1)
    let tail := if s.err.tailDue then tailGap s else []
    let batch := (due ++ tail).take 16
    if batch.isEmpty then .next { s with err := { s.err with tailDue := false } } else
    let body := toLe 4 (unitId s) ++ toLe 2 batch.length ++ toLe 2 (b2n s.err.resend) ++ toLe 8 s.err.release ++ batch.flatMap (·.2)
    let top := (due.take 16).foldl (fun m p => max m p.1) s.err.sent
    let tailGone := s.err.tailDue && due.length + tail.length ≤ 16
    let e := { s.err with sent := top, resend := false, tailDue := s.err.tailDue && !tailGone
                          tailSent := if tailGone then s.err.tail.map (s.err.next - 1, ·) else s.err.tailSent }
    .next (sendMsg d { kind := 2, type := 0x22, body := body } { s with err := e })

/-- RECORD_ACKNOWLEDGEMENT (R262): for this unit, or passed down (R166). -/
def execRecordAcknowledgement (door : Nat) (body : Bytes) (s : State) : Host.Outcome State Fault Refusal :=
  let s := s.fresh
  if !carries door s then .next s
  else if body.length != 16 then .next (malformedOn door s)
  else .next (if rd body 0 4 == unitId s || s.build.hub then sendAck (rd body 0 4) (bit (rd body 4 2) 0) (rd body 8 8) s else s)

/-! ### The exporter (R263, R264) -/

def reporterAt (u : Nat) (s : State) : Reporter := tget {} u s.err.reporters
def putReporter (u : Nat) (r : Reporter) (s : State) : State := { s with err := { s.err with reporters := tput u r s.err.reporters } }

/-- Relayed entries that a hub holds. -/
def heldEntries (s : State) : Nat := sumN (s.err.reporters.map (·.2.entries.length))

/-- What taking one entry comes to: the reporter, whether it was stored, whether a resend is wanted. -/
def takeEntry (e : Bytes) (r : Reporter) : Reporter × Bool × Bool :=
  let x := r.expected.getD 0
  if lastOf e < x then (r, false, false)
  else if rd e 0 8 > x then (r, false, true)
  else ({ r with entries := r.entries ++ [clipGap x e], expected := some (lastOf e + 1) }, true, false)

/-- The exporter takes the entries of a message (R263). -/
def takeEntries (u : Nat) (es : List Bytes) (s : State) : State :=
  let (s, want) := es.foldl (fun (p : State × Bool) e =>
    let (s, want) := p
    let (r, stored, more) := takeEntry e (reporterAt u s)
    if stored then
      if heldEntries s ≥ 16777216 then ({ s with err := { s.err with owed := dedup (s.err.owed ++ [u]) } }, want)
      else
        let s := putReporter u r s
        (if isGap e then s else signRecord e s, want)
    else (s, want || more)) (s, false)
  if want then sendAck u true (reporterAt u s).release s else s

/-- ERROR_RECORD_MESSAGE (R261 to R263). -/
def execErrorRecordMessage (door : Nat) (body : Bytes) (s : State) : Host.Outcome State Fault Refusal :=
  let s := s.fresh
  if !carries door s || !s.build.hub then .next s else
  let u := rd body 0 4
  let n := rd body 4 2
  let es := records 64 (body.drop 16)
  if n == 0 || n > 16 || body.length != 16 + 64 * n || !unitFormOk u || (!bit u 31 && reservedSlot (slotOf (bits u 0 18))) then
    .next (malformedOn door s)
  else if s.err.fleet && !isRoot s then
    let seen := tget 0 u s.err.passedUp
    let s := (es.filter fun e => !isGap e && seen ≤ rd e 0 8).foldl (fun s e => signRecord e s) s
    let s := { s with err := { s.err with passedUp := tput u (es.foldl (fun m e => max m (lastOf e + 1)) seen) s.err.passedUp } }
    let m : Msg := { kind := 2, type := 0x22, body := body }
    match recordDoor s with
    | (some d, s) => .next (sendMsg d m s)
    | (none, s) => match findIdx (·.dir == 2) s.net.doors with
      | some d => .next (sendMsg d m s)
      | none => .next s
  else
    let r := reporterAt u s
    let r := { r with expected := some (r.expected.getD (rd body 8 8 + 1)), release := rd body 8 8 }
    let s := putReporter u r s
    .next (if storeUsable s then takeEntries u es s else { s with err := { s.err with owed := dedup (s.err.owed ++ [u]) } })

/-- The unit exports its own entries: a die unit on the bench route, and every hub (R260). -/
def exporter (s : State) : Bool := s.build.hub || !s.err.fleet

/-- Ask the reporters whose entries were discarded for want of room to send again, once there is room (R263). -/
def askOwed (s : State) : State :=
  if s.err.owed.isEmpty || !storeUsable s || heldEntries s ≥ 16777216 then s else
  s.err.owed.foldl (fun s u => sendAck u true (reporterAt u s).release s) { s with err := { s.err with owed := [] } }

/-- STORE_READY_CHANGE (R456): a bit that falls while the port is usable raises STORE_FAULT; an exporter that can store
again asks for what it discarded (R263). -/
def execStoreReadyChange (stack : Nat) (ready : Bool) (s : State) : Host.Outcome State Fault Refusal :=
  let s := s.fresh
  let fell := storeUsable s && !ready
  let s := { s with mem := { s.mem with storeRdy := modifyAt stack (fun _ => ready) s.mem.storeRdy } }
  if !working s then .next s
  else if fell then .next (storeFault stack 0 0 s)
  else .next (askOwed s)

/-- The gap with cause released from `from_` to a release point (R264); its severity is open. -/
def releasedGap (unit from_ release : Nat) (s : State) : List (Nat × Bytes) × State :=
  if from_ > release then ([], s) else
  let sev := Config.freeNat s.free % 4
  let b := gapRecord from_ release ⟨min u16Max (release + 1 - from_), sev, 2⟩ s
  ([(release, splice (splice b 28 (toLe 4 unit)) 32 (toLe 4 unit))], { s with free := s.free + 1 })

/-- Entries of one reporter from a number onward, and the release that a fetch makes (R264). -/
def fetchOne (u from_ : Nat) (s : State) : List Bytes × State :=
  if u == unitId s then
    let (gap, s) := releasedGap u from_ s.err.release s
    let held := ((ringEntries s ++ tailGap s).filter (from_ ≤ ·.1)).map fun p => clipGap from_ p.2
    (gap.map (·.2) ++ held, releaseTo (min from_ s.err.next - 1) s)
  else match tfind u s.err.reporters with
    | none => ([], s)
    | some r =>
      let (gap, s) := releasedGap u from_ r.release s
      let held := (r.entries.filter (from_ ≤ lastOf ·)).map (clipGap from_)
      let n := min from_ (r.expected.getD 0) - 1
      let r := { r with release := max r.release n, entries := r.entries.filter (n < lastOf ·) }
      (gap.map (·.2) ++ held, sendAck u false n (putReporter u r s))

/-! ### Export periods (R270) -/

/-- EXPORT_PERIOD_END (R270): every signature with a nonzero count leaves, and the counts are zeroed. -/
def execExportPeriodEnd (s : State) : Host.Outcome State Fault Refusal :=
  let s := s.fresh
  if !working s || !isTray s || s.frame.last.isNone then .next s else
  let f := curFrame s
  let last := if (f + 1) % s.exp.period == 0 then f else f / s.exp.period * s.exp.period - 1
  let s := (s.exp.sigs.filter fun g => g.occurrences > 0 || g.passes > 0).foldl (fun s g => exportItem 4 last (borven g (periodStart last s) last) s) s
  .next { s with exp := { s.exp with sigs := [] } }

/-! ### ERR and PSN commands (R272) -/

/-- ERR.SET_ROUTE: 0 BENCH, 1 FLEET, 2 EXPORT, 3 FORWARD. -/
def errSetRoute (r : Request) (s : State) : Reply × State :=
  command { code := 0x0C01, params := [must tChoice] } (!isRoot s) r (fun b s =>
    let c := choice b
    if c > 3 || (isDie s && c > 1) || (s.build.hub && c < 2) then (refuse stBadParam, s)
    else
      let on := c % 2 == 1
      (okay [], if on == s.err.fleet then s else resendAll { s with err := { s.err with fleet := on } })) s
def execErrSetRoute (r : Request) (s : State) : Host.Outcome State Fault Refusal :=
  .next (finish 0x0C01 r (errSetRoute r (begin_ r.after s)))

/-- UZ_ERR_FETCHED follows the unit's own entries that a reply returns (R408); on the fleet route only a fetch over the
host door counts (R409). -/
def noteFetched (r : Request) (es : List Bytes) (s : State) : State :=
  if s.err.fleet && r.path != .host then s else
  let own := es.filter fun e => rd e 28 4 == unitId s
  { s with err := { s.err with fetched := own.foldl (fun m e => max m (lastOf e)) s.err.fetched } }

/-- ERR.FETCH (R264): pairs of UNIT and SEQ. -/
def errFetch (r : Request) (s : State) : Reply × State :=
  command { code := 0x0C02, params := [many tUnit 256, many tSeq 256] } true r (fun b s =>
    let us := nums tUnit b
    let qs := nums tSeq b
    if !exporter s then (refuse stState, s)
    else if us.length > 128 || qs.length > 128 then (refuse stBadLength, s)
    else if us.length != qs.length then (refuse stBadParam, s)
    else if us.any (· != unitId s) && !storeUsable s then (refuse stState, s)
    else
      let (es, s') := (us.zip qs).foldl (fun (p : List Bytes × State) q =>
        let (es, t) := fetchOne q.1 q.2 p.2
        (p.1 ++ es, t)) ([], s)
      let rep := readout r.version [] es (·)
      (rep, if rep.status == stOk then askOwed (noteFetched r (es.take (vals tRecord rep.tlvs).length) s') else s)) s
def execErrFetch (r : Request) (s : State) : Host.Outcome State Fault Refusal :=
  .next (finish 0x0C02 r (errFetch r (begin_ r.after s)))

/-- A loss mark as 4 B: count, severity, cause; all ones with none. -/
def markBytes (m : Option Mark) : Bytes := match m with
  | some m => toLe 2 m.count ++ toLe 1 m.severity ++ toLe 1 m.cause
  | none => [0xFF, 0xFF, 0xFF, 0xFF]

/-- Code of the route. -/
def routeCode (s : State) : Nat := b2n (s.err.fleet && !isRoot s) + 2 * b2n s.build.hub

/-- ERR.GET: route as SETTING 0, the export settings as SETTING 1 to 5 on a hub, ring state, reporters. -/
def errGet (r : Request) (s : State) : Reply × State :=
  command { code := 0x0C03, auth := authRead, params := [may tOffset] } true r (fun b s =>
    let e := s.err
    let x := s.exp
    let own : List Bytes := if exporter s then [toLe 4 (unitId s) ++ zeros 4 ++ toLe 8 ((e.ring.head?.map (·.seq)).getD e.next) ++ toLe 8 e.next] else []
    let reps := e.reporters.map fun p => toLe 4 p.1 ++ zeros 4 ++ toLe 8 ((p.2.entries.head?.map (rd · 0 8)).getD (p.2.expected.getD 0)) ++ toLe 8 (p.2.expected.getD 0)
    let set_ := if s.build.hub then
        [setBytes 1 (fit 16 x.collector.addr ++ toLe 2 x.collector.port ++ zeros 2), setU32 2 x.session,
          setBytes 3 ((List.range 4).map fun k => if k == 2 && bit x.enables 2 && !x.failingOnly then 2 else BitVec.ofNat 8 (b2n (bit x.enables k))),
          setU32 4 x.decimation, setU32 5 x.period]
      else []
    let from_ := num tOffset b
    (readout r.version ([setU8 0 (routeCode s)] ++ set_ ++ [stU64 0 e.next, stU64 1 e.release, stU32 2 e.ring.length, stBytes 3 (markBytes e.tail),
      stBytes 4 (e.drops.flatMap (toLe 8))]) ((own ++ reps).drop from_) (from_ + ·), s)) s
def execErrGet (r : Request) (s : State) : Host.Outcome State Fault Refusal :=
  .next (finish 0x0C03 r (errGet r (begin_ r.after s)))

/-- ERR.READ_RING: entries from a number on, gap marks as gap records, nothing released. -/
def errReadRing (r : Request) (s : State) : Reply × State :=
  command { code := 0x0C04, auth := authRead, params := [must tSeq, may tCount] } true r (fun b s =>
    let from_ := num tSeq b
    if !s.err.ring.any (·.seq == from_) then (refuse stRange, s)
    else
      let es := (ringEntries s).filter fun p => from_ ≤ p.1 || (isGap p.2 && p.1 + 1 == from_)
      let es := match num? tCount b with
        | some n => es.take n
        | none => es
      (readout r.version [] (es.map (·.2)) (fun n => ((es.drop n).head?.map (·.1)).getD 0), s)) s
def execErrReadRing (r : Request) (s : State) : Host.Outcome State Fault Refusal :=
  .next (finish 0x0C04 r (errReadRing r (begin_ r.after s)))

/-- ERR.INJECT: CHOICE the class, ENTITY the subject, DATA the 12 B of detail. -/
def errInject (r : Request) (s : State) : Reply × State :=
  command { code := 0x0C05, params := [must tChoice, must tEntity, must tData] } true r (fun b s =>
    let d := (val? tData b).getD []
    let c := choice b
    if c < 0x80 then (refuse stBadParam, s)
    else if d.length != 12 then (refuse stBadLength, s)
    else if !allZero (d.drop 10) then (refuse stBadParam, s)
    else (okay [], raiseOwn c (c % 4) 0 (num tEntity b) (entityKind (num tEntity b) 0 s) d s)) s
def execErrInject (r : Request) (s : State) : Host.Outcome State Fault Refusal :=
  .next (finish 0x0C05 r (errInject r (begin_ r.after s)))

/-- ERR.SET_EXPORT: ENDPOINT the collector; SETTING 0 session, 1 enables per kind (kind 3: 1 failing records, 2 all), 2
decimation, 3 export period. -/
def errSetExport (r : Request) (s : State) : Reply × State :=
  command { code := 0x0C06, params := [may tEndpoint, setting 0 4, setting 1 4, setting 2 4, setting 3 4] } s.build.hub r (fun b s =>
    let x := s.exp
    let en := val? (tSetting 1) b
    let v (k : Nat) : Nat := byteAt (en.getD []) k
    let dec := (set? 2 b).getD x.decimation
    let per := (set? 3 b).getD x.period
    if v 0 > 1 || v 1 > 1 || v 2 > 2 || v 3 > 1 then (refuse stRange, s)
    else if dec < 1 || dec > 65535 || per < 1 || per > 16777215 then (refuse stRange, s)
    else
      let col := match val? tEndpoint b with
        | some e => ⟨slice e 0 16, rd e 16 2⟩
        | none => x.collector
      let x := { x with collector := col, session := (set? 0 b).getD x.session, decimation := dec, period := per }
      let x := if en.isSome then { x with enables := v 0 + 2 * v 1 + 4 * min 1 (v 2) + 8 * v 3, failingOnly := v 2 != 2 } else x
      (okay [], { s with exp := x })) s
def execErrSetExport (r : Request) (s : State) : Host.Outcome State Fault Refusal :=
  .next (finish 0x0C06 r (errSetExport r (begin_ r.after s)))

/-- ERR.GET_SIGNATURES: current signatures in Borven encoding, and the overflow count. -/
def errGetSignatures (r : Request) (s : State) : Reply × State :=
  command { code := 0x0C07, auth := authRead, params := [may tOffset] } (isTray s) r (fun b s =>
    let from_ := num tOffset b
    let f := curFrame s
    (readout r.version [stU32 0 s.exp.overflow] ((s.exp.sigs.map fun g => borven g (periodStart f s) f).drop from_) (from_ + ·), s)) s
def execErrGetSignatures (r : Request) (s : State) : Host.Outcome State Fault Refusal :=
  .next (finish 0x0C07 r (errGetSignatures r (begin_ r.after s)))

/-- PSN.GET_BIRTHS: birth table entries, of one serial or all: serial, entity, frame, address, tag. -/
def psnGetBirths (r : Request) (s : State) : Reply × State :=
  command { code := 0x0D01, auth := authRead, params := [may tOffset, may tSerial] } true r (fun b s =>
    let bs := match num? tSerial b with
      | some n => s.err.births.filter fun (x : Birth) => x.serial == n
      | none => s.err.births
    let from_ := num tOffset b
    let item (x : Birth) : Bytes := toLe 4 x.serial ++ toLe 2 x.entity ++ zeros 2 ++ toLe 8 x.frame ++ toLe 8 x.address ++ toLe 4 x.tag.toNat ++ zeros 4
    (readout r.version [] ((bs.map item).drop from_) (from_ + ·), s)) s
def execPsnGetBirths (r : Request) (s : State) : Host.Outcome State Fault Refusal :=
  .next (finish 0x0D01 r (psnGetBirths r (begin_ r.after s)))

/-- PSN.GET_COUNTS: births, consumption records, consumptions counted without a record, repeats. -/
def psnGetCounts (r : Request) (s : State) : Reply × State :=
  command { code := 0x0D02, auth := authRead } true r (fun _ s =>
    (okay [stU64 0 s.err.birthCount, stU64 1 s.err.consumedCount, stU64 2 (tget {} ctrPoison s.win.ctrs).live, stU64 3 s.err.repeatBirths], s)) s
def execPsnGetCounts (r : Request) (s : State) : Host.Outcome State Fault Refusal :=
  .next (finish 0x0D02 r (psnGetCounts r (begin_ r.after s)))

end Sys2Proof.Machine
end

