-- ==== Sys2Proof/Machine/Hub.lean ====
section
/-! DEFINITION. The frame inside a hub: acceptance (R31, R35), the Pass units (R152), close and settlement (R33, R36 to
R42, R125), summaries (R130, R149 to R151), dual parents and roots (R155 to R163), and the way down (R164, R165). -/
namespace Sys2Proof.Machine

/-! ### Collection (R31) -/

/-- Collection of a frame opens. -/
def openCollection (n : Nat) (s : State) : State :=
  { s with hub := { s.hub with frame := some n, isOpen := true, isClosed := false, marked := false, items := [], outcomes := List.replicate 12 0
                               groupOf := [], full := none, ownCheck := none, peerCheck := none, standby := 0 } }

/-- From 1 µs before the next tick on, that tick's frame is collected. -/
def collectAt (s : State) : State :=
  let (n, t, _) := nextFrame s
  if s.hub.frame == some n || s.time.now + 1000 * nsUnit < t then s else openCollection n s

/-- The frame being collected takes items. -/
def collecting (s : State) : Bool :=
  s.hub.isOpen && (s.hub.frame != s.frame.last || s.time.now ≤ inputCloseAt s)

/-! ### Arrivals (R35) -/

/-- What the header of an arriving item says. -/
structure Arrived where
  ok : Bool                              -- row 1 of Table FRM-5 does not apply
  known : Bool                           -- the sender can be named
  sender : Nat                           -- in the form of the target block
  plane : Nat
  kind : Nat
  frame : Nat
  group : Nat
  seq : Nat
  tag : Nat

def versionOk (b : Bytes) : Bool := byteAt b 0 == 3 || byteAt b 0 == 4

def arrivedContribution (b : Bytes) (s : State) : Arrived :=
  let die := rd b 4 4 % 2 ^ 18
  let known := isTray s && b.length ≥ 64 && byteAt b 1 == 1 && trayOf die == hubNumber s && !reservedSlot (slotOf die)
  { ok := known && versionOk b && b.length ≤ s.frame.params.limit * 1024 && (parseContribution b).isSome, known := known, sender := die, plane := 0
    kind := 1, frame := rd b 8 8, group := bits (rd b 4 4) 18 6, seq := rd b 20 4, tag := rd b 16 4 }

def arrivedSummary (b : Bytes) (s : State) : Arrived :=
  let a := rd b 4 2 - 2 ^ 11 * bits (rd b 4 2) 11 2
  let n := bits a 0 11
  let known := b.length ≥ 112 && (match role s with
    | .pod => byteAt b 1 == 2 && a == trayAddr n && n / 32 == hubNumber s
    | .root => byteAt b 1 == 3 && bits a 14 2 == 2 && n < 64
    | _ => false)
  { ok := known && versionOk b && (parseSummary b).isSome, known := known, sender := 2 ^ 31 + a, plane := bits a 13 1
    kind := byteAt b 1, frame := rd b 8 8, group := 0, seq := rd b 16 4, tag := 0 }

/-- The frame being collected. Before the first collection it is the one before the next tick's, so that an item of the frame
to come is early (the model's choice, log entry 127). -/
def collectedFrame (s : State) : Int := match s.hub.frame with
  | some n => n
  | none => ((nextFrame s).1 : Int) - 1

/-- The outcome of an arrival: its row of Table FRM-5, from 0. -/
def judge (x : Arrived) (s : State) : Nat :=
  let n := collectedFrame s
  let same := s.hub.items.filter fun i => i.sender == x.sender && i.frame == x.frame
  if !x.ok then 0
  else if x.frame + 1 < n || n + 1 < x.frame then 1
  else if x.frame == n + 1 then 2
  else if x.frame + 1 == n || !collecting s then 3
  else match same.find? fun i => i.group == x.group with
    | some i => if i.seq == x.seq then 4 else 5
    | none => if same.isEmpty then 7 else 6

/-- The child at a door, by the identity that its hello gives, in the form of the target block (R35). -/
def childAt (door : Nat) (s : State) : Nat :=
  let x := doorAt door s
  if peerIsHub x then 2 ^ 31 + peerHub x else peerDie x

/-- Count an outcome: 0 to 7 as Table FRM-5, 8 tag mismatch, 9 group overflow, 10 catalogue mismatch, 11 unmerged, 12
standby; per child always, in the frame's totals until its summary is formed. -/
def countOutcome (door k : Nat) (s : State) : State :=
  let h := s.hub
  let c := childAt door s
  { s with hub := { h with children := tput c (modifyAt k (· + 1) (tget (List.replicate 13 0) c h.children)) h.children
                           outcomes := if h.isClosed then h.outcomes else modifyAt k (· + 1) h.outcomes } }

/-- A record of frame acceptance or close (Table ERR-3). -/
def frameRecord (cls sev : Nat) (unit : Option Nat) (door tag group count frame : Nat) (s : State) : State :=
  raise { cls := cls, sev := sev, unit := unit, op := 0x8001, tag := tag, detail := arrivalDetail door group count frame } s

/-- The record that an outcome raises. -/
def outcomeRecord (k door : Nat) (x : Arrived) (s : State) : State :=
  let go (cls sev : Nat) : State := frameRecord cls sev (some x.sender) (door % 100) x.tag x.group 1 x.frame s
  match k with
  | 0 => if x.known then go 2 1 else
      raise { cls := 2, sev := 1, entity := doorEntity door, kind := link, op := 0x8001, detail := arrivalDetail (door % 100) x.group 1 x.frame } s
  | 1 => go 3 1
  | 5 => go 4 0
  | 6 => go 5 1
  | _ => s

/-- The accepted item with an arrival's key whose last flit passed on the same clock edge at a higher-numbered door (R153). -/
def sameEdge (door : Nat) (x : Arrived) (s : State) : Option Item :=
  if !x.ok then none else
  s.hub.items.find? fun i => i.sender == x.sender && i.frame == x.frame && i.group == x.group && i.at_ == s.pwr.cycles && door < i.door

/-- An accepted item. A root holds plane B's in the store (R156, R465). -/
def itemOf (door : Nat) (x : Arrived) (body : Bytes) (s : State) : Item :=
  let hold := isRoot s && x.plane == 1
  { door := door, kind := x.kind, sender := x.sender, plane := x.plane, frame := x.frame, group := x.group, seq := x.seq
    body := if hold && !storeUsable s then [] else body, at_ := s.pwr.cycles, stage := if hold then .held else .accepted }

/-- The item of the lower-numbered door is judged first (R153): it takes the place of the one accepted on the same edge, which
becomes the second arrival. -/
def swapItem (door : Nat) (x : Arrived) (body : Bytes) (old : Item) (s : State) : State :=
  let new := { itemOf door x body s with stage := old.stage }
  let s := { s with hub := { s.hub with items := s.hub.items.map fun i => if i == old then new else i
                                        children := tput (childAt old.door s) (modifyAt 7 (· - 1) (tget (List.replicate 13 0) (childAt old.door s) s.hub.children)) s.hub.children
                                        outcomes := if s.hub.isClosed then s.hub.outcomes else modifyAt 7 (· - 1) s.hub.outcomes } }
  let k := if old.seq == x.seq then 4 else 5
  let y : Arrived := { ok := true, known := true, sender := old.sender, plane := old.plane, kind := old.kind, frame := old.frame, group := old.group
                       seq := old.seq, tag := if old.kind == 1 then rd old.body 16 4 else 0 }
  outcomeRecord k old.door y (countOutcome old.door k (countOutcome door 7 s))

/-- An item arrives: one outcome; an accepted one waits for the Pass units (R35). -/
def arrive (door : Nat) (x : Arrived) (body : Bytes) (s : State) : State :=
  let s := collectAt s
  match sameEdge door x s with
  | some i => swapItem door x body i s
  | none =>
    let k := judge x s
    let s := outcomeRecord k door x (countOutcome door k s)
    if k != 7 then s else { s with hub := { s.hub with items := s.hub.items ++ [itemOf door x body s] } }

/-- An item from below: on a live down door of a hub. -/
def carriesDown (d : Nat) (s : State) : Bool := carries d s && s.build.hub && (doorAt d s).dir == 1

/-- CONTRIBUTION_ARRIVAL (R35). -/
def execContributionArrival (after door : Nat) (item : Bytes) (s : State) : Host.Outcome State Fault Refusal :=
  let s := begin_ after s
  .next (if !carriesDown door s then s else arrive door (arrivedContribution item s) item s)

/-- SUMMARY_ARRIVAL (R35). -/
def execSummaryArrival (after door : Nat) (item : Bytes) (s : State) : Host.Outcome State Fault Refusal :=
  let s := begin_ after s
  .next (if !carriesDown door s then s else arrive door (arrivedSummary item s) item s)

/-! ### Pass units (R152) -/

/-- Records of the sections that the Pass units work on. -/
def secOps (secs : Option (List (Nat × Nat × Bytes))) : Nat :=
  sumN (((secs.getD []).filter fun x => x.1 == 2 || x.1 == 3 || x.1 == 4).map (·.2.1))

/-- Records of group blocks. -/
def blockOps : Nat → Bytes → Nat
  | 0, _ => 0
  | n + 1, b =>
    let len := rd b 20 4
    if b.length < 32 || len < 32 then 0 else secOps (sections (slice b 32 (len - 32))) + blockOps n (b.drop len)

/-- Operations of an item, one per record. -/
def itemOps (i : Item) : Nat :=
  if i.kind == 1 then secOps (sections (i.body.drop 64)) else blockOps (rd i.body 6 2) (i.body.drop (112 + if i.kind == 2 then 64 else 0))

/-- Operations in flight. -/
def inFlightOps (s : State) : Nat := sumN ((s.hub.items.filter (·.stage == .begun)).map itemOps)

def setItem (i : Nat) (st : Stage) (s : State) : State :=
  { s with hub := { s.hub with items := modifyAt i (fun x => { x with stage := st }) s.hub.items } }

/-- The item may be begun: it is accepted, the mark has not passed, and all its operations fit. -/
def mayBegin (i : Nat) (s : State) : Bool :=
  match s.hub.items[i]? with
  | some x => x.stage == .accepted && !s.hub.isClosed && inFlightOps s + itemOps x ≤ 65536
  | none => false

/-- PASS_ITEM_BEGIN (R152). -/
def execPassItemBegin (item : Nat) (s : State) : Host.Outcome State Fault Refusal :=
  let s := s.fresh
  .next (if working s && mayBegin item s then setItem item .begun s else s)

/-! ### Close and settlement (R33, R36, R41, R42, R125) -/

/-- A part of a frame that one sender brings to a group. -/
structure Cand where
  num : Nat                              -- die ID, tray or pod number
  sender : Nat
  door : Nat
  block : GroupBlock

def candBefore (a b : Cand) : Bool := a.num < b.num

/-- Discard a part: outcome and record. -/
def discardCand (k cls frame : Nat) (s : State) (c : Cand) : State :=
  frameRecord cls 1 (some c.sender) (c.door % 100) (if bit c.sender 31 then 0 else c.block.tag) c.block.group 1 frame (countOutcome c.door k s)

/-- Settle one group: its tag and then its catalogue version are those of the lowest number; the rest merges. -/
def settleGroup (frame : Nat) (cs : List Cand) (s : State) : Option GroupBlock × List Cand × State :=
  match sortBy candBefore cs with
  | [] => (none, [], s)
  | c :: r =>
    let all := c :: r
    let s := (all.filter fun x => x.block.tag != c.block.tag).foldl (discardCand 8 6 frame) s
    let same := all.filter fun x => x.block.tag == c.block.tag
    let s := (same.filter fun x => x.block.catVersion != c.block.catVersion).foldl (discardCand 10 8 frame) s
    let kept := same.filter fun x => x.block.catVersion == c.block.catVersion
    let sum (f : GroupBlock → Nat) : Nat := sumN (kept.map fun x => f x.block)
    (some { c.block with dies := sum (·.dies), trays := if isTray s then 1 else sum (·.trays), pods := if isTray s then 0 else if isPod s then 1 else sum (·.pods)
                         accs := kept.foldl (fun t x => mergeAccs t x.block.accs) [] }, kept, s)

/-- Settle the groups in ascending order. -/
def settleGroups (frame : Nat) (cs : List Cand) : List Nat → State → List GroupBlock × List Cand × State
  | [], s => ([], [], s)
  | g :: r, s =>
    let (b, kept, s) := settleGroup frame (cs.filter (·.block.group == g)) s
    let (bs, ks, s) := settleGroups frame cs r s
    (b.toList ++ bs, kept ++ ks, s)

/-- A 128-bit map. -/
def map128 (l : List Nat) : Bytes := toMask 128 l

/-- Items begun before the mark complete; the others stay as they are. -/
def completeBegun (s : State) : State :=
  { s with hub := { s.hub with items := s.hub.items.map fun i => if i.stage == .begun then { i with stage := .applied } else i } }

/-- Items not begun are discarded as unmerged (R33): counts, and one record of the frame. -/
def discardUnmerged (frame : Nat) (s : State) : State :=
  let lost := s.hub.items.filter (·.stage == .accepted)
  if lost.isEmpty then s
  else frameRecord 9 1 none 0xFF 0 0 lost.length frame (lost.foldl (fun s i => countOutcome i.door 11 s) s)

/-- A tray hub's part of the close: candidates, and the maps' slots. -/
def trayCands (items : List Item) : List Cand :=
  items.filterMap fun i => (parseContribution i.body).bind fun c =>
    if c.headerOnly then none else
    some { num := c.die, sender := c.die, door := i.door
           block := { group := c.group, tag := c.tag, catVersion := c.catVersion, dies := 1, trays := 1, pods := 0, accs := c.accs } }

def hubCands (items : List Item) : List Cand :=
  items.flatMap fun i => match parseSummary i.body with
    | some x => x.groups.map fun g => { num := bits i.sender 0 11, sender := i.sender, door := i.door, block := g }
    | none => []

/-- At most 16 groups in a tray hub (R42): the kept candidates; the others are counted and reported once. -/
def keep16 (frame : Nat) (cs : List Cand) (s : State) : List Cand × State :=
  let gs := (sortBy (fun a b : Nat => a < b) (dedup (cs.map (·.block.group)))).take 16
  let out := cs.filter fun c => !gs.contains c.block.group
  (cs.filter fun c => gs.contains c.block.group,
   if out.isEmpty then s else frameRecord 7 1 none 0xFF 0 0 out.length frame (out.foldl (fun s c => countOutcome c.door 9 s) s))

/-- Slots of the expected map. -/
def expectedSlots (s : State) : List Nat :=
  dedup ((s.net.doors.zipIdx.filter fun p => inUse p.1).filterMap fun p => doorSlot p.2 s)

/-- Children whose parts were applied, by door number within the level. -/
def childNum (i : Item) : Nat := bits i.sender 0 11

/-- Form the frame's summary: every begun item counts, every other accepted one is unmerged. -/
def formSummary (s : State) : Summary × State :=
  let n := s.hub.frame.getD 0
  let s := completeBegun s
  let lost := s.hub.items.filter (·.stage == .accepted)
  let used := s.hub.items.filter (·.stage == .applied)
  let s := discardUnmerged n s
  let (cs, s) := if isTray s then keep16 n (trayCands used) s else (hubCands used, s)
  let (bs, kept, s) := settleGroups n cs (sortBy (fun a b : Nat => a < b) (dedup (cs.map (·.block.group)))) s
  let below := if isTray s then [] else used.filterMap fun i => parseSummary i.body
  let own := s.hub.outcomes
  let s := { s with hub := { s.hub with traceDropped := 0, levelDropped := s.hub.traceDropped } }
  let dropped := s.hub.levelDropped + sumN (below.map (·.dropped))
  let accepted := used ++ lost
  let slots (l : List Item) : List Nat := l.map fun i => slotOf i.sender
  let present := match role s with
    | .tray => slots accepted
    | .pod => used.map fun i => childNum i % 32
    | _ => used.map childNum
  let absent := (expectedSlots s).any fun x => !present.contains x
  let discarded := !lost.isEmpty || own.getD 8 0 + own.getD 9 0 + own.getD 10 0 > 0
  let mixed := accepted.any fun i => byteAt i.body 0 == 3
  let up (k : Nat) : Bool := below.any fun x => bit x.flags k
  let flags := b2n (absent || discarded || !(unlearned s).isEmpty || up 0) + 2 * b2n (!lost.isEmpty || up 1) + 4 * b2n (own.getD 3 0 > 0 || up 2) +
    8 * b2n (mixed || up 3) + 16 * b2n (dropped > 0 || up 4)
  let trans := accepted.filter fun i => bit (rd i.body 2 2) 1
  let planeMap (p : Nat) : Bytes := toMask 64 ((s.hub.items.filter fun i => i.plane == p && i.stage != .accepted).map childNum)
  let maps := match role s with
    | .tray => map128 (expectedSlots s) ++ map128 (slots accepted) ++ map128 (kept.map fun c => slotOf c.num) ++ map128 (slots trans)
    | .pod => toMask 32 present
    | _ => planeMap 0 ++ planeMap 1
  let x : Summary := { version := formatOut s, kind := if isTray s then 2 else if isPod s then 3 else 4, flags := flags, hub := hubAddr s, frame := n, seq := 0, dropped := dropped
                       outcomes := (List.range 12).map fun k => own.getD k 0 + sumN (below.map fun x => x.outcomes.getD k 0)
                       maps := if isTray s then maps else [], groups := bs }
  (x, { s with hub := { s.hub with isOpen := false, isClosed := true, maps := lastN 64 (s.hub.maps ++ [(n, maps)]) } })

/-- Keep a summary for 64 frames (R135). -/
def keepSummary (n : Nat) (b : Bytes) (s : State) : State :=
  { s with hub := { s.hub with summaries := lastN 64 (s.hub.summaries ++ [(n, b)]) } }

/-! ### Exports of a frame (R267, R268) -/

/-- The signature key of a probe record (R268): its verdict's class and its cell's bins. -/
def probeKey (die : Nat) (b : Bytes) (cls : Nat) (s : State) : Sig :=
  let c := byteAt b 2
  let bin (v : Nat) : Option Nat := if c == 255 then none else some v
  let (fw, fmt) := versionsOf die s
  { cls := cls, kind := 1, tbin := bin (c / 16), vbin := bin (c / 4 % 4), lbin := bin (c % 4), freq := none, probe := rd b 4 4, fw := fw, format := fmt }

/-- A passing run adds to the passes of the failing signatures of its cell and probe. -/
def addPass (k : Sig) (s : State) : State :=
  { s with exp := { s.exp with sigs := s.exp.sigs.map fun g =>
      if 0x11 ≤ g.cls && g.cls ≤ 0x14 && g.lbin.isSome && sigSame { k with cls := g.cls, fw := g.fw, format := g.format } g then { g with passes := g.passes + 1 } else g } }

/-- One probe record of an accepted contribution reaches the signatures. -/
def signProbe (die : Nat) (b : Bytes) (s : State) : State :=
  let verdict := byteAt b 1 / 16
  if !probeFailed b && verdict < 2 then addPass (probeKey die b 0 s) s
  else match verdict with
    | 2 => signOccurrence (probeKey die b 0x13 s) die s
    | 3 => signOccurrence (probeKey die b 0x12 s) die s
    | 4 => signOccurrence (probeKey die b 0x14 s) die s
    | _ => s

/-- Findings and probe records of a tray hub's accepted contributions: exports and signatures. -/
def exportFrame (s : State) : State :=
  if !isTray s then s else
  let n := s.hub.frame.getD 0
  let cs := s.hub.items.filterMap fun i => parseContribution i.body
  let finds := cs.flatMap (·.findings)
  let probes := cs.flatMap fun c => c.probes.map (c.die, ·)
  let s := probes.foldl (fun s p => signProbe p.1 p.2 s) s
  let out := if s.exp.failingOnly then probes.filter (probeFailed ·.2) else probes
  let s := if finds.isEmpty then s else exportItem 2 n finds.flatten s
  if out.isEmpty then s else exportItem 3 n (out.flatMap fun p => toLe 4 p.1 ++ zeros 4 ++ p.2) s

/-! ### Sending upward (R149 to R151) -/

/-- The summary's last flit cannot meet the parent's input close on a door (R151). -/
def overlong (d size : Nat) (s : State) : Bool :=
  let x := doorAt d s
  let avail : Int := ((s.frame.params.grace : Int) * 1000 - 2000) * 2 ^ 17 - x.exch.delay.getD 0
  let full := x.mode == 0 && x.state == .up
  ((size + 16 : Nat) : Int) * (if full then 4 else 8) * 2 ^ 17 > avail * 29

/-- The unit sends upward in this frame (R20, R25, R26). -/
def sendsUp (s : State) : Bool := s.frame.locked && countsLocked s && !s.frame.muted && !s.frame.awaitFleet

/-- Send a summary to one parent; its number rises for the item, sent or not. Answers whether it was overlong, and the door. -/
def sendSummary (x : Summary) (p : Nat) (s : State) : Option Nat × State :=
  let q := s.hub.seqs.getD p 0
  let s := { s with hub := { s.hub with seqs := modifyAt p (fun v => (v + 1) % 2 ^ 32) s.hub.seqs } }
  match upDoor p s with
  | none => (none, s)
  | some d =>
    let v := if bit (rd (doorAt d s).peerHello 10 2) 4 then x.version else 3
    let b := summaryBytes { x with seq := q, version := v } []
    let tooLong := overlong d b.length s
    let s := if tooLong then setDoor d (fun y => { y with overlong := y.overlong + 1 }) s else s
    (if tooLong then some d else none, sendMsg d { kind := 1, type := x.kind, body := b, frame := some x.frame, parent := some p } s)

/-- Send to both parents (R155); one record of a frame with an overlong summary. -/
def sendSummaries (x : Summary) (s : State) : State :=
  let (a, s) := sendSummary x 0 s
  let (b, s) := sendSummary x 1 s
  match a.or b with
  | some d => frameRecord 0x0A 1 none (d % 100) 0 0 1 x.frame s
  | none => s

/-! ### The way down (R164, R165) -/

/-- The active catalogues that the groups of a summary were formed under. -/
def catsFor (x : Summary) (s : State) : List (Nat × Catalogue) :=
  s.cats.filter fun p => x.groups.any fun g => g.group == p.1 && g.catVersion == p.2.version

/-- A boundary in ERROR or ZEROISED forms no summary digest (R416). -/
def canDigest (s : State) : Bool := s.sec.boundary != .error && s.sec.boundary != .zeroised

/-- The digest field of a frame's returned summary (R133, R134). -/
def digestField (n : Nat) (full : Bytes) (s : State) : Bytes := if canDigest s then summaryDigest full else Config.noDigest n

/-- The full and returned forms of a summary at the top of a tree (R132, R133). -/
def topForms (x : Summary) (s : State) : Bytes × Bytes :=
  let full := summaryBytes x (catsFor x s)
  (full, returnedBytes x (catsFor x s) (digestField x.frame full s) s.frame.params s.frame.pending)

/-- Export of a full fleet summary (Table ERR-8). -/
def exportFull (n : Nat) (full : Bytes) (s : State) : State := if n % s.exp.decimation == 0 then exportItem 1 n full s else s

/-- HUB_MARK (R26, R33, R163): a tray or pod hub closes the frame and sends its summary; in tray scope it returns it. -/
def execHubMark (s : State) : Host.Outcome State Fault Refusal :=
  let s := s.fresh
  if !working s || isDie s || isRoot s || s.frame.last.isNone || s.hub.frame != s.frame.last || s.hub.isClosed then .next s else
  let s := advanceTo (ownMarkAt s) s
  let (x, s) := formSummary s
  let s := exportFrame s
  if isTray s && s.frame.params.trayScope then
    let x := { x with kind := 4, maps := [], flags := x.flags + 64 }
    let (full, retd) := topForms x s
    .next (exportFull x.frame full (sendDown retd (keepSummary x.frame full s)))
  else
    let s := keepSummary x.frame (summaryBytes { x with seq := s.hub.seqs.getD 0 0 } []) s
    .next (if sendsUp s then sendSummaries x s else s)

/-! ### The roots (R156 to R163) -/

/-- Selection of the root check: 2 bits per pod, 1 plane A, 2 plane B (Table DOR-10). -/
def selection (s : State) : Bytes :=
  let used := s.hub.items.filter (·.stage == .applied)
  let code (p : Nat) : Nat := match used.find? fun i => childNum i == p with
    | some i => i.plane + 1
    | none => 0
  toLe 16 (sumN ((List.range 64).map fun p => code p * 4 ^ p))

/-- A root's summary is complete: its digest and its check (R157). Without a digest there is no check, and the frame is UNCHECKED
at both roots (R416, Table DOR-11). -/
def settleRoot (s : State) : State :=
  let (x, s) := formSummary s
  let (full, _) := topForms x s
  let check := toLe 1 (formatOut s) ++ zeros 1 ++ toLe 2 (hubAddr s) ++ zeros 4 ++ selection s ++ s.hub.outcomes.flatMap (toLe 4) ++ toLe 8 s.hub.levelDropped ++ zeros 8 ++
    summaryDigest full
  { s with hub := { s.hub with full := some (x.frame, full), ownCheck := if canDigest s then some (x.frame, check) else none } }

/-- The body of the root's returned summary: the full one read back, with the parameters of the moment. -/
def rootReturned (full : Bytes) (flags : Nat) (s : State) : Bytes :=
  match parseSummary (splice full 1 [3]) with
  | some x => returnedBytes { x with kind := 4, flags := flags } (catsFor x s) (digestField x.frame full s) s.frame.params s.frame.pending
  | none => []

/-- Every accepted item has been applied after input close: the root rounds, digests and sends its check (R157). -/
def rootTry (s : State) : State :=
  if isRoot s && s.hub.frame == s.frame.last && !s.hub.isOpen && !s.hub.isClosed && s.hub.items.all (fun i => i.stage == .applied || i.stage == .held) then
    let s := settleRoot s
    match peerDoor s, s.hub.ownCheck with
    | some d, some (n, b) => if s.frame.muted then s else sendMsg d { kind := 1, type := 0x11, body := b, frame := some n } s
    | _, _ => s
  else s

/-- At root input close, a held plane B summary is merged if its pod's plane A is absent, and is standby otherwise (R156). -/
def takeHeld (s : State) : State :=
  let pods := (s.hub.items.filter (·.plane == 0)).map childNum
  let spare := s.hub.items.filter fun i => i.stage == .held && pods.contains (childNum i)
  let s := spare.foldl (fun s i => countOutcome i.door 12 s) s
  { s with hub := { s.hub with standby := spare.length, items := s.hub.items.map fun i =>
      if i.stage == .held && !pods.contains (childNum i) && !i.body.isEmpty then { i with stage := .accepted } else i } }

/-- INPUT_CLOSE (R31, R156, R157). -/
def execInputClose (s : State) : Host.Outcome State Fault Refusal :=
  let s := s.fresh
  if !working s || isDie s || s.frame.last.isNone || s.hub.frame != s.frame.last || !s.hub.isOpen then .next s else
  let s := advanceTo (inputCloseAt s) s
  let s := { s with hub := { s.hub with isOpen := false } }
  .next (if isRoot s then rootTry (takeHeld s) else s)

/-- PASS_ITEM_APPLIED (R152). -/
def execPassItemApplied (item : Nat) (s : State) : Host.Outcome State Fault Refusal :=
  let s := s.fresh
  match s.hub.items[item]? with
  | some x => .next (if working s && x.stage == .begun && !s.hub.isClosed then rootTry (setItem item .applied s) else s)
  | none => .next s

/-- ROOT_CHECK_ARRIVAL (R157): taken between this root's input close and root mark of the running frame. -/
def execRootCheckArrival (after door : Nat) (body : Bytes) (s : State) : Host.Outcome State Fault Refusal :=
  let s := begin_ after s
  if !carries door s || !isRoot s || (doorAt door s).dir != 3 then .next s
  else if body.length != 120 then .next (malformedOn door s)
  else if s.frame.last.isSome && s.hub.frame == s.frame.last && !s.hub.marked && inputCloseAt s ≤ s.time.now && s.time.now ≤ ownMarkAt s then
    .next { s with hub := { s.hub with peerCheck := s.hub.peerCheck.or (some body) } }
  else .next { s with hub := { s.hub with discards := s.hub.discards + 1 } }

/-- ROOT_PARAMETERS_ARRIVAL (R25). -/
def execRootParametersArrival (after door : Nat) (body : Bytes) (s : State) : Host.Outcome State Fault Refusal :=
  let s := begin_ after s
  if !carries door s || !isSecondary s || (doorAt door s).dir != 3 then .next s
  else if body.length != 96 then .next (malformedOn door s)
  else .next (receiveParams (readParams body) (readPending (body.drop 48)) s)

/-- The basis of a root check (R157). -/
def basisOf (b : Bytes) : Bytes := slice b 0 2 ++ slice b 8 80

/-- Row of Table DOR-11 that applies, from 0. -/
def checkOutcome (complete : Bool) (own : Bytes) (peer : Option Bytes) : Nat :=
  if !complete then 0 else match peer with
  | none => 1
  | some p => if basisOf p != basisOf own then 2 else if slice p 88 32 == slice own 88 32 then 3 else 4

/-- Flags that a row sets. -/
def checkFlags (row : Nat) : Nat := match row with
  | 0 => 2
  | 1 | 2 => 64
  | 4 => 128
  | _ => 0

/-- ROOT_MARK (R158 to R161): the check is settled, flags are set, and the summary is broadcast or withheld. -/
def execRootMark (s : State) : Host.Outcome State Fault Refusal :=
  let s := s.fresh
  if !working s || !isRoot s || s.frame.last.isNone || s.hub.frame != s.frame.last || s.hub.marked then .next s else
  let s := advanceTo (ownMarkAt s) s
  let complete := s.hub.isClosed
  let s := if complete then s else settleRoot s
  let n := s.hub.frame.getD 0
  let full := (s.hub.full.map (·.2)).getD []
  let own := (s.hub.ownCheck.map (·.2)).getD []
  let row := checkOutcome complete own s.hub.peerCheck
  let sends := complete && !s.frame.muted && (isPrimary s || s.hub.peerCheck.isNone)
  let flags := rd full 2 2 ||| checkFlags row ||| (if sends && isSecondary s then 32 else 0)
  let full := splice full 2 (toLe 2 flags)
  let s := if row == 4 then
      raise { cls := 0x0B, sev := 2, op := 0x8001, detail := toLe 8 n ++ toLe 2 (rd (s.hub.peerCheck.getD []) 2 2) } s
    else s
  let c : Check := { frame := n, own := own, ownDigest := slice own 88 32, peer := s.hub.peerCheck, outcome := row, standby := s.hub.standby }
  let s := keepSummary n full { s with hub := { s.hub with marked := true, checks := lastN 64 (s.hub.checks ++ [c]) } }
  let s := if sends then sendDown (rootReturned full flags s) s else s
  .next (exportFull n full s)

/-! ### Returned summaries at a hub (R164, R165) -/

/-- A hub passes returned summaries on, unless it stands in tray scope or awaits the fleet's parameters (R26). -/
def passesDown (s : State) : Bool := !(isTray s && s.frame.params.trayScope) && !s.frame.awaitFleet

/-- Forward a copy to every child. -/
def forwardCopy (n : Nat) (b : Bytes) (s : State) : State :=
  if s.hub.forwarded == some n || !passesDown s then s else sendDown b { s with hub := { s.hub with forwarded := some n } }

/-- The plane chosen for a frame: before its select point plane A or the primary, which goes cut-through. -/
def chosenFor (n : Nat) (s : State) : Option Nat :=
  match s.hub.chosen with
  | some (f, p) => if f ≥ n then (if f == n then p else none) else some 0
  | none => some 0

/-- A copy of a frame whose first flits have arrived on a door goes down while it arrives (R164); `b` is its body so far, `len`
its whole length. -/
def beginThrough (d n : Nat) (b : Bytes) (len : Nat) (s : State) : State :=
  if s.hub.forwarded == some n || !passesDown s then s else
  let s := { s with hub := { s.hub with forwarded := some n, through := some (d, n) } }
  (childDoors s).foldl (fun s e => sendMsg e (downMsg b (some len)) s) s

/-- The message that gathers on a door is a returned copy, with its body so far and its whole length. -/
def gathering (x : Door) : Option (Bytes × Nat) :=
  match tfind 1 x.rx with
  | some m => if x.dir == 2 && byteAt m 0 == 5 then some (m.drop 16, rd m 8 4) else none
  | none => none

/-- Another flit of a returned copy has arrived: the chosen source's goes on down (R164). -/
def throughPart (d kind : Nat) (m : Bytes) (s : State) : State :=
  if kind != 1 || !s.build.hub || (gathering (doorAt d s)).isNone then s else
  let n := rd m 24 8
  match s.hub.through with
  | some (e, k) => if e == d && k == n then growDown (m.drop 16) s else s
  | none => if chosenFor n s == some (sourcePlane d s) then beginThrough d n (m.drop 16) (rd m 8 4) s else s

/-- The message that gathered on a door has ended; a copy that is still going down then ended malformed. -/
def endThrough (d kind : Nat) (s : State) : State := if kind == 1 then breakThrough d s else s

/-- A returned copy reaches a hub, complete or broken off. One that breaks off while it goes down, or would have gone down
from its first flit, ends with ABORT (R164, R165). -/
def hubReturned (door : Nat) (aborted : Bool) (b : Bytes) (s : State) : State :=
  if (doorAt door s).dir != 2 then s else
  let p := sourcePlane door s
  let n := rd b 8 8
  let going := s.hub.through == some (door, n)
  if aborted then
    breakThrough door (if going || b.length < 16 || chosenFor n s != some p then s else beginThrough door n b (b.length + 1) s)
  else if !returnedOk b then malformedOn door (breakThrough door s)
  else
    let (cur, pend) := summaryParams b
    let s := receiveParams cur pend s
    let s := { s with hub := { s.hub with copies := lastN 4 (s.hub.copies ++ [(p, n, b)]) }
                      frame := keepReturned n b s.frame }
    if going then endDown b s else if chosenFor n s == some p then forwardCopy n b s else s

/-- RETURNED_SUMMARY_ARRIVAL (R45, R164, R165). -/
def execReturnedSummaryArrival (after door : Nat) (aborted : Bool) (item : Bytes) (s : State) : Host.Outcome State Fault Refusal :=
  let s := begin_ after s
  .next (if !carries door s then s else if s.build.hub then hubReturned door aborted item s else dieReturned door aborted item s)

/-- The copy of a plane and frame under reassembly: its door, its body so far and its whole length. -/
def arriving (p n : Nat) (s : State) : Option (Nat × Bytes × Nat) :=
  (List.range s.net.doors.length).findSome? fun d =>
    if !liveAt d s || sourcePlane d s != p then none else
    ((gathering (doorAt d s)).filter fun g => rd g.1 8 8 == n).map (d, ·)

/-- The first flit of a plane's copy of a frame has arrived: it is held, or stands under reassembly. -/
def copyBegun (p n : Nat) (s : State) : Bool := (copyOf p n s).isSome || (arriving p n s).isSome

/-- A select point (R164) `k` graces after the root mark; past the tick it is still that of the frame before. -/
def selectPoint (k : Nat) (s : State) : State :=
  let t := markAt s.frame.params.root s + k * graceUnits s
  let back := periodUnits s.frame.params
  let old := s.time.now + back ≤ t && curFrame s > 0 && s.hub.chosen.map (·.1) != some (curFrame s - 1)
  let n := if old then curFrame s - 1 else curFrame s
  let s := advanceTo (if old then t - back else t) s
  let p := if copyBegun 0 n s then some 0 else if copyBegun 1 n s then some 1 else none
  let s := { s with hub := { s.hub with chosen := some (n, p) } }
  match p.bind fun p => copyOf p n s, p.bind fun p => arriving p n s with
  | some b, _ => forwardCopy n b s
  | none, some (d, b, len) => beginThrough d n b len s
  | none, none => s

/-- POD_SELECT_POINT (R164). -/
def execPodSelectPoint (s : State) : Host.Outcome State Fault Refusal :=
  let s := s.fresh
  .next (if working s && isPod s && s.frame.last.isSome then selectPoint 1 s else s)

/-- TRAY_SELECT_POINT (R164). -/
def execTraySelectPoint (s : State) : Host.Outcome State Fault Refusal :=
  let s := s.fresh
  .next (if working s && isTray s && s.frame.last.isSome then selectPoint 2 s else s)

end Sys2Proof.Machine
end

