-- ==== Sys2Proof/Machine/Security.lean ====
section
/-! DEFINITION. The security boundary, sessions, keys and firmware (R414 to R433), and the SEC commands. -/
namespace Sys2Proof.Machine

def setSec (f : Security → Security) (s : State) : State := { s with sec := f s.sec }

/-! ### Boundary (R416) -/

/-- The tests end: OPERATIONAL, or ERROR; a SEC.SELF_TEST that waits is answered. -/
def endTests (passed : Bool) (s : State) : State :=
  let waiting := s.sec.testReply
  let s := setSec (fun x => { x with boundary := if passed then .operational else .error, selfTests := if passed then 1 else 2, testReply := none }) s
  match waiting with
  | some r => finish 0x1506 r (okay [stU32 0 s.sec.selfTests], s)
  | none => s

/-- SELF_TEST_COMPLETE (R416). -/
def execSelfTestComplete (passed : Bool) (s : State) : Host.Outcome State Fault Refusal :=
  let s := s.fresh
  .next (if !outOfReset s || s.sec.boundary != .selfTest then s else endTests passed s)

/-- ENTROPY_TEST_FAILURE (R416): ERROR, unless the block is ZEROISED, which nothing leaves. -/
def execEntropyTestFailure (s : State) : Host.Outcome State Fault Refusal :=
  let s := s.fresh
  .next (if !outOfReset s || s.sec.boundary == .zeroised then s else endTests false s)

/-! ### Keys and sessions (R418 to R424) -/

/-- The current ownership key. -/
def ownerKey (s : State) : Option Bytes := tfind s.sec.generation s.sec.ownership

/-- Authorisation bits that Table SEC-2 gives. -/
def authBits : Nat := 64
def sessionCap (s : State) : Nat := if s.build.hub then 64 else 8

/-- A grant's length for its slot byte (R422). -/
def grantLength (g : Bytes) : Bool := g.length > 24 && g.length == (if byteAt g 24 == 0xFE then 320 else 224)

/-- The anchor that signs a grant: the installed one, or the one that an enrolment grant appends. -/
def grantAnchor (g : Bytes) (s : State) : Option Anchor :=
  if byteAt g 24 == 0xFE then some ⟨rd g 224 48, rd g 272 48, 0xFF, false⟩
  else if byteAt g 24 < 8 then (anchorAt (byteAt g 24) s).filter fun a => bit a.mask 0
  else none

/-- The bytes that an enrolment grant appends. -/
def grantTail (g : Bytes) : Bytes := if byteAt g 24 == 0xFE then slice g 224 96 else []

/-- The signature of a grant holds. -/
def grantSigned (g : Bytes) (s : State) : Bool :=
  match grantAnchor g s with
  | some a => ecdsaVerify a.x a.y (rd g 128 48) (rd g 176 48) (sha256 (g.take 128 ++ grantTail g))
  | none => false

/-- The session key of a grant, when its tag holds under the current generation. -/
def grantKey (g : Bytes) (s : State) : Option Bytes :=
  (ownerKey s).bind fun k => gcmOpen k (slice g 28 12) (g.take 28 ++ grantTail g) (slice g 40 32) (slice g 72 16)

def grantNotAfter (g : Bytes) : Nat := rd g 12 8 * secUnit + bits (rd g 20 4) 0 30 * nsUnit

/-- A reserved byte or bit of a grant is set, or an authorisation that Table SEC-2 does not give. -/
def grantReserved (g : Bytes) : Bool :=
  !allZero (slice g 6 2) || !allZero (slice g 26 2) || !allZero (slice g 88 40) || rd g 8 4 ≥ authBits || bits (rd g 20 4) 30 2 != 0

/-- The checks of R422, in order: the session that the grant opens, or the code that refuses it. -/
def checkGrant (g : Bytes) (s : State) : Except Nat Session :=
  let enrol := byteAt g 24 == 0xFE
  let sid := rd g 4 2
  if !grantLength g then .error stBadLength
  else if s.sec.boundary != .operational || enrol == s.sec.owned then .error stState
  else if rd g 0 4 != unitId s || !grantSigned g s || byteAt g 25 != s.sec.generation then .error stAuth
  else match grantKey g s with
    | none => .error stAuth
    | some key =>
      if grantNotAfter g ≤ s.time.now then .error stReplay
      else if sid == 0 || grantReserved g then .error stBadParam
      else if !stampOk (slice g 12 12) then .error stRange
      else if (sessionOf sid s).isSome then .error stState
      else if s.sec.sessions.length ≥ sessionCap s then .error stSpace
      else .ok { id := sid, auth := rd g 8 4, key := key, notAfter := grantNotAfter g }

/-- The session opens; an enrolment first writes its anchor into slot 0 (R422). -/
def openGranted (g : Bytes) (x : Session) (s : State) : State :=
  let enrol := byteAt g 24 == 0xFE
  setSec (fun k => { k with sessions := k.sessions ++ [x], owned := true
                            anchors := if enrol then modifyAt 0 (fun _ => grantAnchor g s) k.anchors else k.anchors }) s

/-- SEC.OPEN_SESSION (R422). It carries session 0 and passes no session check; the reply's key is the new one's, or none. -/
def secOpenSession (r : Request) (s : State) : Option Bytes × Reply × State :=
  if !working s || s.sec.boundary == .selfTest then (none, refuse stBusy, s)
  else if s.sec.boundary == .error then (none, refuse stAuth, s)
  else match checkBody [must tData] r.body with
    | some e => (none, refuse e, s)
    | none =>
      let g := (val? tData r.body).getD []
      match checkGrant g s with
      | .error e => (none, refuse e, s)
      | .ok x => (some x.key, okay [], openGranted g x s)
def execSecOpenSession (r : Request) (s : State) : Host.Outcome State Fault Refusal :=
  let (key, p, s) := secOpenSession r (begin_ r.after s)
  .next (answerWith key 0x1503 r p s)

def endSession (id : Nat) (s : State) : State := setSec (fun x => { x with sessions := x.sessions.filter (·.id != id) }) s

/-- SEC.CLOSE_SESSION (R423): its own session, or with KEYS the one that INDEX names. -/
def secCloseSession (r : Request) (s : State) : Reply × State :=
  let other := match num? tIndex r.body with | some k => k != r.session | none => false
  command { code := 0x1504, auth := if other then authKeys else authOperate, params := [may tIndex] } true r (fun b s =>
    let id := (num? tIndex b).getD r.session
    if (sessionOf id s).isNone then (refuse stRange, s) else (okay [], endSession id s)) s
/-- The reply is authenticated with the key as it was. -/
def execSecCloseSession (r : Request) (s : State) : Host.Outcome State Fault Refusal :=
  let s := begin_ r.after s
  let (p, s') := secCloseSession r s
  .next (answerWith (replyKey r.session s) 0x1504 r p s')

def setSession (id : Nat) (f : Session → Session) (s : State) : State :=
  setSec (fun x => { x with sessions := x.sessions.map fun k => if k.id == id then f k else k }) s

/-- Choice SESSION of Table SEC-6. -/
def rotateSession (r : Request) (d : Bytes) (s : State) : Reply × State :=
  let aad := targetBlock s ++ toLe 2 r.session ++ toLe 4 r.seq
  if d.length != 60 then (refuse stBadLength, s) else
  match (sessionOf r.session s).bind fun k => gcmOpen k.key (d.take 12) aad (slice d 12 32) (slice d 44 16) with
  | none => (refuse stAuth, s)
  | some key => (okay [], setSession r.session (fun k => { k with key := key }) s)

/-- An anchor slot without its unrevoked anchor leaves another with SESSIONS. -/
def otherSessions (slot : Nat) (s : State) : Bool :=
  (s.sec.anchors.zipIdx.any fun p => p.2 != slot && (match p.1 with | some a => !a.revoked && bit a.mask 0 | none => false)) ||
  (!s.sec.release.revoked && bit s.sec.release.mask 0)

/-- Choice ANCHOR: writes an empty slot, revokes one, or narrows the release anchor. -/
def rotateAnchor (revoke : Bool) (d : Bytes) (s : State) : Reply × State :=
  let slot := byteAt d 0
  if d.length != (if revoke then 1 else 100) then (refuse stBadLength, s)
  else if slot > 7 && (slot != 0xFF || revoke) then (refuse stRange, s)
  else if revoke then
    (match s.sec.anchors.getD slot none with
     | some a => if a.revoked || !otherSessions slot s then (refuse stState, s)
         else (okay [], setSec (fun x => { x with anchors := modifyAt slot (fun _ => some { a with revoked := true }) x.anchors }) s)
     | none => (refuse stState, s))
  else if !allZero (slice d 2 2) || bit (byteAt d 1) 7 then (refuse stBadParam, s)
  else if slot == 0xFF then
    (okay [], setSec (fun x => { x with release := { x.release with mask := x.release.mask &&& byteAt d 1 } }) s)
  else if (s.sec.anchors.getD slot none).isSome then (refuse stState, s)
  else (okay [], setSec (fun x => { x with anchors := modifyAt slot (fun _ => some ⟨rd d 4 48, rd d 52 48, byteAt d 1, false⟩) x.anchors }) s)

/-- Choice OWNERSHIP: the next generation is written and the older ones revoked. -/
def rotateOwnership (d : Bytes) (s : State) : Reply × State :=
  let g := s.sec.generation + 1
  if d.length != 60 then (refuse stBadLength, s)
  else if s.sec.generation ≥ 7 then (refuse stState, s)
  else match (ownerKey s).bind fun k => gcmOpen k (d.take 12) (targetBlock s ++ toLe 1 g) (slice d 12 32) (slice d 44 16) with
    | none => (refuse stAuth, s)
    | some key => (okay [], setSec (fun x => { x with generation := g, ownership := [(g, key)] }) s)

/-- Choice ZEROISE. -/
def zeroise (s : State) : State :=
  setSec (fun x => { x with identity := false, ownership := [], anchors := List.replicate 8 none, sessions := [], boundary := .zeroised }) s

/-- SEC.ROTATE_KEY (R424). -/
def secRotateKey (r : Request) (s : State) : Reply × State :=
  let c := choice r.body
  command { code := 0x1505, auth := if 1 ≤ c && c ≤ 3 then authKeys else authOperate, params := [must tChoice, may tFlag, may tData] } true r (fun b s =>
    let d := (val? tData b).getD []
    if c > 3 || flagBad b || ((val? tFlag b).isSome && c != 1) then (refuse stBadParam, s) else
    match c with
    | 0 => rotateSession r d s
    | 1 => rotateAnchor (flag b) d s
    | 2 => rotateOwnership d s
    | _ => if (val? tData b).isSome then (refuse stBadParam, s) else (okay [], zeroise s)) s
/-- The reply of a rotation or zeroisation carries a trailer under the key as it was. -/
def execSecRotateKey (r : Request) (s : State) : Host.Outcome State Fault Refusal :=
  let s := begin_ r.after s
  let (p, s') := secRotateKey r s
  .next (answerWith (replyKey r.session s) 0x1505 r p s')

/-- SEC.SELF_TEST (R416): answered when the tests end. -/
def secSelfTest (r : Request) (s : State) : Option Reply × State :=
  let (p, s') := command { code := 0x1506 } true r (fun _ s => (okay [], setSec (fun x => { x with boundary := .selfTest, selfTests := 0, testReply := some r }) s)) s
  if p.status == stOk then (none, s') else (some p, s')
def execSecSelfTest (r : Request) (s : State) : Host.Outcome State Fault Refusal :=
  match secSelfTest r (begin_ r.after s) with
  | (some p, s) => .next (finish 0x1506 r (p, s))
  | (none, s) => .next s

/-! ### Firmware slots (R427 to R431) -/

def slotAt (k : Nat) (s : State) : FwSlot := s.sec.slots.getD k {}
def putSlot (k : Nat) (x : FwSlot) (s : State) : State := setSec (fun y => { y with slots := modifyAt k (fun _ => x) y.slots }) s

/-- The slot that staging writes: the inactive one, or slot A in BOOT (R428, R429). -/
def stagingSlot (s : State) : Nat := match s.sec.active with | some k => 1 - k | none => 0

/-- Profile codes of Table SEC-8. -/
def profileCode (hub : Bool) : Nat := b2n hub

/-- A firmware image as a slot holds it. -/
def readFirmware (img : Bytes) : FwSlot :=
  { image := img, version := rd img 0 4, security := rd img 8 4, stateWritten := rd img 12 2, stateLowest := rd img 14 2, frameFormat := byteAt img 24
    verified := true }

def firmwareLimit : Nat := 262144

/-- The checks of R429 after BUSY, for an image of a profile. -/
def checkFirmware (hub : Bool) (img : Bytes) (s : State) : Option Nat :=
  if !verified 1 img s then some stSig
  else if rd img 4 2 != 1 || rd img 20 4 != img.length then some stFormat
  else if img.length > firmwareLimit then some stSpace
  else if byteAt img 6 != profileCode hub || byteAt img 7 != 0 || !allZero (slice img 25 39) || rd img 0 4 == 0 || rd img 8 4 > 63 then some stBadParam
  else if rd img 8 4 < s.sec.minimum then some stVersion
  else none

/-- A handover is pending or a slot is on trial (R429). -/
def firmwareBusy (s : State) : Bool := s.pend.any (·.opcode == 0x1508) || s.sec.trial.isSome

def setFw (f : FwStore → FwStore) (s : State) : State := { s with mem := { s.mem with fw := f s.mem.fw } }

/-- A die unit asks for its tray hub's die boot image. -/
def requestBoot (s : State) : State :=
  let (n, s) := nextSerial 11 s
  sendBulk 0 11 n (zeros 8) s

/-- Where an image goes: the staging slot, or the firmware store's staged die boot image. -/
def storeFirmware (die : Bool) (img : Bytes) (s : State) : State :=
  if die then setFw (fun f => { f with die := modifyAt (1 - f.dieActive) (fun _ => img) f.die, dieStaged := true }) s
  else putSlot (stagingSlot s) (readFirmware img) s

/-- SEC.STAGE_FIRMWARE (R429): CHOICE 0 FETCH on a die unit, 1 DIE on a hub. -/
def secStageFirmware (r : Request) (s : State) : Reply × State :=
  command { code := 0x1507, auth := authUpdate, params := [may tChoice, may tPiece] } true r (fun b s =>
    let c := (val? tChoice b).map fun v => byteAt v 0
    let die := c == some 1
    if (c == some 0 && !isDie s) || (die && !s.build.hub) || (c.getD 0) > 1 then (refuse stBadParam, s)
    else if (val? tPiece b).isSome == (c == some 0) then (refuse stBadParam, s)
    else if c == some 0 then
      (if firmwareBusy s then (refuse stBusy, s)
       else if !liveAt 0 s then (refuse stState, s)
       else (okay [], requestBoot (setSec (fun x => { x with fetching := true }) s)))
    else if die && !storageUsable s then (refuse stState, s)
    else
      let cleared := if die then setFw (fun f => { f with die := modifyAt (1 - f.dieActive) (fun _ => []) f.die, dieStaged := false }) s else putSlot (stagingSlot s) {} s
      match takePiece { key := 0x1507 + 65536 * b2n die, limit := firmwareLimit, busy := firmwareBusy s, cleared := cleared } r.session b s with
      | .done p s => (p, s)
      | .whole img s =>
        if firmwareBusy s then (refuse stBusy, s) else
        match checkFirmware (s.build.hub && !die) img s with
        | some e => (refuse e, s)
        | none => (okay [], storeFirmware die img s)) s
def execSecStageFirmware (r : Request) (s : State) : Host.Outcome State Fault Refusal :=
  .next (finish 0x1507 r (secStageFirmware r (begin_ r.after s)))

/-- R430: the conditions that refuse a handover. -/
def handoverBad (s : State) : Bool :=
  let new := slotAt (stagingSlot s) s
  !new.verified || s.sec.trial.isSome || (match s.sec.active with | some k => decide ((slotAt k s).stateWritten < new.stateLowest) | none => false)

/-- SEC.HANDOVER (R430): CHOICE 1, DIE, on a hub. -/
def secHandover (r : Request) (s : State) : Reply × State :=
  command { code := 0x1508, auth := authUpdate, params := [must tFrame, may tChoice] } true r (fun b s =>
    if (val? tChoice b).isSome then
      (if !s.build.hub || choice b != 1 then (refuse stBadParam, s)
       else if !s.mem.fw.dieStaged then (refuse stState, s)
       else defer 0x1508 1 (num tFrame b) .dieBoot s)
    else if handoverBad s then (refuse stState, s)
    else defer 0x1508 0 (num tFrame b) .handover s) s
def execSecHandover (r : Request) (s : State) : Host.Outcome State Fault Refusal := .next (finish 0x1508 r (secHandover r (begin_ r.after s)))

/-- FIRMWARE_HANDOVER (Table EVR-2). -/
def handoverEntry (old k : Nat) (s : State) : State :=
  ownEntry 0x0F33 0 0 (toLe 4 old ++ toLe 4 (slotAt k s).version ++ toLe 1 k) s

/-- A slot starts. -/
def startSlot (k : Nat) (s : State) : State := setSec (fun x => { x with active := some k, booted := k }) s

/-- The slot that starts at a handover takes the state over within 100 µs of the tick (R430). -/
def takeOverCycles : Nat := 100000

/-- The handover at the tick of F (R430, R431). -/
def handOver (s : State) : State :=
  let k := stagingSlot s
  let old := fwVersion s
  handoverEntry old k (setSec (fun x => { x with trial := some 1024, coreFree := s.pwr.cycles + takeOverCycles }) (startSlot k s))

/-- The die boot image served from the next cold boot on (R430). -/
def swapDieBoot (s : State) : State := setFw (fun f => { f with dieActive := 1 - f.dieActive }) s

/-- TRIAL_END (R431): after 1,024 frames the slot is confirmed, and the security minimum rises to its security version. -/
def execTrialEnd (s : State) : Host.Outcome State Fault Refusal :=
  let s := s.fresh
  match s.sec.trial, s.sec.active with
  | some 0, some k =>
    if !working s then .next s else
    .next (setSec (fun x => { x with trial := none, minimum := max x.minimum (slotAt k s).security }) s)
  | _, _ => .next s

/-- A slot holds an image that verifies when it loads, and may run (R416, R431). -/
def slotGood (k : Nat) (s : State) : Bool := (checkFirmware s.build.hub (slotAt k s).image s).isNone

/-- The firmware load test (R416): an image whose signature does not verify when it loads puts the boundary in ERROR, unless the
block is ZEROISED. -/
def loadTest (k : Nat) (s : State) : State :=
  let img := (slotAt k s).image
  if img.isEmpty || verified 1 img s || s.sec.boundary == .zeroised then s
  else setSec (fun x => { x with boundary := .error, selfTests := 2 }) s

/-- The boot ROM loads a slot, and starts it if it may run. -/
def bootSlot (k : Nat) (s : State) : State := let s := loadTest k s; if slotGood k s then startSlot k s else s

/-- A warm reset's boot (R428, R431): the active slot, or the other one if that fails or was on trial. -/
def bootWarm (s : State) : State :=
  let first := s.sec.booted
  let old := (slotAt first s).version
  let onTrial := s.sec.trial.isSome
  let s := if onTrial then s else bootSlot first s
  let s := if s.sec.active.isSome then s else bootSlot (1 - first) s
  match s.sec.active with
  | none => s
  | some k =>
    let s := setSec (fun x => { x with trial := none }) s
    if onTrial then handoverEntry old k s else s

/-- Without running firmware, the boot ROM starts a slot, loads the hub's image from the firmware store, or asks for the die boot
image (R428). -/
def bootRom (s : State) : State :=
  if s.pwr.warm && (slotGood 0 s || slotGood 1 s) then bootWarm s
  else if s.build.hub then
    let img := s.mem.fw.hub.getD s.mem.fw.hubActive []
    if !storageUsable s || img.isEmpty then s
    else bootSlot 0 (putSlot 0 { readFirmware img with verified := (checkFirmware true img s).isNone } s)
  else if liveAt 0 s then requestBoot s
  else s

/-- BOOT_REQUEST_ARRIVAL (R428): the served die boot image. -/
def execBootRequestArrival (door : Nat) (item : Bytes) (s : State) : Host.Outcome State Fault Refusal :=
  let s := s.fresh
  if !isTray s || !carries door s then .next s
  else if item != zeros 8 then .next (malformedOn door s)
  else
    let img := s.mem.fw.die.getD s.mem.fw.dieActive []
    if !storageUsable s || img.isEmpty then .next s else
    let (n, s) := nextSerial 12 s
    .next (sendBulk door 12 n img s)

/-- BOOT_IMAGE_ARRIVAL (R428, R429): a fetched image is staged; in BOOT, one that the boot ROM asked for goes to slot A and starts. -/
def execBootImageArrival (item : Bytes) (s : State) : Host.Outcome State Fault Refusal :=
  let s := s.fresh
  if s.build.hub || !carries 0 s then .next s
  else if s.sec.fetching then
    let s := setSec (fun x => { x with fetching := false }) s
    if firmwareBusy s then .next s else
    .next (match checkFirmware false item s with
      | some _ => putSlot (stagingSlot s) {} s
      | none => storeFirmware false item s)
  else if s.sec.active.isSome then .next s
  else .next (bootSlot 0 (putSlot 0 { readFirmware item with verified := (checkFirmware false item s).isNone } s))

/-! ### Readouts (Table SEC-9) -/

/-- Codes of the boundary state: in the order of R416. -/
def boundaryCode (b : Boundary) : Nat := match b with | .selfTest => 0 | .operational => 1 | .error => 2 | .zeroised => 3

/-- Ownership: 0 UNOWNED, 1 OWNED, 2 ZEROISED (R421). -/
def ownershipCode (s : State) : Nat := if s.sec.boundary == .zeroised then 2 else b2n s.sec.owned

/-- An anchor: installed, mask, revoked. -/
def anchorBytes (a : Option Anchor) : Bytes := match a with | some a => toLe 1 1 ++ toLe 1 a.mask ++ toLe 1 (b2n a.revoked) ++ zeros 1 | none => zeros 4

/-- SEC.GET: items in the order of Table SEC-9, anchors 0 to 7 and then the release anchor. -/
def secGet (r : Request) (s : State) : Reply × State :=
  command { code := 0x1501, auth := authRead } true r (fun _ s =>
    let slot (k : Nat) : Bytes :=
      let x := slotAt k s
      toLe 4 x.version ++ toLe 4 x.security ++ toLe 1 (b2n x.verified) ++ toLe 1 (b2n (s.sec.active == some k)) ++
        toLe 2 (if s.sec.active == some k then s.sec.trial.getD 0 else 0)
    let hand := ((pendOf 0x1508 0 s).map (·.frame)).getD 0
    let pend := ((pendOf 0x1508 0 s).toList ++ (pendOf 0x1508 1 s).toList).map fun p => pending_ p.frame []
    let stored := (s.mem.fw.hub ++ s.mem.fw.die).flatMap fun i => toLe 4 (rd i 0 4)
    (okay (pend ++ [stU32 0 (boundaryCode s.sec.boundary), stU32 1 s.sec.selfTests, stU32 2 (ownershipCode s), stU32 3 s.sec.generation,
      stBytes 4 (s.sec.anchors.flatMap anchorBytes ++ anchorBytes (some s.sec.release)), stU32 5 s.sec.minimum, stU32 6 s.sec.sessions.length,
      stBytes 7 (slot 0 ++ slot 1), stU64 8 hand] ++ (if s.build.hub then [stBytes 9 stored] else [])), s)) s
def execSecGet (r : Request) (s : State) : Host.Outcome State Fault Refusal := .next (finish 0x1501 r (secGet r (begin_ r.after s)))

/-- What an attestation signs (R420): 0x20, the challenge, the unit ID, versions and security versions of both slots, the security
minimum, the boundary state, and the ownership generation. -/
def attested (challenge : Bytes) (s : State) : Bytes :=
  let slot (k : Nat) : Bytes := toLe 4 (slotAt k s).version ++ toLe 4 (slotAt k s).security
  0x20 :: challenge ++ toLe 4 (unitId s) ++ slot 0 ++ slot 1 ++ toLe 4 s.sec.minimum ++ toLe 1 (boundaryCode s.sec.boundary) ++ toLe 1 s.sec.generation

/-- SEC.GET_CERT (R419, R420): the chain, and for a challenge the attestation. -/
def secGetCert (r : Request) (s : State) : Reply × State :=
  command { code := 0x1502, auth := authRead, params := [may tData] } true r (fun b s =>
    match val? tData b with
    | none => (okay [record (fit 768 s.sec.chain)], s)
    | some c =>
      if c.length != 32 then (refuse stBadLength, s) else
      let sig := fit 96 (Config.attestation s.free (sha256 (attested c s)))
      (okay [record (fit 768 s.sec.chain), record sig], { s with free := s.free + 1 })) s
def execSecGetCert (r : Request) (s : State) : Host.Outcome State Fault Refusal := .next (finish 0x1502 r (secGetCert r (begin_ r.after s)))

end Sys2Proof.Machine
end

