-- ==== Sys2Proof/Machine/Doors.lean ====
section
/-! DEFINITION. Door events: replay, lanes, training, hellos and wiring (R139 to R148), and the DOOR opcodes (R171). -/
namespace Sys2Proof.Machine

/-! ### Wiring (R146, R147, R461) -/

/-- The direction (as `Door.dir`) and mode of a door end: Table DOR-6, or the custom map. End `d + 100` is the second
lane of a split door. -/
def doorRole (e : Nat) (s : State) : Nat × Nat :=
  let d := e % 100
  let second := e ≥ 100
  let split := if second then 4 else 3
  if isDie s then (if e == 0 then (2, 0) else (0, 0)) else
  if bit s.cfg.flags 1 then
    let b := byteAt s.cfg.doorMap d
    let mode := bits b 2 3
    match mode with
      | 0 => if second then (0, 0) else (bits b 0 2, 0)
      | 2 => if second then (0, 0) else (bits b 0 2, 2)
      | 3 => (bits b 0 2, split)
      | _ => (0, 0)
  else match role s with
    | .root => if d < 96 then (1, split) else if second then (0, 0) else (3, 0)
    | .pod =>
      if second then (0, 0)
      else if d < 64 then (1, 0)
      else if d == 96 || d == 98 || ((d == 97 || d == 99) && hubNumber s < 32) then (2, 2)
      else (0, 0)
    | _ => if second then (0, 0) else if d < 96 then (1, 0) else (2, 0)

/-- What the standard assignment expects of a hub's peer: hub address or die ID with its profile, and its door number;
`none` in a place that admits several. -/
def standardPeer (e : Nat) (s : State) : Nat × Option Nat × Nat :=
  let d := e % 100
  let n := hubNumber s
  match role s with
  | .tray =>
    if d < 84 then (0, some (128 * n + d), 0)
    else if d < 96 then (0, none, 0)
    else (1, some (podAddr (n / 32) ((d - 96) / 2)), 2 * (n % 32) + d % 2)
  | .pod =>
    if d < 64 then (1, some (trayAddr (32 * n + d / 2)), 96 + 2 * plane s + d % 2)
    else (1, some (rootAddr ((d - 96) / 2)), if d % 2 == 0 then n else 64 + n)
  | .root =>
    if d < 96 then (1, some (podAddr (d % 64) (e / 100)), 96 + 2 * plane s + d / 64)
    else (1, some (rootAddr (1 - plane s)), d)
  | .die => (1, some (trayAddr (trayOf (dieId s))), 0)

/-- The role and plane of a hub address (Table SCO-7). -/
def addrRole (a : Nat) : Nat := bits a 14 2

/-- A hello is the one expected on the door (R147): profile, role, address and, where one is expected, door number. -/
def helloExpected (e : Nat) (b : Bytes) (s : State) : Bool :=
  let hub := byteAt b 0 == 1
  let addr := rd b 2 2
  let die := rd b 4 4 % 2 ^ 18
  let n := hubNumber s
  if byteAt b 0 > 1 then false
  else if isDie s then hub && addr == trayAddr (trayOf (dieId s))
  else if bit s.cfg.flags 1 then
    match (doorAt e s).dir, role s with
    | 1, .tray => !hub && trayOf die == n && !reservedSlot (slotOf die)
    | 1, .pod => hub && addrRole addr == 1 && bits addr 11 3 == 0 && bits addr 0 11 / 32 == n
    | 1, .root => hub && addrRole addr == 2
    | 2, .tray => hub && addrRole addr == 2 && bits addr 0 13 == n / 32
    | 2, .pod => hub && addrRole addr == 3
    | 3, .root => hub && addr == rootAddr (1 - plane s)
    | _, _ => false
  else
    let (profile, who, door) := standardPeer e s
    byteAt b 0 == profile && byteAt b 8 == door &&
      (match who with
       | some a => (if hub then addr else die) == a
       | none => trayOf die == n && slotOf die ≥ 96)

/-- The word of Table ERR-3 for an end of a door: address or die ID in [17:0], profile in bit 18, door number from bit 19. -/
def helloWord (b : Bytes) : Nat :=
  (if byteAt b 0 == 1 then rd b 2 2 else rd b 4 4 % 2 ^ 18) + 2 ^ 18 * (byteAt b 0 % 2) + 2 ^ 19 * byteAt b 8

/-- What R147 fixes of the expected hello, in the form of `helloWord`, and the bits that it leaves open: a door number that is
not expected, and the slot, number or plane of a peer of which several would do. -/
def expectedParts (e : Nat) (s : State) : Nat × Nat :=
  let n := hubNumber s
  let hub (a : Nat) : Nat := 2 ^ 18 + a
  let anyDoor := 255 * 2 ^ 19
  if isDie s then (hub (trayAddr (trayOf (dieId s))), anyDoor)
  else if bit s.cfg.flags 1 then
    match (doorAt e s).dir, role s with
    | 1, .tray => (128 * n, anyDoor + 127)
    | 1, .pod => (hub (trayAddr (32 * n)), anyDoor + 31)
    | 1, .root => (hub (podAddr 0 0), anyDoor + 2 ^ 13 + 63)
    | 2, .tray => (hub (podAddr (n / 32) 0), anyDoor + 2 ^ 13)
    | 2, .pod => (hub (rootAddr 0), anyDoor + 2 ^ 13)
    | 3, .root => (hub (rootAddr (1 - plane s)), anyDoor)
    | _, _ => (0, 2 ^ 27 - 1)
  else
    match standardPeer e s with
    | (p, some a, d) => (a + 2 ^ 18 * p + 2 ^ 19 * d, 0)
    | (p, none, d) => (128 * n + 2 ^ 18 * p + 2 ^ 19 * d, 127)

/-- The expected word: what R147 fixes, with a free value in the bits that it leaves open (log entry 75). -/
def expectedWord (e : Nat) (s : State) : Nat × State :=
  let (v, m) := expectedParts e s
  if m == 0 then (v, s) else (v ||| (Config.freeNat s.free &&& m), { s with free := s.free + 1 })

/-! ### States (R140) -/

/-- A door goes to MISWIRED: a CORRECTED record holds both hellos, and the hello goes out without PEER_OK (R147). -/
def miswire (d : Nat) (hello : Bytes) (s : State) : State :=
  let wasLive := liveAt d s
  let s := setDoor d (fun x => { x with state := .miswired, accepted := false }) (leaveLive d s)
  let s := if wasLive then doorLoss d 0 none s else s
  let (w, s) := expectedWord d s
  sendHello d (raiseOwn 0x0E 1 0x8002 (doorEntity d) doorKind (toLe 1 (d % 100) ++ toLe 4 w ++ toLe 4 (helloWord hello)) s)

/-- What a FRESH hello of the peer means beyond the link (R148): the die's mirror and image begin again, records are
sent again, and a FORWARD hub asks for those that it passed (R262, R321, R361). -/
def peerFresh (d : Nat) (s : State) : State :=
  let s := if isDie s then imageFresh { s with evr := { s.evr with mirrorNext := s.evr.base } } else s
  if s.err.via == some d && s.err.fleet && !isRoot s then
    let s := resendAll s
    if s.build.hub then s.err.passedUp.foldl (fun s p => sendAck p.1 true 0 s) s else s
  else s

/-- A door enters UP or DEGRADED (R140, R148): what waited for it leaves. -/
def comeUp (d : Nat) (s : State) : State :=
  let x := doorAt d s
  let fresh := bit (byteAt x.peerHello 1) 0
  let rootsJoin := isPrimary s && x.dir == 3 && (peerDoor s).isNone
  let st : DoorState := if x.mode == 0 && (x.lanesRetired > 0 || byteAt x.peerHello 9 == 1) then .degraded else .up
  let s := setDoor d (fun y => { y with state := st, fresh := false }) s
  let s := if fresh then peerFresh d s else s
  let s := resumeLink d x.peerHello s
  let s := releaseHeld s
  let s := if x.dir == 1 then pushOn s else s
  let s := if rootsJoin then sendRootParams s else s
  if isDie s then sendOutcomeDue s else s

/-- A door that must begin training, if it is enabled and no quarantine runs (R140, R141). -/
def trainIfFree (d : Nat) (s : State) : State :=
  let x := doorAt d s
  if x.dir != 0 && x.enabled && !x.quarantined then train d s else s

/-- HELLO_ARRIVAL (R147, R148). -/
def helloTaken (d : Nat) (b : Bytes) (s : State) : State :=
  let x := doorAt d s
  if x.state != .training then s
  else if b.length != 48 then malformedOn d s
  else
    let s := setDoor d (fun y => { y with peerHello := b }) s
    if !helloExpected d b s then miswire d b s else
    let die := rd b 4 4 % 2 ^ 18
    let twin := if isTray s && x.dir == 1 then
        findIdx (fun (p : Door × Nat) => p.2 != d && p.1.dir == 1 && p.1.accepted && !peerIsHub p.1 && peerDie p.1 == die) s.net.doors.zipIdx
      else none
    match twin with
    | some o =>
      if o < d then miswire d b s
      else acceptHello d b (miswire o (doorAt o s).peerHello s)
    | none => acceptHello d b s
where
  /-- The peer is accepted: the slot is learned (R36), PEER_OK goes out, and with the peer's own the door is up. -/
  acceptHello (d : Nat) (b : Bytes) (s : State) : State :=
    let learned := if isTray s && (doorAt d s).dir == 1 then some (slotOf (rd b 4 4 % 2 ^ 18)) else (doorAt d s).slot
    let s := sendHello d (setDoor d (fun y => { y with accepted := true, slot := learned }) s)
    if bit (byteAt b 1) 1 then comeUp d s else s

def execHelloArrival (after : Nat) (door : Nat) (body : Bytes) (s : State) : Host.Outcome State Fault Refusal :=
  let s := begin_ after s
  if !working s || door ≥ s.net.doors.length then .next s else .next (helloTaken door body s)

/-! ### Link events (R139 to R141) -/

/-- REPLAY_TIMEOUT (R139): the oldest unacknowledged flit has waited 6 µs. -/
def execReplayTimeout (door : Nat) (s : State) : Host.Outcome State Fault Refusal :=
  let s := s.fresh
  if !carries door s then .next s else .next (replay door s)

/-- The door end that a lane of a door belongs to: a split door's lanes are links of their own (Table DOR-1). -/
def laneEnd (door lane : Nat) (s : State) : Nat := if (doorAt door s).mode == 3 && lane == 1 then door + 100 else door

/-- A lane in use: lane 1 of a half or split end is not. -/
def laneUsed (e lane : Nat) (s : State) : Bool := lane == 0 || (lane == 1 && ((doorAt e s).mode == 0 || (doorAt e s).mode == 4))

/-- LANE_LOCK_LOSS (R141): a lane in use loses lock, and the door retrains. -/
def execLaneLockLoss (door lane : Nat) (s : State) : Host.Outcome State Fault Refusal :=
  let s := s.fresh
  let e := laneEnd door lane s
  if !carries e s || !laneUsed e lane s then .next s else .next (retrain e s)

/-- A lane is retired (R141): counted, recorded and raised. -/
def retireLane (e lane errors : Nat) (s : State) : State :=
  let s := setDoor e (fun x => { x with lanesRetired := x.lanesRetired + 1, retirements := x.retirements + 1 }) (cageCount 1 e s)
  let s := ownEntry 0x0F21 (doorEntity e) doorKind (toLe 1 (e % 100) ++ toLe 1 lane ++ toLe 2 (min u16Max errors)) s
  let n := s.err.next
  let s := raiseOwn 0x0C 1 0x8002 (doorEntity e) doorKind (toLe 1 (e % 100) ++ toLe 1 lane ++ toLe 2 (min u16Max errors)) s
  doorLoss e 1 (some n) s

/-- LANE_RETIRE (R141): a lane's sync-header errors of 1 ms are counted, and more than 16 retire it. A full-mode door then goes
on in DEGRADED; a door without a second lane in use retrains. -/
def execLaneRetire (door lane errors : Nat) (s : State) : Host.Outcome State Fault Refusal :=
  let s := s.fresh
  let e := laneEnd door lane s
  if !working s || !laneUsed e lane s then .next s else
  let s := setDoor e (fun x => { x with syncErrors := modifyAt (lane % 2) (· + errors) x.syncErrors }) s
  if !carries e s || errors ≤ 16 then .next s else
  let s := retireLane e lane errors s
  .next (if (doorAt e s).mode == 0 && (doorAt e s).state == .up then setDoor e (fun x => { x with state := .degraded }) s else retrain e s)

/-- TRAINING_ATTEMPT_TIMEOUT (R140): a new attempt starts after 1 ms; a MISWIRED end repeats its hello (R147). -/
def execTrainingAttemptTimeout (door : Nat) (s : State) : Host.Outcome State Fault Refusal :=
  let s := s.fresh
  if !working s then .next s else
  match (doorAt door s).state with
  | .training => .next (sendHello door (setDoor door (fun x => { x with attempts := x.attempts + 1, accepted := false }) s))
  | .miswired => .next (sendHello door s)
  | _ => .next s

/-- QUARANTINE_END (R141): the quarantine time has passed, and the door trains if it is enabled. -/
def execQuarantineEnd (door : Nat) (s : State) : Host.Outcome State Fault Refusal :=
  let s := s.fresh
  let x := doorAt door s
  if !working s || !x.quarantined then .next s else
  let s := advanceCycles (x.quarantineAt + x.quarantineTime * 1000000000) s
  .next (trainIfFree door (setDoor door (fun x => { x with quarantined := false }) s))

/-! ### DOOR opcodes (Table DOR-13) -/

/-- The ends of a door: a split door has two. -/
def doorEnds (d : Nat) (s : State) : List Nat := if (doorAt (d + 100) s).mode == 4 then [d, d + 100] else [d]

def doorLimit (s : State) : Nat := if s.build.hub then 100 else 1

def stateCode (x : DoorState) : Nat :=
  match x with | .off => 0 | .training => 1 | .up => 2 | .degraded => 3 | .miswired => 4

/-- Milliseconds left of a quarantine. -/
def quarantineLeft (x : Door) (s : State) : Nat :=
  if x.quarantined then (x.quarantineAt + x.quarantineTime * 1000000000 - s.pwr.cycles) / 1000000 else 0

def doorRecord (e : Nat) (s : State) : Bytes :=
  let x := doorAt e s
  toLe 1 (e % 100) ++ toLe 1 (e / 100) ++ toLe 1 (stateCode x.state) ++ toLe 1 x.dir ++ toLe 1 x.mode ++
    toLe 1 (b2n x.enabled + 2 * b2n x.quarantined + 4 * b2n x.accepted) ++ toLe 1 x.lanesRetired ++ toLe 1 x.flapLimit ++
    toLe 4 x.quarantineTime ++ toLe 4 (quarantineLeft x s) ++ toLe 4 x.replays ++ toLe 4 x.retrains ++ toLe 4 x.attempts ++
    toLe 4 x.quarantines ++ toLe 4 x.retirements ++ fit 48 x.ownHello ++ fit 48 x.peerHello

def statRecord (e : Nat) (s : State) : Bytes :=
  let x := doorAt e s
  toLe 1 (e % 100) ++ toLe 1 (e / 100) ++ zeros 2 ++ x.flits.flatMap (toLe 8) ++ toLe 8 x.replays ++ toLe 8 x.crcErrors ++
    x.syncErrors.flatMap (toLe 8) ++ [x.malformed, x.abandoned, x.overlong, x.resent, x.traceDropped].flatMap (toLe 8)

/-- A readout of doors: one door, or all from an offset. -/
def doorReadout (code : Nat) (fixed : Nat → State → List Tlv) (rec_ : Nat → State → Bytes) (r : Request) (s : State) : Reply × State :=
  command { code := code, auth := authRead, params := [may tIndex, may tOffset] } true r (fun b s =>
    match num? tIndex b with
    | some d =>
      if d ≥ doorLimit s then (refuse stRange, s)
      else (readout r.version (fixed d s) ((doorEnds d s).map (rec_ · s)) id, s)
    | none =>
      let off := (num? tOffset b).getD 0
      (readout r.version [] ((((List.range (doorLimit s)).flatMap (doorEnds · s)).map (rec_ · s)).drop off) (off + ·), s)) s

/-- The pending DOOR.SET of a door. -/
def doorPending (d : Nat) (s : State) : List Tlv :=
  match pendOf 0x0702 d s with
  | some p => match p.change with
    | .door _ en flap time =>
      [pending_ p.frame ((en.map fun e => setU8 0 (b2n e)).toList ++ (flap.map (setU32 1)).toList ++ (time.map (setU32 2)).toList)]
    | _ => []
  | none => []

def doorGet (r : Request) (s : State) : Reply × State := doorReadout 0x0701 doorPending doorRecord r s
/-- DOOR.GET (R171). -/
def execDoorGet (r : Request) (s : State) : Host.Outcome State Fault Refusal :=
  .next (finish 0x0701 r (doorGet r (begin_ r.after s)))

def doorGetStats (r : Request) (s : State) : Reply × State := doorReadout 0x0705 (fun _ _ => []) statRecord r s
/-- DOOR.GET_STATS (R171). -/
def execDoorGetStats (r : Request) (s : State) : Host.Outcome State Fault Refusal :=
  .next (finish 0x0705 r (doorGetStats r (begin_ r.after s)))

/-- The request came through the die unit's own die door. -/
def throughDoor (r : Request) : Bool := match r.path with | .door _ _ => true | _ => false

/-- DOOR.SET (R171): all its settings take effect together at the tick of F. -/
def doorSet (r : Request) (s : State) : Reply × State :=
  command { code := 0x0702, params := [must tFrame, must tIndex, setting 0 1, setting 1 4, setting 2 4] } true r (fun b s =>
    let d := num tIndex b
    let en := set? 0 b
    let flap := set? 1 b
    let time := set? 2 b
    if en.any (1 < ·) then (refuse stBadParam, s)
    else if num tFrame b ≤ curFrame s || d ≥ doorLimit s || flap.any (fun v => v < 1 || 255 < v) || time.any (fun v => v < 1 || 3600 < v) then (refuse stRange, s)
    else if en == some 1 && (doorAt d s).dir == 0 then (refuse stState, s)
    else if isDie s && throughDoor r then (refuse stPermit, s)
    else defer 0x0702 d (num tFrame b) (.door d (en.map (· == 1)) flap time) s) s

def execDoorSet (r : Request) (s : State) : Host.Outcome State Fault Refusal :=
  .next (finish 0x0702 r (doorSet r (begin_ r.after s)))

/-- A DOOR.SET takes effect on one end of a door. -/
def applyDoorEnd (e : Nat) (en : Option Bool) (flap time : Option Nat) (s : State) : State :=
  let s := setDoor e (fun x => { x with flapLimit := flap.getD x.flapLimit, quarantineTime := time.getD x.quarantineTime, enabled := en.getD x.enabled }) s
  let x := doorAt e s
  if !x.enabled then
    if x.state == .off then s
    else
      let wasLive := live x
      let s := turnOff e s
      if wasLive then doorLoss e 0 none s else s
  else if x.state == .off || x.state == .miswired then trainIfFree e s
  else s

def applyDoor (d : Nat) (en : Option Bool) (flap time : Option Nat) (s : State) : State :=
  (doorEnds d s).foldl (fun s e => applyDoorEnd e en flap time s) s

/-- Retrain an end on command: a MISWIRED or training end begins anew (R140). -/
def retrainNow (e : Nat) (s : State) : State :=
  let x := doorAt e s
  if live x then retrain e s else if x.state == .off then s else train e s

/-- DOOR.RETRAIN (R141). -/
def doorRetrain (r : Request) (s : State) : Reply × State :=
  command { code := 0x0703, params := [must tIndex] } true r (fun b s =>
    let d := num tIndex b
    if d ≥ doorLimit s then (refuse stRange, s)
    else if (doorEnds d s).all fun e => (doorAt e s).state == .off then (refuse stState, s)
    else (okay [], (doorEnds d s).foldl (fun s e => retrainNow e s) s)) s

def execDoorRetrain (r : Request) (s : State) : Host.Outcome State Fault Refusal :=
  .next (finish 0x0703 r (doorRetrain r (begin_ r.after s)))

/-- DOOR.CLEAR_QUARANTINE (R141). -/
def doorClearQuarantine (r : Request) (s : State) : Reply × State :=
  command { code := 0x0704, params := [must tIndex] } true r (fun b s =>
    let d := num tIndex b
    if d ≥ doorLimit s then (refuse stRange, s)
    else if (doorEnds d s).all fun e => !(doorAt e s).quarantined then (refuse stState, s)
    else (okay [], (doorEnds d s).foldl (fun s e =>
      if (doorAt e s).quarantined then trainIfFree e (setDoor e (fun x => { x with quarantined := false }) s) else s) s)) s

def execDoorClearQuarantine (r : Request) (s : State) : Host.Outcome State Fault Refusal :=
  .next (finish 0x0704 r (doorClearQuarantine r (begin_ r.after s)))

end Sys2Proof.Machine
end

