-- ==== Sys2Proof/Machine/Power.lean ====
section
/-! DEFINITION. Supplies, block reset and what survives it (R355, R462 to R467), start-up (R461, R464, R465), uncorrectable
SRAM errors (R369) and the watchdog (R432), and the PWR opcodes (R463, R474). -/
namespace Sys2Proof.Machine

/-! ### Block reset (R466, R467) -/

/-- What a reset keeps of the recorder: the banks and the retention block (R355). What waits in the queue is lost, but for what its first entry's
write has left (R358). -/
def keptRecorder (e : Recorder) : Recorder :=
  { valid := e.valid, base := e.base, head := e.head, refFull := e.refFull, refBusy := e.refBusy, pcc := e.pcc, hours := e.hours
    hourCtr := e.hourCtr, slots := e.slots, torn := e.torn, firstRefusal := e.firstRefusal, corrupt := e.corrupt }

/-- What fuses keep of the boundary (R418, R467): nothing leaves ZEROISED (R416). -/
def keptFuses (x : Security) : Security :=
  { identity := x.identity, generation := x.generation, ownership := x.ownership, anchors := x.anchors, release := x.release
    owned := x.owned, minimum := x.minimum, chain := x.chain, boundary := if x.boundary == .zeroised then .zeroised else .selfTest }

/-- The outbound ring does not survive: the tail mark covers what was not released (R256, R257). -/
def resetErrors (e : Errors) : Errors :=
  { next := e.next, release := e.release, fetched := e.release
    tail := if e.next ≤ e.release + 1 then none else some ⟨min u16Max (e.next - 1 - e.release), 2, 1⟩ }

/-- Mirror logs after a reset: what the partition holds (R459). -/
def keptLogs (m : Mem) : List (Nat × Log) :=
  m.logs.map fun (k, l) =>
    let kept := l.entries.take l.written
    let top := if l.entries.length ≤ l.written then l.highest else (kept.getLast?.map fun e => rd e 0 8).getD 0
    (k, { entries := kept, highest := top, refused := l.refused, written := kept.length })

/-- Block reset (R466): only what Table PWR-19 keeps remains. Firmware slots are kept for a warm reset; whether the reset
is warm is judged on leaving it. The store's frozen history and images wait for the same moment (R289, R320). -/
def blockReset (cause : Nat) (s : State) : State :=
  let s := recorderReset s
  let z := State.resetFor s.build
  let s' := { z with
    cfg := s.cfg
    pwr := { z.pwr with supplyOk := s.pwr.supplyOk, pcycleIn := s.pwr.pcycleIn, hoursIn := s.pwr.hoursIn, cause := cause
                        hoursOut := s.pwr.hoursOut, cycles := s.pwr.cycles, sramError := s.pwr.sramError, watchdogFrame := s.pwr.watchdogFrame }
    err := resetErrors s.err
    evr := keptRecorder s.evr
    mem := { z.mem with repairs := s.mem.repairs, ignoredRepairs := s.mem.ignoredRepairs, storeRdy := s.mem.storeRdy, ssRdy := s.mem.ssRdy
                        ssCap := s.mem.ssCap, logs := keptLogs s.mem, fw := s.mem.fw }
    sec := { keptFuses s.sec with slots := s.sec.slots, booted := s.sec.booted, trial := s.sec.trial }
    trc := if s.build.hub && s.trc.stopped then { z.trc with stopped := true, history := s.trc.history, histSize := s.trc.histSize } else z.trc
    sht := { z.sht with images := s.sht.images, area := s.sht.area }
    free := s.free
    pending := s.pending }
  State.emits ((List.range s.net.doors.length).map fun d => .laneEnable d false) s'

/-- The supplies fail (R462): only fuses and the surroundings keep anything. -/
def powerLost (s : State) : State :=
  let z := State.resetFor s.build
  { z with
    pwr := { z.pwr with phase := .off, supplyOk := false, hoursOut := s.pwr.hoursOut }
    mem := { z.mem with logs := keptLogs s.mem, fw := s.mem.fw }
    sec := keptFuses s.sec
    trc := if s.build.hub && s.trc.stopped then { z.trc with stopped := true, history := s.trc.history, histSize := s.trc.histSize } else z.trc
    sht := { z.sht with images := s.sht.images, area := s.sht.area }
    free := s.free
    pending := s.pending }

/-- SUPPLY_VALID (R355): a power-up reset begins, with the power-cycle count and the hours that the port presents. -/
def execSupplyValid (pcycle hours : Nat) (s : State) : Host.Outcome State Fault Refusal :=
  let s := s.fresh
  if s.pwr.phase != .off then .next s else
  .next { s with pwr := { s.pwr with phase := .inReset, supplyOk := true, pcycleIn := pcycle % 2 ^ 32, hoursIn := hours % 2 ^ 32, cause := 0 } }

/-- SUPPLY_LOSS (R462). -/
def execSupplyLoss (s : State) : Host.Outcome State Fault Refusal :=
  let s := s.fresh
  if s.pwr.phase == .off then .next s else .next (powerLost s)

/-- EXTERNAL_BLOCK_RESET (R466): PC_RST_N; a refused configuration is read again after it (R461). -/
def execExternalBlockReset (s : State) : Host.Outcome State Fault Refusal :=
  let s := s.fresh
  if s.pwr.phase == .off then .next s else .next (blockReset 1 s)

/-- Recorder banks (Tables SRM-1 and SRM-2). -/
def recorderBank (hub : Bool) (b : Nat) : Bool := if hub then b == 215 else b == 28 || b == 29

/-- The recorder slot at a byte address of a recorder bank. -/
def recorderSlot (hub : Bool) (bank address : Nat) : Nat := ((if hub then 0 else bank - 28) * 131072 + address) / 64

/-- SRAM_UNCORRECTABLE_ERROR (R369): a recorder bank's entry becomes CORRUPT; any other bank resets the block. -/
def execSramUncorrectableError (bank address : Nat) (s : State) : Host.Outcome State Fault Refusal :=
  let s := s.fresh
  if !outOfReset s || bank ≥ s.mem.banks.length then .next s
  else if recorderBank s.build.hub bank then
    .next { s with evr := { s.evr with corrupt := dedup (s.evr.corrupt ++ [recorderSlot s.build.hub bank address]) } }
  else .next (blockReset 3 { s with pwr := { s.pwr with sramError := some (bank, address) } })

/-- WATCHDOG_EXPIRY (R432): 16 ticks without service. -/
def execWatchdogExpiry (s : State) : Host.Outcome State Fault Refusal :=
  let s := s.fresh
  if !working s then .next s else .next (blockReset 2 { s with pwr := { s.pwr with watchdogFrame := some (curFrame s - 16) } })

/-! ### The start-up configuration (R461, Table PWR-15) -/

/-- The block refuses a configuration. A die unit ignores bytes 8 to 235, reserved bits among them. -/
def cfgRefused (c : Bytes) (hub : Bool) : Bool :=
  let unit := rd c 4 4
  c.length != 256 || rd c 0 2 != 1 || rd c 252 4 != crc32c (c.take 252) ||
    byteAt c 2 != 0 || bits (byteAt c 3) 2 6 != 0 || !allZero (slice c 236 16) || !unitFormOk unit ||
    (hub && ((slice c 40 100).any fun b => bits b.toNat 5 3 != 0)) ||
    bit unit 31 != hub || (hub && bits unit 14 2 == 0) || (!hub && reservedSlot (slotOf (bits unit 0 18)))

def readCfg (c : Bytes) : StartCfg :=
  { flags := byteAt c 3, unitId := BitVec.ofNat 32 (rd c 4 4), ipv6 := slice c 8 16, udpPort := if rd c 24 2 == 0 then 5707 else rd c 24 2
    mac := slice c 26 6, gateway := slice c 32 6, vlan := rd c 38 2, doorMap := slice c 40 100, cageMap := slice c 140 96 }

/-! ### Leaving reset (R464) -/

/-- Warm or cold (R355): a cold reset begins the recorder and the record numbers anew from the power-cycle count (R256). -/
def judgeReset (env : StartEnv) (s : State) : State :=
  let warm := s.evr.valid && s.evr.pcc == s.pwr.pcycleIn
  let s := { s with pwr := { s.pwr with warm := warm } }
  if warm then s else
  let first := s.pwr.pcycleIn % 2 ^ 24 * 2 ^ 40 + 1
  let word (i : Nat) : Nat := (env.repairs.getD i 0).toNat
  let fuses := (List.range (2 * s.mem.banks.length)).flatMap fun i => [(2 * i, bits (word i) 0 10), (2 * i + 1, bits (word i) 16 10)]
  let used := fuses.filter fun p => bit p.2 9
  { s with
    evr := { valid := true, base := first, head := first, pcc := s.pwr.pcycleIn, hours := s.pwr.hoursIn }
    err := { s.err with next := first, release := first - 1, fetched := first - 1, tail := none }
    mem := { s.mem with repairs := (used.filter fun p => p.2 % 512 ≤ 287).map fun p => 1024 * p.1 + p.2
                        ignoredRepairs := (used.filter fun p => p.2 % 512 > 287).length }
    sec := { s.sec with slots := [{}, {}], booted := 0, trial := none } }

/-- The unit's doors under its configuration (R146, R171): an assigned door is enabled. -/
def assignDoors (env : StartEnv) (s : State) : State :=
  let door (e : Nat) : Door :=
    let (dir, mode) := doorRole e s
    let lat := env.doorLat.getD e (0, 0)
    { dir := dir, mode := mode, enabled := dir != 0, fresh := true, txLat := lat.1 % 4096, rxLat := lat.2 % 4096 }
  { s with net := { s.net with doors := (List.range s.net.doors.length).map door } }

/-- A tile's trace source has the region of the tile-group port that serves the tile (R273, R447). -/
def tileRegions (ports : List Nat) (s : State) : State :=
  if s.build.hub then s else
  let region (i : Nat) : Nat := match ports[i]? with
    | some p => let q := portAt p s; if q.state == 1 && q.kind == 0 then q.region else 255
    | none => 255
  (List.range 40).foldl (fun s i => setSrc i (fun x => { x with region := region i }) s) s

/-- Declarations, sensor map, fuses and libraries are read (R82, R101, R103, R223, R273, R297, R305). -/
def readPorts (env : StartEnv) (s : State) : State :=
  let fault := mapFault env.sensorMap
  let chans := s.win.chans.zipIdx.map fun p => { p.1 with trim := factoryTrim env.trim p.2 }
  let s := { s with win := { s.win with chans := chans, map := if fault.isNone then some env.sensorMap else none, mapStatus := fault.getD 0, untrimmed := true } }
  let s := { s with prb := { s.prb with lib := env.kernelLib, kernels := env.kernelCount } }
  let src (i : Nat) : Source :=
    if !s.build.hub && i < 40 then { kind := 1, entity := i, region := 255 }
    else let w := (env.traceDecl.getD i 0).toNat; { kind := bits w 0 8, region := bits w 8 8, entity := bits w 16 12 }
  let s := { s with trc := { s.trc with srcs := (List.range 64).map src }, wpt := { s.wpt with buses := env.watchDecl.take 16 } }
  let d := env.stopDecl
  let s := if s.build.hub then s else setSht (fun x => { x with
    clockKHz := d.clockKHz
    regions := (d.regions.take 128).map fun r => { index := r.1, latency := r.2, refused := decide (r.2 > 8), stopped := env.stoppedRegions.contains r.1 }
    channels := (d.channels.take 64).map fun c => { region := c.1, link := c.2.1, capacity := c.2.2 }
    state := if d.regions.any fun r => env.stoppedRegions.contains r.1 then shHeld else shIdle }) s
  tileRegions env.tilePort (readDecls env.decls s)

/-- RESET is the first entry after every block reset (R358), and the records of what caused it follow (R369, R432). -/
def resetEntries (oldHead : Nat) (s : State) : State :=
  let s := recoverTorn s
  let s := ownEntry 0x0F10 0 0 (toLe 1 s.pwr.cause ++ zeros 3 ++ toLe 8 (if s.pwr.cause == 0 then 0 else oldHead)) s
  let s := match s.pwr.sramError with
    | some (b, a) => raiseOwn 0x18 3 0x8005 0 0 (toLe 4 ((if s.build.hub then 262144 else 131072) * b + a) ++ toLe 1 1) s
    | none => s
  let s := match s.pwr.watchdogFrame with
    | some f => raiseOwn 0x19 3 0x8005 0 0 (toLe 8 f) s
    | none => s
  { s with pwr := { s.pwr with sramError := none, watchdogFrame := none } }

/-- LEAVE_RESET (R461, R464): a refused configuration raises PC_CFG_FAULT and keeps the block in reset. -/
def leaveReset (env : StartEnv) (s : State) : State :=
  if cfgRefused env.config s.build.hub then { s with pwr := { s.pwr with cfgFault := true } } else
  let s := { s with cfg := readCfg env.config, pwr := { s.pwr with phase := .starting, leftAt := 0 } }
  let s := { s with time := { s.time with running := true, lock := if isPrimary s then 3 else 0
                                          servo := { s.time.servo with stability := if isRoot s then 10 else 50 } }, err := { s.err with fleet := bit s.cfg.flags 0 } }
  let oldHead := s.evr.head
  let s := judgeReset env s
  let s := if env.stacksPowered then s else
    { s with trc := { s.trc with stopped := false, history := [], histSize := 720 }, sht := { s.sht with images := [], area := 16 } }
  let s := resetEntries oldHead s
  readPorts env (assignDoors env s)

def execLeaveReset (env : StartEnv) (s : State) : Host.Outcome State Fault Refusal :=
  let s := s.fresh
  if s.pwr.phase != .inReset || !s.pwr.supplyOk || s.pwr.cfgFault then .next s else .next (leaveReset env s)

/-- READY (R464, R465): PC_READY rises, and the doors train. -/
def execReady (s : State) : Host.Outcome State Fault Refusal :=
  let s := s.fresh
  if s.pwr.phase != .starting then .next s else
  let s := { s with pwr := { s.pwr with phase := .working, ready := true, readyAt := s.time.now } }
  .next ((List.range s.net.doors.length).foldl (fun s d => trainIfFree d s) s)

/-! ### PWR opcodes (Table PWR-20) -/

def pwrPending (s : State) : List Tlv :=
  match pendOf 0x1702 0 s with
  | some p => match p.change with
    | .pwr g l => [pending_ p.frame [setU8 0 (b2n g), setU8 1 (b2n l)]]
    | _ => []
  | none => []

/-- The lanes of a door are enabled: its door is not OFF, or lane park holds them (R463). -/
def lanesOn (s : State) : List Nat :=
  (s.net.doors.zipIdx.filter fun p => p.1.state != .off || s.pwr.lanePark).map (·.2)

/-- PWR.GET (R474). -/
def pwrGet (r : Request) (s : State) : Reply × State :=
  command { code := 0x1701, auth := authRead, params := [] } true r (fun _ s =>
    let p := s.pwr
    let hub := if s.build.hub then [stU8 10 (b2n (storeUsable s)), stU8 11 (b2n (storageUsable s)), stU32 12 s.mem.ssCap,
      stBytes 13 (s.mem.failures.flatMap fun f => toLe 4 f.1 ++ toLe 4 f.2)] else []
    (okay ([setU8 0 (b2n p.idleGating), setU8 1 (b2n p.lanePark)] ++ pwrPending s ++
      [stU8 0 (b2n p.supplyOk), stU32 1 p.cause, stU8 2 (b2n p.warm), stBytes 3 (fullStamp p.leftAt), stBytes 4 (fullStamp p.readyAt),
       stU32 5 s.evr.pcc, stU32 6 s.evr.hours, stBytes 7 (toMask s.net.doors.length (lanesOn s))] ++ hub), s)) s
def execPwrGet (r : Request) (s : State) : Host.Outcome State Fault Refusal :=
  .next (finish 0x1701 r (pwrGet r (begin_ r.after s)))

/-- PWR.SET (R463): both settings at the tick of F. -/
def pwrSet (r : Request) (s : State) : Reply × State :=
  command { code := 0x1702, params := [must tFrame, setting 0 1, setting 1 1] } true r (fun b s =>
    let on (k : Nat) (cur : Bool) : Bool := match set? k b with | some v => v == 1 | none => cur
    if ((set? 0 b).any (1 < ·)) || ((set? 1 b).any (1 < ·)) then (refuse stBadParam, s)
    else defer 0x1702 0 (num tFrame b) (.pwr (on 0 s.pwr.idleGating) (on 1 s.pwr.lanePark)) s) s
def execPwrSet (r : Request) (s : State) : Host.Outcome State Fault Refusal :=
  .next (finish 0x1702 r (pwrSet r (begin_ r.after s)))

/-- The settings of R463 take effect: lanes of doors in OFF follow lane park. -/
def applyPwr (gating park : Bool) (s : State) : State :=
  let s := { s with pwr := { s.pwr with idleGating := gating, lanePark := park } }
  State.emits ((s.net.doors.zipIdx.filter fun p => p.1.state == .off).map fun p => .laneEnable p.2 park) s

end Sys2Proof.Machine
end

