-- ==== Sys2Proof/Machine/Panel.lean ====
section
/-! DEFINITION. The service panel (R468 to R474): accepted inputs, service windows, the Hold button, and the PNL opcodes. -/
namespace Sys2Proof.Machine

def cageAt (c : Nat) (s : State) : Cage := s.pnl.cages.getD c {}

/-- Saturating error history of Table PNL-2. -/
def histBytes (g : Cage) : Bytes :=
  let h (k : Nat) : Nat := g.hist.getD k 0
  toLe 2 (min u16Max (h 0)) ++ toLe 1 (min 255 (h 1)) ++ toLe 1 (min 255 (h 2)) ++ toLe 4 (min u32Max (h 3)) ++ toLe 4 (min u32Max (h 4))

/-- A window opens at a stamp (R470): losses of the debounce time that fall in it are attributed after all. -/
def openWindow (c stamp : Nat) (s : State) : State :=
  let g := cageAt c s
  if g.windowOpen then setCage c (fun g => { g with closeAt := none }) s else
  let within := g.recent.filter fun l => stamp ≤ l.1
  let s := setCage c (fun g => { g with windowOpen := true, closeAt := none, windows := g.windows ++ [(stamp, none)]
                                        attributed := g.attributed + within.length, unattributed := g.unattributed - within.length
                                        recent := g.recent.filter fun l => l.1 < stamp }) s
  within.foldl (fun s l => panelEntry 4 c (doorOfCage c s) (4 * b2n l.2.2.isSome) l.1 (toLe 8 (l.2.2.getD 0) ++ toLe 1 l.2.1) s) s

/-- Once the cage is present and not touched, its window closes 30 s after the later return (R470). -/
def settleWindow (c : Nat) (s : State) : State :=
  setCage c (fun g => if g.windowOpen && g.present && !g.touched
    then { g with closeAt := some (max g.releaseAt g.returnAt + 30 * secUnit) } else g) s

/-- An accepted change of presence (R470, R471): its entry carries the error history, which restarts. -/
def presenceChange (c : Nat) (level : Bool) (stamp : Nat) (s : State) : State :=
  let s := panelEntry (if level then 0 else 1) c (doorOfCage c s) 0 stamp (histBytes (cageAt c s)) s
  let s := setCage c (fun g => { g with present := level, hist := [0, 0, 0, 0, 0] }) s
  if level then settleWindow c (setCage c (fun g => { g with returnAt := stamp }) s) else openWindow c stamp s

/-- An accepted touch or release. -/
def touchChange (c : Nat) (level : Bool) (stamp : Nat) (s : State) : State :=
  let s := panelEntry (if level then 2 else 3) c (doorOfCage c s) 0 stamp [] s
  let s := setCage c (fun g => { g with touched := level }) s
  if level then openWindow c stamp s else settleWindow c (setCage c (fun g => { g with releaseAt := stamp }) s)

/-- Microseconds for which an input must hold its level (R468). -/
def debounceTime (i : PanelInput) : Nat := match i with | .presence _ => 10000 | _ => 50000

/-- A change too short to be accepted is counted for its input (R468). -/
def glitch (i : PanelInput) (s : State) : State :=
  match i with
  | .presence c => setCage c (fun g => { g with glitches := g.glitches + 1 }) s
  | .touch c => setCage c (fun g => { g with glitches := g.glitches + 1 }) s
  | .locate => { s with pnl := { s.pnl with locateGlitches := s.pnl.locateGlitches + 1 } }
  | .hold => { s with pnl := { s.pnl with holdGlitches := s.pnl.holdGlitches + 1 } }

/-- PANEL_INPUT_ACCEPTED (R468): `debounce` is the time in microseconds for which the level has held since the first
sample of its run. -/
def execPanelInputAccepted (input : PanelInput) (level : Bool) (debounce : Nat) (s : State) : Host.Outcome State Fault Refusal :=
  let s := s.fresh
  if !working s || !s.build.hub then .next s
  else if debounce < debounceTime input then .next (glitch input s) else
  let stamp := s.time.now - debounce * 1000 * nsUnit
  match input with
  | .presence c => .next (if c ≥ s.pnl.cages.length || (cageAt c s).present == level then s else presenceChange c level stamp s)
  | .touch c => .next (if c ≥ s.pnl.cages.length || (cageAt c s).touched == level then s else touchChange c level stamp s)
  | .locate =>
    if !level then .next s else
    let s := { s with pnl := { s.pnl with lamp := !s.pnl.lamp } }
    .next (panelEntry 5 0xFF 0xFF (b2n s.pnl.lamp) stamp [] s)
  | .hold => .next { s with pnl := { s.pnl with holdSince := if level then some stamp else none, holdCounted := false } }

/-- SERVICE_WINDOW_CLOSE (R470). -/
def execServiceWindowClose (cage : Nat) (s : State) : Host.Outcome State Fault Refusal :=
  let s := s.fresh
  let g := cageAt cage s
  match g.closeAt with
  | none => .next s
  | some t =>
    if !working s || !g.windowOpen then .next s else
    let last (ws : List (Nat × Option Nat)) : List (Nat × Option Nat) := modifyAt (ws.length - 1) (fun w => (w.1, some t)) ws
    .next (setCage cage (fun g => { g with windowOpen := false, closeAt := none, windows := last g.windows }) (advanceTo t s))

/-- HOLD_PRESS (R473): it counts once, 3 s after its accepted press. On a tray hub it is a tray trigger: while a stop
is pending or the history is frozen it is logged and changes nothing else (R294). -/
def execHoldPress (s : State) : Host.Outcome State Fault Refusal :=
  let s := s.fresh
  match s.pnl.holdSince with
  | none => .next s
  | some t =>
    if !working s || s.pnl.holdCounted then .next s else
    let s := advanceTo (t + 3 * secUnit) { s with pnl := { s.pnl with holdCounted := true } }
    let takes := isTray s && s.trc.stopAt.isNone && !s.trc.stopped
    let s := panelEntry 6 0xFF 0xFF (2 * b2n takes) s.time.now [] s
    .next (if isTray s then trayTrigger 0 s else s)

/-! ### PNL opcodes (Table PWR-20) -/

def cageRecord (c : Nat) (s : State) : Bytes :=
  let g := cageAt c s
  toLe 1 c ++ toLe 1 (doorOfCage c s) ++ toLe 1 (b2n g.present + 2 * b2n g.touched + 4 * b2n g.windowOpen + 8 * b2n g.closeAt.isSome) ++ toLe 1 g.led ++
    fullStamp (g.closeAt.getD 0) ++ toLe 4 g.attributed ++ toLe 4 g.unattributed ++ toLe 4 g.glitches

/-- PNL.GET (R474). -/
def pnlGet (r : Request) (s : State) : Reply × State :=
  command { code := 0x1801, auth := authRead, params := [may tOffset] } s.build.hub r (fun b s =>
    let off := (num? tOffset b).getD 0
    (readout r.version [stU8 0 (b2n s.pnl.lamp), stU8 1 (b2n s.pnl.holdSince.isSome + 2 * b2n s.pnl.holdCounted),
      stU32 2 s.pnl.locateGlitches, stU32 3 s.pnl.holdGlitches]
      (((List.range s.pnl.cages.length).map (cageRecord · s)).drop off) (off + ·), s)) s
def execPnlGet (r : Request) (s : State) : Host.Outcome State Fault Refusal :=
  .next (finish 0x1801 r (pnlGet r (begin_ r.after s)))

/-- PNL.SET_LED (R472): the mode of the cages in MASK, and the lamp, at once. -/
def pnlSetLed (r : Request) (s : State) : Reply × State :=
  command { code := 0x1802, params := [may tMask, setting 0 4, setting 1 1] } s.build.hub r (fun b s =>
    let cages := maskBits ((val? tMask b).getD [])
    if ((set? 0 b).any (4 < ·)) || ((set? 1 b).any (1 < ·)) || (val? tMask b).isSome != (set? 0 b).isSome then (refuse stBadParam, s)
    else if cages.any (s.pnl.cages.length ≤ ·) then (refuse stRange, s)
    else
      let s := match set? 0 b with
        | some m => cages.foldl (fun s c => setCage c (fun g => { g with led := m }) s) s
        | none => s
      (okay [], match set? 1 b with
        | some v => { s with pnl := { s.pnl with lamp := v == 1 } }
        | none => s)) s
def execPnlSetLed (r : Request) (s : State) : Host.Outcome State Fault Refusal :=
  .next (finish 0x1802 r (pnlSetLed r (begin_ r.after s)))

/-- PNL.GET_LOG (R471): entries from a sequence number. -/
def pnlGetLog (r : Request) (s : State) : Reply × State :=
  command { code := 0x1803, auth := authRead, params := [must tSeq] } s.build.hub r (fun b s =>
    let q := num tSeq b
    let oldest := s.pnl.logSeq - s.pnl.log.length
    if q < oldest || q ≥ s.pnl.logSeq then (refuse stRange, s)
    else (readout r.version [] (s.pnl.log.drop (q - oldest)) (q + ·), s)) s
def execPnlGetLog (r : Request) (s : State) : Host.Outcome State Fault Refusal :=
  .next (finish 0x1803 r (pnlGetLog r (begin_ r.after s)))

/-- A blink at `hz` Hz, lit in the first half of its period from the start of every second (R472). -/
def blink (hz : Nat) (s : State) : Bool := nsOf s.time.now % (1000000000 / hz) < 500000000 / hz

/-- PN_LED of a cage (R472). -/
def ledLit (c : Nat) (s : State) : Bool :=
  if !working s then false else
  let d := doorAt (doorOfCage c s) s
  match (cageAt c s).led with
  | 0 => false
  | 1 => true
  | 2 => blink 1 s
  | 3 => blink 4 s
  | _ => if doorOfCage c s ≥ 100 then false
         else if d.quarantined || d.state == .miswired then true
         else d.state == .degraded && blink 1 s

end Sys2Proof.Machine
end

