-- ==== Sys2Proof/Machine/Watch.lean ====
section
/-! DEFINITION. Watchpoints and data capture (R297 to R304). -/
namespace Sys2Proof.Machine

def wptAt (w : Nat) (s : State) : WatchPoint := s.wpt.points.getD w {}
def setWpt (w : Nat) (f : WatchPoint → WatchPoint) (s : State) : State := { s with wpt := { s.wpt with points := modifyAt w f s.wpt.points } }

/-- Actions of a watchpoint (R298). -/
def actCount : Nat := 0
def actEvent : Nat := 1
def actTrigger : Nat := 2
def actShutter : Nat := 3
def actData : Nat := 4

/-- Kind of a bus: 0 absent (R297). -/
def busKind (b : Nat) (s : State) : Nat := bits (s.wpt.buses.getD b 0).toNat 12 4

/-- An access hits a watchpoint (R298). -/
def hits (a : Access) (p : WatchPoint) : Bool :=
  p.on && bit p.mask a.bus && bit p.dir (b2n a.write) && decide (p.base ≤ a.granule + a.len - 1) && decide (a.granule ≤ p.limit)

/-- Direction code: 1 read, 2 write. -/
def dirCode (a : Access) : Nat := if a.write then 2 else 1

/-- The EVENT action: one entry for the first hit of a frame (R299). -/
def watchEvent (w : Nat) (a : Access) (s : State) : State :=
  let p := wptAt w s
  ownEntry 0x0F40 0 0 (toLe 1 w ++ toLe 1 (a.bus + 16 * dirCode a) ++ toLe 6 (a.granule * 64) ++ toLe 4 (min u32Max p.prevHits)) s

/-- Capture is authorised until its expiry frame (R301). -/
def captureOn (s : State) : Bool := match s.wpt.auth with | some (_, f) => decide (curFrame s < f) | none => false

/-- Head of a capture entry (R302): watchpoint, bus, direction, granule, short stamp, frame, job tag. -/
def captureHead (w : Nat) (a : Access) (s : State) : Bytes :=
  toLe 1 w ++ toLe 1 (a.bus + 16 * dirCode a) ++ toLe 6 (a.granule * 64) ++ shortStamp s.time.now ++ toLe 8 (curFrame s) ++ toLe 4 s.frame.tag.toNat

/-- Entries written and entries whose data is still to come. -/
def captureUsed (s : State) : Nat := s.wpt.store.length + sumN (s.wpt.waiting.map (·.2.length))

/-- Entries of the capture store (R302). -/
def captureSize : Nat := 64

/-- Write an entry. The data that the bus presents is the first granule's (R451); of another granule it is not given,
and the entry holds a free value. -/
def writeCapture (head : Bytes) (first : Bool) (data : Bytes) (s : State) : State :=
  let (free, s) := drawBytes 64 s
  let e := (if first then fit 64 data else free) ++ fit 64 head
  let store := s.wpt.store ++ [e]
  { s with wpt := { s.wpt with store := store, full := s.wpt.full || decide (store.length ≥ captureSize) } }

/-- The DATA action, beside `held` entries of the same access. A read waits for its data: its head joins the access's list. -/
def watchData (held w : Nat) (a : Access) (s : State) : List (Bytes × Bool) × State :=
  let p := wptAt w s
  let first := decide (p.base ≤ a.granule)
  if !captureOn s then ([], s)
  else if held + captureUsed s ≥ captureSize then ([], { s with wpt := { s.wpt with refused := s.wpt.refused + 1 } })
  else match a.data with
    | some d => if a.write then ([], writeCapture (captureHead w a s) first d s) else ([(captureHead w a s, first)], s)
    | none => ([(captureHead w a s, first)], s)

/-- COUNT, EVENT and DATA of one hit, and the hit itself. -/
def watchHit (a : Access) (acc : List (Bytes × Bool) × State) (w : Nat) : List (Bytes × Bool) × State :=
  let (heads, s) := acc
  let p := wptAt w s
  let s := if bit p.acts actCount then addCtr (ctrWatch w) 1 s else s
  let s := if bit p.acts actEvent && p.hits == 0 then watchEvent w a s else s
  let s := setWpt w (fun p => { p with hits := p.hits + 1 }) s
  if !bit p.acts actData then (heads, s) else
  let (more, s) := watchData heads.length w a s
  (heads ++ more, s)

/-- The TRIGGER actions of an access (R290, R299): one trigger of the lowest watchpoint, all of them spent. -/
def watchTrigger (ws : List Nat) (s : State) : State :=
  match ws.filter fun w => bit (wptAt w s).acts actTrigger && !(wptAt w s).trigSpent with
  | [] => s
  | w :: r => takeTrigger trgWatch w ((w :: r).foldl (fun s w => setWpt w (fun p => { p with trigSpent := true }) s) s)

/-- The SHUTTER actions of an access (R299): one request; a refusal is counted for each watchpoint that made it. -/
def watchShutter (ws : List Nat) (s : State) : State :=
  match ws.filter fun w => bit (wptAt w s).acts actShutter && !(wptAt w s).shutSpent with
  | [] => s
  | w :: r =>
    let (no, s) := immediateStop causeWatch 0 s
    (w :: r).foldl (fun s w => setWpt w (fun p => { p with shutSpent := true, refused := p.refused + b2n no.isSome }) s) s

/-- WATCHPOINT_ACCESS (R297 to R299). -/
def execWatchpointAccess (after : Nat) (acc : Access) (s : State) : Host.Outcome State Fault Refusal :=
  let s := begin_ after s
  if !working s || s.build.hub || busKind acc.bus s == 0 then .next s else
  let ws := (List.range 32).filter fun w => hits acc (wptAt w s)
  let (heads, s) := ws.foldl (watchHit acc) ([], s)
  let s := if acc.write then s else { s with wpt := { s.wpt with waiting := s.wpt.waiting ++ [(acc.bus, heads)] } }
  .next (watchShutter ws (watchTrigger ws s))

/-- WATCHED_READ_DATA (R302, R451): the data of the oldest read of the bus. -/
def execWatchedReadData (bus : Nat) (data : Bytes) (s : State) : Host.Outcome State Fault Refusal :=
  let s := s.fresh
  if !working s then .next s else
  match findIdx (fun (p : Nat × List (Bytes × Bool)) => p.1 == bus) s.wpt.waiting with
  | none => .next s
  | some i =>
    let heads := ((s.wpt.waiting[i]?).map (·.2)).getD []
    let s := { s with wpt := { s.wpt with waiting := s.wpt.waiting.eraseIdx i } }
    .next (heads.foldl (fun s h => writeCapture h.1 h.2 data s) s)

/-- Capture ends (R301): the store is zeroed and every DATA action is cleared. CAPTURE_FULL stays until WPT.READ_CAPTURE clears it
(Table TRC-10). -/
def endCapture (s : State) : State :=
  let clear (p : WatchPoint) : WatchPoint := { p with acts := p.acts % 16 }
  { s with wpt := { s.wpt with auth := none, store := [], points := s.wpt.points.map clear
                               waiting := s.wpt.waiting.map fun p => (p.1, []) } }

/-- CAPTURE_EXPIRY (R301): the tick of the expiry frame. -/
def execCaptureExpiry (s : State) : Host.Outcome State Fault Refusal :=
  let s := s.fresh
  match s.wpt.auth with
  | some (_, f) => if curFrame s < f then .next s else .next (endCapture s)
  | none => .next s

/-! ### Commands (Table TRC-11) -/

/-- The settings of the named watchpoints: element `k` of each SETTING is that of the `k`th INDEX. -/
def wptGiven (b : List Tlv) (s : State) : List (Nat × WatchPoint) :=
  let elem (row n k : Nat) : Option Nat := (val? (tSetting row) b).map fun v => rd v (n * k) n
  (nums tIndex b).zipIdx.map fun (w, k) =>
    let p := wptAt w s
    (w, { p with on := ((elem 0 1 k).map (· == 1)).getD p.on, mask := (elem 1 2 k).getD p.mask, base := (elem 2 8 k).getD p.base
                 limit := (elem 3 8 k).getD p.limit, dir := (elem 4 1 k).getD p.dir, acts := (elem 5 1 k).getD p.acts })

/-- R300: a setting that is refused with BAD_PARAM. -/
def wptBad (s : State) (p : WatchPoint) : Bool :=
  p.base > p.limit || p.mask == 0 || (List.range 16).any (fun b => bit p.mask b && busKind b s == 0) || p.dir > 3 || p.acts > 31 ||
  (p.on && p.dir == 0) || (bit p.acts actData && !captureOn s)

/-- The settings of watchpoints as SETTINGs, rows 0 to 5, behind their INDEXes' order. -/
def wptSettings (ps : List (Nat × WatchPoint)) : List Tlv :=
  let col (f : WatchPoint → Bytes) : Bytes := ps.flatMap fun p => f p.2
  [setBytes 0 (col fun p => toLe 1 (b2n p.on)), setBytes 1 (col fun p => toLe 2 p.mask), setBytes 2 (col fun p => toLe 8 p.base),
    setBytes 3 (col fun p => toLe 8 p.limit), setBytes 4 (col fun p => toLe 1 p.dir), setBytes 5 (col fun p => toLe 1 p.acts)]

/-- WPT.SET (R300). -/
def wptSet (r : Request) (s : State) : Reply × State :=
  command { code := 0x0F01, params := [must tFrame, many tIndex 32] ++ (List.range 6).map fun k => may (tSetting k) } (isDie s) r (fun b s =>
    let n := (nums tIndex b).length
    let width (k : Nat) : Nat := [1, 2, 8, 8, 1, 1].getD k 1
    let ps := wptGiven b s
    if (List.range 6).any fun k => match val? (tSetting k) b with | some v => v.length != n * width k | none => false then (refuse stBadLength, s)
    else if ((val? (tSetting 0) b).getD []).any (fun (v : Byte) => v.toNat > 1) || ps.any (fun p => wptBad s p.2) then (refuse stBadParam, s)
    else if ps.any (·.1 > 31) || num tFrame b ≤ curFrame s then (refuse stRange, s)
    else defer 0x0F01 0 (num tFrame b) (.wptSet ps) s) s
def execWptSet (r : Request) (s : State) : Host.Outcome State Fault Refusal := .next (finish 0x0F01 r (wptSet r (begin_ r.after s)))

/-- The new settings at the tick of F: the named watchpoints are armed. A DATA action whose authorisation has ended since is
cleared (R301). -/
def applyWatch (ps : List (Nat × WatchPoint)) (s : State) : State :=
  let acts (n : Nat) : Nat := if captureOn s then n else n % 16
  ps.foldl (fun s p => setWpt p.1 (fun o => { o with on := p.2.on, mask := p.2.mask, base := p.2.base, limit := p.2.limit, dir := p.2.dir
                                                     acts := acts p.2.acts, trigSpent := false, shutSpent := false }) s) s

/-- WPT.GET: settings with their pending change; buses; per watchpoint spent actions, hits of the running and the previous frame, hit
counter, refused Shutter requests; the expiry frame of capture, 0 for none, and the refused captures. -/
def wptGet (r : Request) (s : State) : Reply × State :=
  command { code := 0x0F02, auth := authRead, params := [may tIndex] } (isDie s) r (fun b s =>
    let from_ := num tIndex b
    let pend := (pendOf 0x0F01 0 s).toList.map fun p => match p.change with
      | .wptSet ps => pending_ p.frame (wptSettings ps ++ [setBytes 6 (ps.flatMap fun q => toLe 1 q.1)])
      | _ => pending_ p.frame []
    let item (w : Nat) : Bytes :=
      let p := wptAt w s
      toLe 1 w ++ toLe 1 (b2n p.on + 2 * b2n p.trigSpent + 4 * b2n p.shutSpent) ++ toLe 2 p.mask ++ toLe 1 p.dir ++ toLe 1 p.acts ++ zeros 2 ++
        toLe 8 p.base ++ toLe 8 p.limit ++ toLe 4 (min u32Max p.hits) ++ toLe 4 (min u32Max p.prevHits) ++ toLe 8 (tget {} (ctrWatch w) s.win.ctrs).live ++
        toLe 4 p.refused
    (readout r.version (pend ++ [stBytes 0 (s.wpt.buses.flatMap fun w => toLe 2 w.toNat), stU64 1 ((s.wpt.auth.map (·.2)).getD 0), stU32 2 s.wpt.refused])
      (((List.range 32).drop from_).map item) (from_ + ·), s)) s
def execWptGet (r : Request) (s : State) : Host.Outcome State Fault Refusal := .next (finish 0x0F02 r (wptGet r (begin_ r.after s)))

/-- WPT.ENABLE_DATA (R301, R367). -/
def wptEnableData (r : Request) (s : State) : Reply × State :=
  command { code := 0x0F03, auth := authCapture, params := [must tFrame] } (isDie s) r (fun b s =>
    let f := num tFrame b
    if !traceBanksOn s then (refuse stState, s)
    else if f ≤ curFrame s || f > curFrame s + 3600000 then (refuse stRange, s)
    else
      let s := match s.wpt.auth with
        | some (k, _) => if k == r.session then s else endCapture s
        | none => s
      (okay [], { s with wpt := { s.wpt with auth := some (r.session, f) } })) s
def execWptEnableData (r : Request) (s : State) : Host.Outcome State Fault Refusal := .next (finish 0x0F03 r (wptEnableData r (begin_ r.after s)))

/-- WPT.DISABLE_DATA (R301). -/
def wptDisableData (r : Request) (s : State) : Reply × State :=
  command { code := 0x0F04 } (isDie s) r (fun _ s => if s.wpt.auth.isNone then (refuse stState, s) else (okay [], endCapture s)) s
def execWptDisableData (r : Request) (s : State) : Host.Outcome State Fault Refusal := .next (finish 0x0F04 r (wptDisableData r (begin_ r.after s)))

/-- WPT.READ_CAPTURE (R302): to the authorising session; a FLAG of 1 clears the store. -/
def wptReadCapture (r : Request) (s : State) : Reply × State :=
  command { code := 0x0F05, auth := authRead, params := [may tOffset, may tFlag] } (isDie s) r (fun b s =>
    if (s.wpt.auth.map (·.1)) != some r.session then (refuse stPermit, s)
    else if flagBad b then (refuse stBadParam, s)
    else
      let from_ := num tOffset b
      let p := readout r.version [stU32 0 s.wpt.refused] (s.wpt.store.drop from_) (from_ + ·)
      (p, if flag b && p.status == stOk then { s with wpt := { s.wpt with store := [], full := false } } else s)) s
def execWptReadCapture (r : Request) (s : State) : Host.Outcome State Fault Refusal := .next (finish 0x0F05 r (wptReadCapture r (begin_ r.after s)))

end Sys2Proof.Machine
end

