-- ==== Sys2Proof/Machine/Packets.lean ====
section
/-! DEFINITION. Packets on their way in (R372 to R389): the order of checks, sequence and cache, the management port with
its fragments (R386, R454), command and reply messages (R387), the hold of 1 ms (R167), and the CMD opcodes (R397). -/
namespace Sys2Proof.Machine

/-! ### CMD opcodes (Table CMD-8) -/

/-- Refusal counts as an array: rows 1 to 10, three paths each. -/
def refusalBytes (s : State) : Bytes := (List.range 30).flatMap fun i => toLe 4 (tget 0 (i + 3) s.sec.refusals)

/-- CMD.GET (R397). -/
def cmdGet (r : Request) (s : State) : Reply × State :=
  command { code := 0x1601, auth := authRead, params := [may tOffset] } true r (fun b s =>
    let off := (num? tOffset b).getD 0
    let session (x : Session) : Bytes := toLe 2 x.id ++ toLe 2 x.cache.length ++ toLe 4 x.h ++ toLe 4 x.auth
    let hub := if s.build.hub then [stU32 4 s.net.tags.length, stU32 5 s.net.unknownTags] else []
    (readout r.version ([stU32 0 s.sec.waiting.length, stU32 1 s.queueHigh, stBytes 2 (refusalBytes s), stU32 3 s.sec.discardedReplies] ++ hub ++ [stU32 6 s.host.ignored])
      ((s.sec.sessions.map session).drop off) (off + ·), s)) s
def execCmdGet (r : Request) (s : State) : Host.Outcome State Fault Refusal :=
  .next (finish 0x1601 r (cmdGet r (begin_ r.after s)))

/-- CMD.ECHO (R397). -/
def cmdEcho (r : Request) (s : State) : Reply × State :=
  command { code := 0x1602, auth := authRead, params := [must tData] } true r (fun b s =>
    let d := (val? tData b).getD []
    (if d.length > 1984 then refuse stBadLength else okay [record d], s)) s
def execCmdEcho (r : Request) (s : State) : Host.Outcome State Fault Refusal :=
  .next (finish 0x1602 r (cmdEcho r (begin_ r.after s)))

/-! ### Opcodes (Table CMD-7) -/

def runFrame (lo : Nat) (r : Request) (s : State) : Option (Host.Outcome State Fault Refusal) :=
  match lo with
  | 1 => some (execFrameSet r s)
  | 2 => some (execFrameGet r s)
  | 3 => some (execFrameSetGroup r s)
  | 4 => some (execFrameGetStats r s)
  | 5 => some (execFrameGetPresence r s)
  | 6 => some (execFrameGetContribution r s)
  | _ => none

def runTime (lo : Nat) (r : Request) (s : State) : Option (Host.Outcome State Fault Refusal) :=
  match lo with
  | 1 => some (execTimeGet r s)
  | 2 => some (execTimeSet r s)
  | 3 => some (execTimeSetSource r s)
  | 4 => some (execTimeSetTod r s)
  | 5 => some (execTimeSetCal r s)
  | 6 => some (execTimeSetServo r s)
  | 7 => some (execTimeSetUtc r s)
  | 8 => some (execTimeStepRoot r s)
  | _ => none

def runWin (lo : Nat) (r : Request) (s : State) : Option (Host.Outcome State Fault Refusal) :=
  match lo with
  | 1 => some (execWinGet r s)
  | 2 => some (execWinSetEnable r s)
  | 3 => some (execWinGetStream r s)
  | _ => none

def runCtr (lo : Nat) (r : Request) (s : State) : Option (Host.Outcome State Fault Refusal) :=
  match lo with
  | 1 => some (execCtrRead r s)
  | 2 => some (execCtrClear r s)
  | 3 => some (execCtrGetMap r s)
  | _ => none

def runSen (lo : Nat) (r : Request) (s : State) : Option (Host.Outcome State Fault Refusal) :=
  match lo with
  | 1 => some (execSenRead r s)
  | 2 => some (execSenGet r s)
  | 3 => some (execSenStageTrim r s)
  | 4 => some (execSenActivateTrim r s)
  | _ => none

def runRed (lo : Nat) (r : Request) (s : State) : Option (Host.Outcome State Fault Refusal) :=
  match lo with
  | 1 => some (execRedStageCatalogue r s)
  | 2 => some (execRedActivateCatalogue r s)
  | 3 => some (execRedGetCatalogue r s)
  | 4 => some (execRedGetSummary r s)
  | 5 => some (execRedGetReturned r s)
  | 6 => some (execRedTest r s)
  | 7 => some (execRedGetCheck r s)
  | _ => none

def runDoor (lo : Nat) (r : Request) (s : State) : Option (Host.Outcome State Fault Refusal) :=
  match lo with
  | 1 => some (execDoorGet r s)
  | 2 => some (execDoorSet r s)
  | 3 => some (execDoorRetrain r s)
  | 4 => some (execDoorClearQuarantine r s)
  | 5 => some (execDoorGetStats r s)
  | _ => none

def runFea (lo : Nat) (r : Request) (s : State) : Option (Host.Outcome State Fault Refusal) :=
  match lo with
  | 1 => some (execFeaStageTable r s)
  | 2 => some (execFeaActivateTable r s)
  | 3 => some (execFeaGetTable r s)
  | 4 => some (execFeaGetVector r s)
  | _ => none

def runPln (lo : Nat) (r : Request) (s : State) : Option (Host.Outcome State Fault Refusal) :=
  match lo with
  | 1 => some (execPlnRead r s)
  | 2 => some (execPlnReset r s)
  | 3 => some (execPlnGetAlarms r s)
  | _ => none

def runGlen (lo : Nat) (r : Request) (s : State) : Option (Host.Outcome State Fault Refusal) :=
  match lo with
  | 1 => some (execGlenStagePage r s)
  | 2 => some (execGlenActivate r s)
  | 3 => some (execGlenDeactivate r s)
  | 4 => some (execGlenGet r s)
  | 5 => some (execGlenSetMode r s)
  | 6 => some (execGlenSetStraggler r s)
  | 7 => some (execGlenEval r s)
  | 8 => some (execGlenTestLink r s)
  | 9 => some (execGlenGetFindings r s)
  | 10 => some (execGlenGetHistory r s)
  | _ => none

def runProbe (lo : Nat) (r : Request) (s : State) : Option (Host.Outcome State Fault Refusal) :=
  match lo with
  | 1 => some (execProbeInstallPack r s)
  | 2 => some (execProbeActivatePack r s)
  | 3 => some (execProbePushPack r s)
  | 4 => some (execProbeEndPush r s)
  | 5 => some (execProbeGetPush r s)
  | 6 => some (execProbeSet r s)
  | 7 => some (execProbeGet r s)
  | 8 => some (execProbeGetCoverage r s)
  | 9 => some (execProbeClearCoverage r s)
  | 10 => some (execProbeDisableTile r s)
  | 11 => some (execProbeResumeTile r s)
  | 12 => some (execProbeRun r s)
  | _ => none

def runErr (lo : Nat) (r : Request) (s : State) : Option (Host.Outcome State Fault Refusal) :=
  match lo with
  | 1 => some (execErrSetRoute r s)
  | 2 => some (execErrFetch r s)
  | 3 => some (execErrGet r s)
  | 4 => some (execErrReadRing r s)
  | 5 => some (execErrInject r s)
  | 6 => some (execErrSetExport r s)
  | 7 => some (execErrGetSignatures r s)
  | _ => none

def runPsn (lo : Nat) (r : Request) (s : State) : Option (Host.Outcome State Fault Refusal) :=
  match lo with
  | 1 => some (execPsnGetBirths r s)
  | 2 => some (execPsnGetCounts r s)
  | _ => none

def runTrc (lo : Nat) (r : Request) (s : State) : Option (Host.Outcome State Fault Refusal) :=
  match lo with
  | 1 => some (execTrcSet r s)
  | 2 => some (execTrcGet r s)
  | 3 => some (execTrcTrigger r s)
  | 4 => some (execTrcArm r s)
  | 5 => some (execTrcGetTriggers r s)
  | 6 => some (execTrcRead r s)
  | 7 => some (execTrcReadHistory r s)
  | 8 => some (execTrcSetHistory r s)
  | 9 => some (execTrcGetStats r s)
  | _ => none

def runWpt (lo : Nat) (r : Request) (s : State) : Option (Host.Outcome State Fault Refusal) :=
  match lo with
  | 1 => some (execWptSet r s)
  | 2 => some (execWptGet r s)
  | 3 => some (execWptEnableData r s)
  | 4 => some (execWptDisableData r s)
  | 5 => some (execWptReadCapture r s)
  | _ => none

def runShutter (lo : Nat) (r : Request) (s : State) : Option (Host.Outcome State Fault Refusal) :=
  match lo with
  | 1 => some (execShutterSet r s)
  | 2 => some (execShutterStop r s)
  | 3 => some (execShutterArmTimed r s)
  | 4 => some (execShutterCancelTimed r s)
  | 5 => some (execShutterScan r s)
  | 6 => some (execShutterAbortScan r s)
  | 7 => some (execShutterResume r s)
  | 8 => some (execShutterSetHang r s)
  | 9 => some (execShutterStageProgram r s)
  | 10 => some (execShutterActivateProgram r s)
  | 11 => some (execShutterGet r s)
  | 12 => some (execShutterGetCut r s)
  | 13 => some (execShutterSetArea r s)
  | 14 => some (execShutterListImages r s)
  | 15 => some (execShutterReadImage r s)
  | 16 => some (execShutterReleaseImage r s)
  | 17 => some (execShutterReadScan r s)
  | _ => none

def runCdc (lo : Nat) (r : Request) (s : State) : Option (Host.Outcome State Fault Refusal) :=
  match lo with
  | 1 => some (execCdcGet r s)
  | 2 => some (execCdcTest r s)
  | _ => none

def runEvr (lo : Nat) (r : Request) (s : State) : Option (Host.Outcome State Fault Refusal) :=
  match lo with
  | 1 => some (execEvrRead r s)
  | 2 => some (execEvrGet r s)
  | 3 => some (execEvrClear r s)
  | 4 => some (execEvrReadMirror r s)
  | 5 => some (execEvrGetMirror r s)
  | 6 => some (execEvrClearMirror r s)
  | _ => none

def runSrm (lo : Nat) (r : Request) (s : State) : Option (Host.Outcome State Fault Refusal) :=
  match lo with
  | 1 => some (execSrmGet r s)
  | 2 => some (execSrmSetBank r s)
  | 3 => some (execSrmGetMap r s)
  | _ => none

def runHsh (lo : Nat) (r : Request) (s : State) : Option (Host.Outcome State Fault Refusal) :=
  match lo with
  | 1 => some (execHshGet r s)
  | 2 => some (execHshSetAudit r s)
  | 3 => some (execHshGetDigest r s)
  | 4 => some (execHshGetJobDigest r s)
  | _ => none

def runSec (lo : Nat) (r : Request) (s : State) : Option (Host.Outcome State Fault Refusal) :=
  match lo with
  | 1 => some (execSecGet r s)
  | 2 => some (execSecGetCert r s)
  | 3 => some (execSecOpenSession r s)
  | 4 => some (execSecCloseSession r s)
  | 5 => some (execSecRotateKey r s)
  | 6 => some (execSecSelfTest r s)
  | 7 => some (execSecStageFirmware r s)
  | 8 => some (execSecHandover r s)
  | _ => none

def runCmd (lo : Nat) (r : Request) (s : State) : Option (Host.Outcome State Fault Refusal) :=
  match lo with
  | 1 => some (execCmdGet r s)
  | 2 => some (execCmdEcho r s)
  | _ => none

def runPwr (lo : Nat) (r : Request) (s : State) : Option (Host.Outcome State Fault Refusal) :=
  match lo with
  | 1 => some (execPwrGet r s)
  | 2 => some (execPwrSet r s)
  | _ => none

def runPnl (lo : Nat) (r : Request) (s : State) : Option (Host.Outcome State Fault Refusal) :=
  match lo with
  | 1 => some (execPnlGet r s)
  | 2 => some (execPnlSetLed r s)
  | 3 => some (execPnlGetLog r s)
  | _ => none

/-- Execute the opcode of Table CMD-7; none when the table does not list it. -/
def runOpcode (code : Nat) (r : Request) (s : State) : Option (Host.Outcome State Fault Refusal) :=
  match code / 256 with
  | 0x01 => runFrame (code % 256) r s
  | 0x02 => runTime (code % 256) r s
  | 0x03 => runWin (code % 256) r s
  | 0x04 => runCtr (code % 256) r s
  | 0x05 => runSen (code % 256) r s
  | 0x06 => runRed (code % 256) r s
  | 0x07 => runDoor (code % 256) r s
  | 0x08 => runFea (code % 256) r s
  | 0x09 => runPln (code % 256) r s
  | 0x0A => runGlen (code % 256) r s
  | 0x0B => runProbe (code % 256) r s
  | 0x0C => runErr (code % 256) r s
  | 0x0D => runPsn (code % 256) r s
  | 0x0E => runTrc (code % 256) r s
  | 0x0F => runWpt (code % 256) r s
  | 0x10 => runShutter (code % 256) r s
  | 0x11 => runCdc (code % 256) r s
  | 0x12 => runEvr (code % 256) r s
  | 0x13 => runSrm (code % 256) r s
  | 0x14 => runHsh (code % 256) r s
  | 0x15 => runSec (code % 256) r s
  | 0x16 => runCmd (code % 256) r s
  | 0x17 => runPwr (code % 256) r s
  | 0x18 => runPnl (code % 256) r s
  | _ => none


/-! ### The order of checks (R385) -/

/-- The TLVs of a body; a fault of its bytes shows in the type (R374). `fuel` bounds the count. -/
def readTlvs : Nat → Bytes → List Tlv
  | 0, _ => []
  | f + 1, b =>
    if b.isEmpty then [] else
    let len := rd b 2 2
    let room := (len + 3) / 4 * 4
    if b.length < 4 + room then [⟨tOverrun, []⟩] else
    let ty := rd b 0 2
    ⟨if allZero (slice b (4 + len) (room - len)) then ty else tBadPad + ty, slice b 4 len⟩ :: readTlvs f (b.drop (4 + room))

/-- The state an outcome leads to; the meanings of commands always answer one. -/
def stateOf (o : Host.Outcome State Fault Refusal) (s : State) : State :=
  match o with | .next t => t | _ => s

/-- A reply of rows 1 to 4 (R385): zero trailer, not cached; at most 1,000 a second on the network paths together. -/
def answerEarly (row st : Nat) (path : Path) (pkt : Bytes) (s : State) : State :=
  let s := countRefusal row path s
  let recent := s.sec.earlyAt.filter fun t => s.pwr.cycles < t + 1000000000
  let network := path != .host
  if network && recent.length ≥ 1000 then setSec (fun x => { x with earlyAt := recent, discardedReplies := x.discardedReplies + 1 }) s
  else
    let r : Request := { after := 0, path := path, session := rd pkt 4 2, version := byteAt pkt 0, seq := rd pkt 8 4, body := [] }
    answerPlain none (rd pkt 2 2) r (refuse st) (setSec (fun x => { x with earlyAt := if network then recent ++ [s.pwr.cycles] else recent }) s)

/-- A reply of rows 6 and 7: authenticated and cached. -/
def answerRow (row st code : Nat) (r : Request) (s : State) : State :=
  answerPlain (replyKey r.session s) code r (refuse st) (fillCache r.session r.seq (refuse st) (countRefusal row r.path s))

/-- Rows 6 to 10. -/
def executePacket (code : Nat) (r : Request) (pkt : Bytes) (s : State) : State :=
  let s := { s with queueHigh := max s.queueHigh 1 }
  if byteAt pkt 1 != 0 || rd pkt 6 2 != 0 then answerRow 6 stBadParam code r s
  else match runOpcode code r s with
    | some o => stateOf o s
    | none => answerRow 7 stBadOpcode code r s

/-- The reply of the last answered request among the outputs. -/
def lastReply (os : List Output) : Option Reply :=
  os.foldl (fun last o => match o with | .reply _ _ _ _ p => some p | _ => last) none

/-- What a repeat reads again (R384): the output of the last CDC.TEST, or the request itself. -/
def readAgain (code : Nat) (r : Request) : Request := if code == 0x1102 then { r with body := [⟨tOffset, zeros 8⟩] } else r

/-- A repeat whose trailer is the cached one (R383, R384): the cached result, or, for a longer reply, current data with
no effect; BUSY while the first has not been answered (R389). -/
def answerRepeat (c : Cached) (code : Nat) (r : Request) (s : State) : State :=
  let key := replyKey r.session s
  if c.outstanding then answerPlain key code r (refuse stBusy) s
  else match c.body with
    | some b => answerPlain key code r { status := c.status, tlvs := readTlvs b.length b, dup := true } s
    | none =>
      match runOpcode code (readAgain code r) s.fresh with
      | some o =>
        let t := stateOf o s
        let p := (lastReply t.out).getD (refuse stBusy)
        answerPlain key code r { p with dup := true } { s with free := t.free }
      | none => answerPlain key code r (refuse stBadOpcode) s

/-- Row 5 (R383). -/
def takeSequence (x : Session) (trailer : Bytes) (code : Nat) (r : Request) (pkt : Bytes) (s : State) : State :=
  if r.seq > x.h then
    let entry : Cached := { seq := r.seq, trailer := trailer, status := 0, body := none, outstanding := true }
    executePacket code r pkt (setSession x.id (fun k => { k with h := r.seq, cache := lastN 64 (k.cache ++ [entry]) }) s)
  else match x.cache.find? (·.seq == r.seq) with
    | some c => if c.trailer == trailer then answerRepeat c code r s else replay_ s
    | none => replay_ s
where
  replay_ (s : State) : State := answerPlain (some x.key) code r (refuse stReplay) (countRefusal 5 r.path s)

/-- Row 1: the packet's length, and the length field. -/
def wellFramed (pkt : Bytes) : Bool :=
  let len := rd pkt 12 4
  32 ≤ pkt.length && pkt.length == 32 + len && len % 4 == 0 && len ≤ 2016
/-- Row 2: protocol version 1 or 2 (R395). -/
def knownVersion (pkt : Bytes) : Bool := byteAt pkt 0 == 1 || byteAt pkt 0 == 2

/-- A packet is taken (Table CMD-5). A session ends at the first packet taken after its not-after (R423). -/
def takePacket (path : Path) (pkt : Bytes) (s : State) : State :=
  let len := rd pkt 12 4
  if !wellFramed pkt then answerEarly 1 stBadLength path pkt s
  else if !knownVersion pkt then answerEarly 2 stVersion path pkt s
  else if s.sec.boundary == .selfTest then answerEarly 4 stBusy path pkt s
  else if s.sec.boundary == .error then answerEarly 4 stAuth path pkt s
  else
    let code := rd pkt 2 2
    let sid := rd pkt 4 2
    let body := slice pkt 16 len
    let trailer := slice pkt (16 + len) 16
    let r : Request := { after := 0, path := path, session := sid, version := byteAt pkt 0, seq := rd pkt 8 4, body := readTlvs len body }
    if sid == 0 then
      (if code == 0x1503 && allZero trailer then executePacket code r pkt s else answerEarly 4 stAuth path pkt s)
    else match sessionOf sid s with
      | none => answerEarly 4 stAuth path pkt s
      | some x =>
        if x.notAfter < s.time.now then answerEarly 4 stAuth path pkt (endSession sid s)
        else if trailerOf x.key (targetBlock s) (pkt.take 16) body != trailer then answerEarly 4 stAuth path pkt s
        else takeSequence x trailer code r pkt s

/-! ### The command queue (R389, R394) -/

/-- The control core takes no packet while a slot takes over (R430). -/
def coreReady (s : State) : Bool := s.sec.coreFree ≤ s.pwr.cycles

/-- The packets that wait are taken in arrival order. -/
def serveWaiting (s : State) : State :=
  if !coreReady s then s else
  s.sec.waiting.foldl (fun s w => takePacket w.1 w.2 s) (setSec (fun x => { x with waiting := [] }) s)

/-- Packets that the queue takes from the doors and the management port (R389). -/
def queueLimit (s : State) : Nat := if s.build.hub then 256 else 16
def fromHost (p : Path) : Bool := match p with | .host => true | _ => false
def queueFull (s : State) : Bool := (s.sec.waiting.filter fun w => !fromHost w.1).length ≥ queueLimit s

/-- A packet joins the queue: rows 1 to 3 of Table CMD-5 at its arrival, the others when it is taken. -/
def joinQueue (path : Path) (pkt : Bytes) (s : State) : State :=
  if !wellFramed pkt || !knownVersion pkt then takePacket path pkt s
  else if !fromHost path && queueFull s then answerEarly 3 stBusy path pkt s
  else { setSec (fun x => { x with waiting := x.waiting ++ [(path, pkt)] }) s with queueHigh := max s.queueHigh (s.sec.waiting.length + 1) }

/-- A packet arrives (R389): it is taken at once, or, while a slot takes over, waits. -/
def arrivePacket (path : Path) (pkt : Bytes) (s : State) : State :=
  let s := serveWaiting s
  if coreReady s then takePacket path pkt s else joinQueue path pkt s

/-- FIRMWARE_BOOT (R428, R430): the boot ROM's boot; of a slot that takes over at a handover, the end of the take-over, from which
its firmware takes the packets that wait. -/
def execFirmwareBoot (s : State) : Host.Outcome State Fault Refusal :=
  let s := s.fresh
  if !outOfReset s then .next s
  else if s.sec.active.isSome then .next (serveWaiting (advanceCycles s.sec.coreFree s))
  else .next (bootRom s)

/-! ### Doors (R387) -/

/-- A packet for the sender that a return tag names leaves as a datagram whose prefix names the replier; without the tag
it is discarded and counted. -/
def returnByTag (tag : Nat) (pkt : Bytes) (s : State) : State :=
  match s.net.tags.find? (·.tag == tag) with
  | some t => sendDatagram t.src (slice pkt 20 4 ++ zeros 4 ++ pkt) s
  | none => { s with net := { s.net with unknownTags := s.net.unknownTags + 1 } }

/-- COMMAND_MESSAGE_ARRIVAL (R387): executed at its target, passed on by any other hub. -/
def commandArrived (door : Nat) (flags : Nat) (target : Word) (body : Bytes) (s : State) : State :=
  let t := targetOf flags target.toNat
  if body.length < 8 || bits flags 2 6 != 0 || !allZero (slice body 2 2) || !unitFormOk (if bit flags 0 then t else target.toNat) then malformedOn door s
  else if t == unitId s then arrivePacket (.door door (body.take 8)) (body.drop 8) s
  else if s.build.hub then forwardMsg { kind := 2, type := 0x20, flags := flags, target := target, body := body } s
  else malformedOn door s

def execCommandMessageArrival (after : Nat) (door : Nat) (flags : BitVec 8) (target : Word) (body : Bytes) (s : State) :
    Host.Outcome State Fault Refusal :=
  let s := begin_ after s
  if !carries door s then .next s
  else if bit flags.toNat 1 then
    match readCut body with
    | some c => .next (takeCut door c s)
    | none => .next (malformedOn door s)
  else .next (commandArrived door flags.toNat target body s)

/-- REPLY_MESSAGE_ARRIVAL (R387): at its origin hub a reply leaves by its tag; another hub passes it on. The status block names the
replier; a reply of a reserved slot is discarded as malformed (R6). -/
def replyArrived (door : Nat) (target : Word) (body : Bytes) (s : State) : State :=
  let u := rd body 28 4
  if body.length < 32 || (!bit u 31 && reservedSlot (slotOf (bits u 0 18))) || !s.build.hub then malformedOn door s
  else if bits target.toNat 0 16 == hubAddr s then returnByTag (rd body 4 4) (body.drop 8) s
  else forwardMsg { kind := 2, type := 0x21, flags := 1, target := target, body := body } s

def execReplyMessageArrival (door : Nat) (target : Word) (body : Bytes) (s : State) : Host.Outcome State Fault Refusal :=
  let s := s.fresh
  if !carries door s then .next s else .next (replyArrived door target body s)

/-- A command that found no route in 1 ms is answered BUSY by this hub, with a zero trailer (R167, R387). -/
def answerHeld (m : Msg) (s : State) : State :=
  if m.type != 0x20 || bit m.flags 1 then s else
  let origin := m.body.take 8
  let pkt := m.body.drop 8
  let rep := signedReply none (byteAt pkt 0) (rd pkt 2 2) (rd pkt 4 2) (rd pkt 8 4) (refuse stBusy) s
  if rd origin 0 2 == hubAddr s then returnByTag (rd origin 4 4) rep s
  else forwardMsg { kind := 2, type := 0x21, flags := 1, target := BitVec.ofNat 32 (rd origin 0 2), body := origin ++ rep } s

/-- COMMAND_HOLD_TIMEOUT (R167): what has been held for 1 ms goes. -/
def execCommandHoldTimeout (s : State) : Host.Outcome State Fault Refusal :=
  let s := s.fresh
  match s.net.held with
  | [] => .next s
  | h :: _ =>
    let s := advanceCycles (h.at_ + 1000000) s
    let late := s.net.held.filter fun h => h.at_ + 1000000 ≤ s.pwr.cycles
    let s := { s with net := { s.net with held := s.net.held.filter fun h => s.pwr.cycles < h.at_ + 1000000 } }
    .next (late.foldl (fun s h => answerHeld h.msg s) s)

/-- RETURN_TAG_EXPIRY (R387): a tag is kept for 10 s. -/
def execReturnTagExpiry (tag : Nat) (s : State) : Host.Outcome State Fault Refusal :=
  let s := s.fresh
  match s.net.tags.find? (·.tag == tag) with
  | none => .next s
  | some t =>
    let s := advanceCycles (t.at_ + 10000000000) s
    .next { s with net := { s.net with tags := s.net.tags.filter (·.tag != tag) } }

/-! ### Management port (R386, R454) -/

/-- A datagram is discarded and counted. -/
def discardDatagram (s : State) : State := { s with net := { s.net with discarded := s.net.discarded + 1 } }

/-- A whole datagram: a packet for this hub, or a command message under a new return tag. -/
def takeDatagram (src : Endpoint) (p : Bytes) (s : State) : State :=
  let unit := rd p 0 4
  if p.length < 8 || p.length > 2056 || !unitFormOk unit || !allZero (slice p 4 4) || (!bit unit 31 && reservedSlot (slotOf (bits unit 0 18))) then discardDatagram s
  else if unit == unitId s then arrivePacket (.mgmt src) (p.drop 8) s
  else if s.net.tags.length ≥ 4096 then answerEarly 3 stBusy (.mgmt src) (p.drop 8) s
  else
    let tag := s.net.nextTag % 2 ^ 32
    let s := { s with net := { s.net with nextTag := tag + 1, tags := s.net.tags ++ [⟨tag, src, s.pwr.cycles⟩] } }
    forwardMsg { kind := 2, type := 0x20, flags := headFlags unit, target := headTarget unit
                 body := toLe 2 (hubAddr s) ++ zeros 2 ++ toLe 4 tag ++ p.drop 8 } s

/-- The bytes of a reassembly when every one of them is there. -/
def assembled (total : Nat) : Nat → List (Nat × Bytes) → Option Bytes
  | pos, [] => if pos == total then some [] else none
  | pos, (o, b) :: r => if o == pos then (assembled total (pos + b.length) r).map (b ++ ·) else none

/-- A fragment joins its reassembly (R386): at most 16 at a time. -/
def takeFragment (src : Endpoint) (f : Fragment) (p : Bytes) (s : State) : State :=
  let same (x : Reassembly) : Bool := x.src == src && x.ident == f.ident
  let old := s.net.reasm.find? same
  if old.isNone && s.net.reasm.length ≥ 16 then discardDatagram s else
  let x := old.getD ⟨src, f.ident, s.pwr.cycles, [], none⟩
  let parts := insertBy (fun a b => decide (a.1 < b.1)) (f.offset, p) (x.parts.filter (·.1 != f.offset))
  let total := if f.more then x.total else some (f.offset + p.length)
  let rest := s.net.reasm.filter (!same ·)
  match total.bind fun t => assembled t 0 parts with
  | some d => takeDatagram src d { s with net := { s.net with reasm := rest } }
  | none => { s with net := { s.net with reasm := rest ++ [{ x with parts := parts, total := total }] } }

/-- MANAGEMENT_DATAGRAM (R386): fragments are joined first. -/
def execManagementDatagram (after : Nat) (src : Endpoint) (frag : Option Fragment) (payload : Bytes) (s : State) : Host.Outcome State Fault Refusal :=
  let s := begin_ after s
  if !working s || !s.build.hub then .next s else
  match frag with
  | some f => .next (takeFragment src f payload s)
  | none => .next (takeDatagram src payload s)

/-- FRAGMENT_REASSEMBLY_TIMEOUT (R386): a reassembly incomplete after 1 ms is discarded. -/
def execFragmentReassemblyTimeout (src : Endpoint) (ident : Nat) (s : State) : Host.Outcome State Fault Refusal :=
  let s := s.fresh
  match s.net.reasm.find? fun x => x.src == src && x.ident == ident with
  | none => .next s
  | some x =>
    let s := advanceCycles (x.at_ + 1000000) s
    .next (discardDatagram { s with net := { s.net with reasm := s.net.reasm.filter fun x => !(x.src == src && x.ident == ident) } })

/-- ICMPV6_MESSAGE (R454): Echo and Neighbor Solicitation are answered, an Advertisement teaches an address, and every
other frame is counted and discarded. -/
def execIcmpv6Message (msg : IcmpMsg) (s : State) : Host.Outcome State Fault Refusal :=
  let s := s.fresh
  if !working s || !s.build.hub then .next s else
  match msg with
  | .echo src data => .next (State.emit (.icmp src true data) s)
  | .solicit src target =>
    .next (if target == s.cfg.ipv6 then State.emit (.icmp src false (s.cfg.ipv6 ++ s.cfg.mac)) s else { s with net := { s.net with badFrames := s.net.badFrames + 1 } })
  | .advert addr mac =>
    .next { s with net := { s.net with neighbours := s.net.neighbours.filter (·.1 != addr) ++ [(addr, mac)] } }
  | .other => .next { s with net := { s.net with badFrames := s.net.badFrames + 1 } }

end Sys2Proof.Machine
end

