-- ==== Sys2Proof/Machine/Flags.lean ====
section
/-! DEFINITION. Status words: the registers of the host door and of a hub's register port (Table HDR-1) as functions of the
state, each field at the bits that its table gives. -/
namespace Sys2Proof.Machine

/-- UZ_CMD_IDENT (Table HDR-3). -/
def identWord (s : State) : Nat :=
  let roleCode := match role s with | .die => 0 | .tray => 1 | .pod => 2 | .root => 3
  0x01000000 + 32 * b2n s.build.wide + 4 * roleCode + (if s.build.hub then 2 * plane s + 1 else 0)

/-- UZ_CMD_VERSIONS (Table HDR-4): FORMAT_OUT is the frame format written, ACTIVE_SLOT the slot in use. -/
def versionsWord (s : State) : Nat := 0x00180600 + 16 * formatOut s + (s.sec.active.getD 0) % 2

/-- UZ_CMD_STATUS (Table HDR-5). -/
def cmdStatusWord (s : State) : Nat :=
  if s.build.hub then 8 * b2n s.host.badAccess else
  65536 * min 0xFFFF s.host.ignored + 8 * b2n s.host.badAccess + 2 * b2n s.host.replyReady + b2n s.host.busy

/-- UZ_TIM_STATUS (Table TIM-6). -/
def timStatusWord (s : State) : Nat :=
  65536 * ((s.time.parent.map (· % 100)).getD 0x7F) + 1024 * sourceState s + 512 * b2n s.time.utcValid + 256 * b2n s.time.stepped + s.time.lock

/-- Age of the summary in use (R46, Table HDR-11). -/
def summaryAge (s : State) : Nat := match s.frame.usable with | some (n, _) => min 0xFE (curFrame s - n) | none => 0xFF

/-- UZ_FRM_STATUS as a tick forms it (Table HDR-11, R410); on a hub only PENDING, SCOPE and SUMMARY_AGE (R412). -/
def frmStatusWord (s : State) : Nat :=
  let f := s.frame
  2 ^ 31 * b2n f.pending.isSome + 2 ^ 30 * b2n f.params.trayScope + summaryAge s +
    (if s.build.hub then 0 else
      2 ^ 29 * b2n f.transition + 2 ^ 28 * b2n (f.tag == 0) + 2 ^ 27 * b2n f.overrun + 2 ^ 26 * b2n (dieSends s) + 256 * (f.group % 64))

/-- UZ_ERR_STATUS (Table HDR-9). -/
def errStatusWord (s : State) : Nat :=
  2 ^ 31 * b2n s.err.fleet + 2 ^ 30 * b2n s.err.tail.isSome + 2 ^ 28 * ((s.err.tail.map (·.severity)).getD 0) + s.err.ring.length

/-- UZ_EVR_STATUS (Table EVR-3). -/
def evrStatusWord (s : State) : Nat :=
  2 ^ 31 * b2n (evrFull s) + 2 ^ 30 * b2n s.evr.clearing + 2 ^ 29 * b2n s.evr.new + (s.evr.head - s.evr.base)

/-- UZ_EVR_REFUSED (R370). -/
def evrRefusedWord (s : State) : Nat := 65536 * min 0xFFFF s.evr.refBusy + min 0xFFFF s.evr.refFull

/-- UZ_TRC_STATUS (Table TRC-10). -/
def trcStatusWord (s : State) : Nat :=
  65536 * freeChunks s + 2048 * b2n (captureOn s) + 1024 * b2n s.wpt.full + 512 * b2n (s.trc.srcs.any (·.dropping)) + 256 * b2n s.trc.triggered +
    16 * stopState s + s.trc.set.mode

/-- UZ_SHT_STATUS (Table SHT-10). -/
def shtStatusWord (s : State) : Nat :=
  2 ^ 24 * (s.sht.sources % 32) + 65536 * (s.sht.stopRec.cause % 16) + 2048 * b2n s.sht.hung + 1024 * b2n s.sht.imageFail + 256 * b2n s.sht.stopEvent +
    16 * s.sht.mode + s.sht.state

/-- UZ_CDC_STATUS (Table CDC-7). -/
def cdcStatusWord (s : State) : Nat :=
  2 ^ 20 * (s.cdc.lastError % 16) + 4096 * (s.cdc.active % 16) + 256 * b2n s.cdc.error + 16 * b2n s.cdc.outFull + s.cdc.busy

/-- UZ_SRM_STATE_n (Table SRM-4). -/
def srmStateWord (n : Nat) (s : State) : Nat := sumN ((List.range 16).map fun j => 4 ^ j * (s.mem.banks.getD (16 * n + j) 0 % 4))

/-- UZ_WPT_CTRL_n (Table WPT-1). -/
def wptCtrlWord (n : Nat) (s : State) : Nat :=
  let p := wptAt n s
  2 ^ 31 * b2n p.on + 2 ^ 29 * p.dir + 2 ^ 28 * b2n p.trigSpent + 2 ^ 27 * b2n p.shutSpent + 256 * p.mask + p.acts % 32

/-- The ring holds an entry above UZ_ERR_FETCHED on the bench route (R260, R407). -/
def errCondition (s : State) : Bool := !s.err.fleet && s.err.ring.any fun e => s.err.fetched < e.seq

/-- UZ_CMD_IRQ_STATUS (Table HDR-6). -/
def irqStatusWord (s : State) : Nat :=
  b2n s.host.replyReady + 2 * b2n (errCondition s) + 4 * b2n s.evr.new + 8 * b2n (evrFull s) + 16 * b2n s.time.stepped + 32 * b2n s.trc.triggered +
    64 * b2n s.sht.stopEvent + 128 * b2n s.sht.imageFail + 256 * b2n s.cdc.error + 512 * b2n s.wpt.full + 1024 * b2n s.host.badAccess

/-- HD_IRQ (R407): no interrupt leaves a hub (R412) or a block in reset (R466). -/
def interrupt (s : State) : Bool := working s && !s.build.hub && irqStatusWord s &&& s.host.irqEnable.toNat != 0

/-- PC_BERR: the cryptographic boundary is in ERROR (R416, Table PWR-14). -/
def boundaryError (s : State) : Bool := outOfReset s && s.sec.boundary == .error

/-- A field of access W1C (R13): offset and bit. -/
def w1cMask (off : Nat) (s : State) : Nat :=
  match off with
  | 0x1020 => if s.build.hub then 8 else 10
  | 0x1040 => 256
  | 0x1100 => 2 ^ 29
  | 0x1140 => if s.build.hub then 0 else 256
  | 0x1144 => 1024 + 256
  | 0x1148 => 256 + 16
  | _ => 0

/-- The word of a register of Table HDR-1; none for an offset that the table does not assign. -/
def regWord (off : Nat) (s : State) : Option Nat :=
  let h := s.host
  let die (v : Nat) : Option Nat := some (if s.build.hub then 0 else v)
  match off with
  | 0x1000 => some 0x00375A55
  | 0x1004 => some (identWord s)
  | 0x1008 => some (unitId s)
  | 0x100C => some (fwVersion s)
  | 0x1010 => some (versionsWord s)
  | 0x1020 => some (cmdStatusWord s)
  | 0x1024 => die (irqStatusWord s)
  | 0x1028 => die h.irqEnable.toNat
  | 0x102C => some h.badAddr.toNat
  | 0x1040 => some (timStatusWord s)
  | 0x1044 => some (bits h.timLatch.1 0 32)
  | 0x1048 => some (bits h.timLatch.1 32 32)
  | 0x104C => some h.timLatch.2.1
  | 0x1050 => some h.timLatch.2.2
  | 0x1054 => some (bits h.frmLatch 0 32)
  | 0x1058 => some (bits h.frmLatch 32 32)
  | 0x105C => some s.frame.params.period
  | 0x1060 => some s.frame.status
  | 0x1064 => die s.frame.tag.toNat
  | 0x1080 => die (bits h.errLatch.1 0 32)
  | 0x1084 => die (bits h.errLatch.1 32 32)
  | 0x1088 => die (bits h.errLatch.2.1 0 32)
  | 0x108C => die (bits h.errLatch.2.1 32 32)
  | 0x1090 => die (bits h.errLatch.2.2 0 32)
  | 0x1094 => die (bits h.errLatch.2.2 32 32)
  | 0x1098 => die h.errStatus.toNat
  | 0x10C0 => some (2 ^ 28 * (h.ctrFlags % 16) + 2 ^ 25 * b2n h.ctrAbsent + h.ctrSel.toNat)
  | 0x10C4 => some h.ctrSelHi.toNat
  | 0x10C8 => some (bits h.ctrData.toNat 0 32)
  | 0x10CC => some (bits h.ctrData.toNat 32 32)
  | 0x1100 => some (evrStatusWord s)
  | 0x1104 => some (evrRefusedWord s)
  | 0x1108 => some (bits h.evrHead 0 32)
  | 0x110C => some (bits h.evrHead 32 32)
  | 0x1110 => some (bits h.evrBase 0 32)
  | 0x1114 => some (bits h.evrBase 32 32)
  | 0x1140 => die (trcStatusWord s)
  | 0x1144 => some (shtStatusWord s)
  | 0x1148 => some (cdcStatusWord s)
  | _ =>
    if 0x1180 ≤ off && off < 0x11C0 then some (srmStateWord ((off - 0x1180) / 4) s)
    else if 0x1200 ≤ off && off < 0x1280 then die (wptCtrlWord ((off - 0x1200) / 4) s)
    else none

/-- A word of the event recorder as the recorder window shows it (R411). -/
def recorderWord (off : Nat) (s : State) : Nat := rd (slotNow ((off - 0x40000) / 64) s) (off % 64) 4

end Sys2Proof.Machine
end

