-- ==== Sys2Proof/Machine/HostDoor.lean ====
section
/-! DEFINITION. The host door and a hub's register port (R398 to R413): reads, latches, writes, W1C bits and the take. -/
namespace Sys2Proof.Machine

def setHost (f : HostDoor → HostDoor) (s : State) : State := { s with host := f s.host }

/-- A bad access (R398): the first since BAD_ACCESS was last clear is kept in UZ_CMD_BAD_ADDR (Table HDR-7). -/
def badAccess (write : Bool) (off : Nat) (s : State) : State :=
  setHost (fun h => { h with badAccess := true
                             badAddr := if h.badAccess then h.badAddr else BitVec.ofNat 32 (2 ^ 31 * b2n write + off % 2 ^ 19) }) s

/-- The data of a read. -/
def answerRead (v : Nat) (s : State) : State :=
  State.emit (.hostRead (BitVec.ofNat 32 v)) (setHost (fun h => { h with rdata := BitVec.ofNat 32 v }) s)

/-! ### Latches (R399, Table HDR-8) -/

/-- The frame of this edge: on the edge of a tick the one that the tick begins (R410). -/
def frameAt (s : State) : Nat :=
  let (n, t, _) := nextFrame s
  if s.time.running && t ≤ s.time.now then n else curFrame s

/-- The stamp and the frame of one edge (R410). -/
def latchTime (s : State) : State :=
  let t := s.time.now
  setHost (fun h => { h with timLatch := (secOf t, nsOf t, subOf t), frmLatch := frameAt s }) s

/-- The selected counter (R93): copy 3 selects live, and an absent delta reads 0 with DELTA_ABSENT. -/
def latchCounter (s : State) : State :=
  let i := if s.build.hub then bits s.host.ctrSelHi.toNat 0 14 else bits s.host.ctrSel.toNat 0 13
  let c := tget {} i s.win.ctrs
  let copy := bits s.host.ctrSel.toNat 26 2
  let v := match copy with | 1 => c.prev | 2 => c.delta.getD 0 | _ => c.live
  setHost (fun h => { h with ctrData := BitVec.ofNat 64 v, ctrFlags := ctrFlags c, ctrAbsent := copy == 2 && c.delta.isNone }) s

/-- Head and base of the recorder (R359). -/
def latchRecorder (s : State) : State := setHost (fun h => { h with evrHead := s.evr.head, evrBase := s.evr.base }) s

/-- Head, tail, fetched and status of the error ring (R408). -/
def latchErrors (s : State) : State :=
  setHost (fun h => { h with errLatch := (s.err.next, s.err.release, s.err.fetched), errStatus := BitVec.ofNat 32 (errStatusWord s) }) s

/-- The latch of the group that a register heads. -/
def latchFor (off : Nat) (s : State) : State :=
  match off with
  | 0x1044 => latchTime s
  | 0x10C8 => latchCounter s
  | 0x1108 => latchRecorder s
  | 0x1080 => if s.build.hub then s else latchErrors s
  | _ => s

/-- A read of one aligned word (R398). -/
def hostRead (off : Nat) (s : State) : State :=
  if !working s then answerRead 0 s
  else if off < 0x800 then answerRead (if s.build.hub then 0 else le (memRead s.host.cmdWin off 4)) s
  else if off < 0x1000 then answerRead (if s.build.hub || s.host.busy then 0 else rd s.host.replyWin (off - 0x800) 4) s
  else if 0x40000 ≤ off && off < 0x80000 then answerRead (recorderWord off s) s
  else match regWord off s with
    | none => answerRead 0 (badAccess false off s)
    | some _ => let t := latchFor off s; answerRead ((regWord off t).getD 0) t

/-! ### Writes -/

/-- The offset whose write takes the packet (R388, R403). -/
def takeOffset (s : State) : Nat :=
  let l := le (memRead s.host.cmdWin 12 4)
  if l % 4 != 0 || l > 2016 then 2044 else 28 + l

/-- The packet that stands in the command window. -/
def windowPacket (s : State) : Bytes :=
  let l := le (memRead s.host.cmdWin 12 4)
  memRead s.host.cmdWin 0 (if l % 4 != 0 || l > 2016 then 2048 else 32 + l)

def writeWindow (off : Nat) (data : Word) (s : State) : State :=
  setHost (fun h => { h with cmdWin := memWrite h.cmdWin off (toLe 4 data.toNat) }) s

/-- COMMAND_TAKE (R388, R404): the last trailer word is written, CMD_BUSY is set and REPLY_READY cleared, and the packet
is checked; a write while CMD_BUSY is set is ignored and counted. -/
def commandTake (data : Word) (s : State) : State :=
  if !working s || s.build.hub then s
  else if s.host.busy then setHost (fun h => { h with ignored := h.ignored + 1 }) s
  else
    let s := writeWindow (takeOffset s) data s
    arrivePacket .host (windowPacket s) (setHost (fun h => { h with busy := true, replyReady := false }) s)
def execCommandTake (after : Nat) (data : Word) (s : State) : Host.Outcome State Fault Refusal := .next (commandTake data (begin_ after s))

/-- A W1C bit after a write (R14): hardware that sets it in the same cycle wins. -/
def w1c (mask bit_ data hardware : Nat) (cur : Bool) : Bool :=
  if bit mask bit_ then (cur && !bit data bit_) || bit hardware bit_ else cur

/-- W1C_WRITE (R13, R14). -/
def w1cWrite (off : Nat) (data hardware : Word) (s : State) : State :=
  let m := w1cMask off s
  let f (k : Nat) (cur : Bool) : Bool := w1c m k data.toNat hardware.toNat cur
  match off with
  | 0x1020 => setHost (fun h => { h with badAccess := f 3 h.badAccess, replyReady := f 1 h.replyReady }) s
  | 0x1040 => { s with time := { s.time with stepped := f 8 s.time.stepped } }
  | 0x1100 => { s with evr := { s.evr with new := f 29 s.evr.new } }
  | 0x1140 => { s with trc := { s.trc with triggered := f 8 s.trc.triggered } }
  | 0x1144 => { s with sht := { s.sht with imageFail := f 10 s.sht.imageFail, stopEvent := f 8 s.sht.stopEvent } }
  | 0x1148 => { s with cdc := { s.cdc with error := f 8 s.cdc.error, outFull := f 4 s.cdc.outFull } }
  | _ => s
def execW1cWrite (offset : Nat) (data : Word) (hardware : Word) (s : State) : Host.Outcome State Fault Refusal :=
  let s := s.fresh
  .next (if working s then w1cWrite offset data hardware s else s)

/-- Offsets that a hub's register port reads as 0 and whose writes are bad accesses (R412). -/
def hubAbsent (off : Nat) : Bool :=
  off < 0x1000 || off == 0x1024 || off == 0x1028 || (0x1080 ≤ off && off < 0x109C) || off == 0x1140 || (0x1200 ≤ off && off < 0x1280)

/-- A write of one aligned word (R13, R398). -/
def hostWrite (off : Nat) (data : Word) (s : State) : State :=
  if !working s then s
  else if s.build.hub && (hubAbsent off || (off == 0x1020 && bits data.toNat 0 2 != 0)) then
    badAccess true off (if off == 0x1020 then w1cWrite off data 0 s else s)
  else if off < 0x800 then
    (if s.host.busy then setHost (fun h => { h with ignored := h.ignored + 1 }) s
     else if off == takeOffset s then commandTake data s
     else writeWindow off data s)
  else if off < 0x1000 || (0x40000 ≤ off && off < 0x80000) then badAccess true off s
  else match regWord off s with
    | none => badAccess true off s
    | some _ =>
      match off with
      | 0x1028 => setHost (fun h => { h with irqEnable := data &&& 0x7FF }) s
      | 0x10C0 => setHost (fun h => { h with ctrSel := data &&& 0x0C001FFF }) s
      | 0x10C4 => if s.build.hub then setHost (fun h => { h with ctrSelHi := data &&& 0x3FFF }) s else s
      | _ => w1cWrite off data 0 s

/-- HOST_DOOR_WRITE (R398): an access of another width or alignment is bad: a write is ignored and a read returns 0. A
valid read, which the table gives no row of its own, comes here too. -/
def hostAccess (a : HostAccess) (s : State) : State :=
  if a.width != 4 || a.offset % 4 != 0 || a.offset ≥ 0x80000 then
    (if !working s then (if a.write then s else answerRead 0 s)
     else if a.write then badAccess true a.offset s else answerRead 0 (badAccess false a.offset s))
  else if a.write then hostWrite a.offset a.data s
  else hostRead a.offset s
def execHostDoorWrite (access : HostAccess) (s : State) : Host.Outcome State Fault Refusal := .next (hostAccess access s.fresh)

def execTimeLatchRead (after : Nat) (s : State) : Host.Outcome State Fault Refusal := .next (hostRead 0x1044 (begin_ after s))
/-- COUNTER_LATCH_READ (R93). -/
def execCounterLatchRead (s : State) : Host.Outcome State Fault Refusal := .next (hostRead 0x10C8 s.fresh)
/-- RECORDER_LATCH_READ (R359). -/
def execRecorderLatchRead (s : State) : Host.Outcome State Fault Refusal := .next (hostRead 0x1108 s.fresh)
/-- ERROR_RING_LATCH_READ (R408). -/
def execErrorRingLatchRead (s : State) : Host.Outcome State Fault Refusal := .next (hostRead 0x1080 s.fresh)

end Sys2Proof.Machine
end

