-- ==== Sys2Proof/Machine/Deliver.lean ====
section
/-! DEFINITION. The receiving side of a door (R137 to R143): a flit's checks, the message it completes, and the arrival that
the message is (Tables DOR-5 and DOR-5B). -/
namespace Sys2Proof.Machine

/-- Run a command's meaning within another's: what has already been presented stays presented. -/
def keepOut (f : State → Host.Outcome State Fault Refusal) (s : State) : State :=
  let t := stateOf (f s) s
  { t with out := s.out ++ t.out }

/-! ### Bulk transfers (R143) -/

/-- The arrival that a whole bulk transfer is (Table DOR-5B). -/
def deliverItem (d sub serial : Nat) (item : Bytes) (s : State) : State :=
  match sub with
  | 1 => keepOut (execScanImageArrival d serial item) s
  | 2 => keepOut (execHangDumpArrival d serial item) s
  | 3 => keepOut (execReserveArrival d item) s
  | 4 => keepOut (execReserveReplyArrival item) s
  | 5 => keepOut (execProbePackArrival d item) s
  | 6 => keepOut (execPackOutcomeArrival d item) s
  | 7 => keepOut (execTraceReadoutArrival d item) s
  | 8 => keepOut (execRecorderMirrorArrival d item) s
  | 9 => keepOut (execAuditRecordArrival d item) s
  | 10 => keepOut (execAuditNodeArrival d item) s
  | 11 => keepOut (execBootRequestArrival d item) s
  | 12 => keepOut (execBootImageArrival item) s
  | _ => malformedOn d s

/-- Forget a transfer in progress. -/
def dropTransfer (d sub serial : Nat) (s : State) : State :=
  setDoor d (fun x => { x with bulkRx := x.bulkRx.filter fun t => !(t.1 == sub && t.2.1 == serial) }) s

/-- One bulk message joins its transfer. A transfer of a reserved subtype, with offsets that do not follow one another, or
ended with ABORT is discarded and counted; the rest of a discarded transfer is ignored. -/
def takeBulk (d : Nat) (body : Bytes) (s : State) : State :=
  let sub := byteAt body 0
  let fl := byteAt body 1
  let serial := rd body 4 4
  let payload := body.drop 24
  if body.length < 24 || sub == 0 || sub > 12 || payload.length > 4096 then malformedOn d s else
  let s := if bit fl 0 then setDoor d (fun x => { x with bulkRx := x.bulkRx ++ [(sub, serial, [])] }) (dropTransfer d sub serial s) else s
  match (doorAt d s).bulkRx.find? fun t => t.1 == sub && t.2.1 == serial with
  | none => s
  | some t =>
    let item := t.2.2 ++ payload
    if bit fl 2 || rd body 8 8 != t.2.2.length then malformedOn d (dropTransfer d sub serial s)
    else if !bit fl 1 then setDoor d (fun x => { x with bulkRx := x.bulkRx.map fun u => if u.1 == sub && u.2.1 == serial then (sub, serial, item) else u }) s
    else if rd body 16 8 != 0 && rd body 16 8 != item.length then malformedOn d (dropTransfer d sub serial s)
    else deliverItem d sub serial item (dropTransfer d sub serial s)

/-! ### Messages (R142, Table DOR-5) -/

/-- The flit kind of a message type; none for a reserved type. -/
def kindOfType (ty : Nat) : Option Nat :=
  match ty with
  | 0x01 | 0x02 | 0x03 | 0x05 | 0x10 | 0x11 | 0x12 => some 1
  | 0x20 | 0x21 | 0x22 | 0x23 => some 2
  | 0x31 => some 3
  | 0x30 => some 4
  | 0x40 => some 5
  | _ => none

/-- The arrival that a message is. -/
def deliverBody (d ty flags : Nat) (target : Word) (body : Bytes) (s : State) : State :=
  match ty with
  | 0x01 => keepOut (execContributionArrival 0 d body) s
  | 0x02 => keepOut (execSummaryArrival 0 d body) s
  | 0x03 => keepOut (execSummaryArrival 0 d body) s
  | 0x05 => keepOut (execReturnedSummaryArrival 0 d false body) s
  | 0x10 => keepOut (execTimeFlitArrival ⟨0, Config.lanePhase d s.pwr.cycles % 132⟩ d false body) s
  | 0x11 => keepOut (execRootCheckArrival 0 d body) s
  | 0x12 => keepOut (execRootParametersArrival 0 d body) s
  | 0x20 => keepOut (execCommandMessageArrival 0 d (BitVec.ofNat 8 flags) target body) s
  | 0x21 =>
    if bit flags 1 then
      keepOut (execCutOutcomeReport d (BitVec.ofNat 32 (rd body 8 4)) ((records 4 (body.drop 12)).map le)) s
    else keepOut (execReplyMessageArrival d target body) s
  | 0x22 => keepOut (execErrorRecordMessage d body) s
  | 0x23 => keepOut (execRecordAcknowledgement d body) s
  | 0x30 => if byteAt body 0 == 0xFF then keepOut (execTriggerNoticeArrival 0 d body) s else keepOut (execTraceMessageArrival 0 d body) s
  | 0x31 => takeBulk d body s
  | 0x40 => keepOut (execHelloArrival 0 d body) s
  | _ => malformedOn d s

/-- A complete message from its bytes: reserved types, a kind that does not match, and a length that does not fit its
flits are malformed. -/
def deliverMessage (d kind : Nat) (m : Bytes) (s : State) : State :=
  let ty := byteAt m 0
  let len := rd m 8 4
  if kindOfType ty != some kind || (16 + len + 119) / 120 * 120 != m.length then malformedOn d s
  else deliverBody d ty (byteAt m 1) (BitVec.ofNat 32 (rd m 4 4)) (slice m 16 len) s

/-- A message cut off by ABORT is discarded whole; a returned summary's end is an event of its own (R165). -/
def abortMessage (d : Nat) (m : Bytes) (s : State) : State :=
  if byteAt m 0 == 0x05 then keepOut (execReturnedSummaryArrival 0 d true (m.drop 16)) s else s

/-! ### Flits (R137 to R139) -/

/-- The message bytes gathered of a kind. -/
def gathered (d kind : Nat) (s : State) : Option Bytes := tfind kind (doorAt d s).rx
def setGathered (d kind : Nat) (b : Option Bytes) (s : State) : State :=
  setDoor d (fun x => { x with rx := match b with | some m => tput kind m x.rx | none => tdel kind x.rx }) s

/-- A flit's payload joins its message. A time flit is a message of its own between any two flits (R142). -/
def takePayload (d kind : Nat) (som eom abort : Bool) (payload : Bytes) (s : State) : State :=
  if kind == 1 && som && eom && byteAt payload 0 == 0x10 then deliverMessage d kind payload s else
  let old := gathered d kind s
  if som == old.isSome then
    let s := endThrough d kind (malformedOn d (setGathered d kind none s))
    if !som then s
    else if eom then (if abort then s else deliverMessage d kind payload s)
    else throughPart d kind payload (setGathered d kind (some payload) s)
  else
    let m := old.getD [] ++ payload
    if !eom then throughPart d kind m (setGathered d kind (some m) s)
    else
      let s := setGathered d kind none s
      endThrough d kind (if abort then abortMessage d m s else deliverMessage d kind m s)

/-- An idle flit, which carries the current ACK and NAK (R139, R144). -/
def sendIdle (d : Nat) (s : State) : State := emitFlit d ⟨0, 0, false, false, false, []⟩ s

/-- A CRC-valid flit of kinds 1 to 4 (R139): taken in order, and otherwise answered with NAK. -/
def takeFlit (d h : Nat) (payload : Bytes) (s : State) : State :=
  let seq := bits h 20 12
  let x := doorAt d s
  if seq != (x.rxSeq + 1) % 4096 then sendIdle d (setDoor d (fun x => { x with nak := true }) s)
  else
    let s := setDoor d (fun x => { x with rxSeq := seq }) s
    sendIdle d (takePayload d (bits h 5 3) (bit h 4) (bit h 3) (bit h 2) payload s)

/-- What a flit's head says of this end's sending (R139): an ACK frees flits, and with them the chunks of trace messages (R282,
R283); a NAK replays them. -/
def takeHead (d h : Nat) (s : State) : State :=
  let s := endDrops (takeAck d (bits h 8 12) s)
  pump d (if bit h 1 then replay d s else s)

/-- FLIT_RECEIVE (R138, R139). -/
def receiveFlit (d : Nat) (flit : Bytes) (s : State) : State :=
  let h := rd flit 0 4
  let kind := bits h 5 3
  let payload := slice flit 4 120
  if flit.length != 128 || rd flit 124 4 != crc32c (flit.take 124) then
    let s := setDoor d (fun x => { x with crcErrors := x.crcErrors + 1, nak := true }) (cageCount 3 d s)
    if liveAt d s then sendIdle d s else s
  else if kind == 5 then
    (if bit h 4 && bit h 3 && !bit h 2 then deliverMessage d 5 payload s else malformedOn d s)
  else if !liveAt d s then s
  else if kind > 5 then malformedOn d (takeHead d h s)
  else
    let s := takeHead d h s
    if kind == 0 || !liveAt d s then s else takeFlit d h payload s

def execFlitReceive (after : Nat) (door : Nat) (flit : Bytes) (s : State) : Host.Outcome State Fault Refusal :=
  let s := begin_ after s
  .next (if !working s || door ≥ s.net.doors.length then s else receiveFlit door flit s)

end Sys2Proof.Machine
end

