-- ==== Sys2Proof/Machine/Tick.lean ====
section
/-! DEFINITION. The tick (R15, R18, R19): the parameters that place it (R24 to R26), the snapshot, and the changes that fall due
(R390, R391). -/
namespace Sys2Proof.Machine

/-! ### Deferred changes at their tick (R391) -/

/-- What a pending change does at the tick of frame `n`. -/
def applyChange (n : Nat) (c : Change) (s : State) : State :=
  match c with
  | .group tag grp => { s with frame := { s.frame with tag := tag, group := grp, transition := true } }
  | .stepRoot _ => s
  | .winEnable p on => setEnable p on s
  | .ctrClear rs => clearCounters rs s
  | .trim => activateTrim s
  | .catalogue key => activateCatalogue key s
  | .door d en flap time => applyDoor d en flap time s
  | .table => activateTable s
  | .plnReset m => setPend ⟨0x0902, (m.map (· + 1)).getD 0, n, .plnReset m⟩ s
  | .glenActivate v => activateModel v s
  | .glenDeactivate => deactivateModel s
  | .glenMode m a b => setMode m a b s
  | .straggler r => setStraggler r s
  | .pack => activatePack s
  | .probeSet p => setPrb (fun x => { x with set := p }) s
  | .clearCoverage _ => clearCoverage s
  | .tileOn t on => tileOn t on s
  | .trcSet t => applyTrace t s
  | .history gb => { s with trc := { s.trc with histSize := gb, history := [] } }
  | .wptSet ps => applyWatch ps s
  | .shutSources m => setSht (fun x => { x with sources := m }) s
  | .hang h => setSht (fun x => { x with hang := h }) s
  | .program => setSht (fun x => { x with active := x.staged, staged := x.active }) s
  | .area gb => setSht (fun x => { x with area := gb }) s
  | .audit a => startAudit a n s
  | .seeds tag d => setAud (fun a => { a with seeds := (a.seeds.filter (·.1 != tag)) ++ [(tag, d)] }) s
  | .handover => handOver s
  | .dieBoot => swapDieBoot s
  | .pwr g p => applyPwr g p s

/-- Take the due changes that a test picks, in ascending opcode and object order (R391). -/
def applyDue (pick : Pend → Bool) (n : Nat) (s : State) : State :=
  let due (p : Pend) : Bool := decide (p.frame ≤ n) && pick p
  let now := s.pend.filter due
  now.foldl (fun s p => applyChange n p.change s) { s with pend := s.pend.filter fun p => !due p }

/-- A SEN.ACTIVATE_TRIM: before the values of its tick (R104). -/
def isTrim (p : Pend) : Bool := p.opcode == 0x0504

/-- A WIN.SET_ENABLE: before the strobe of its tick (R87). -/
def isEnable (p : Pend) : Bool := p.opcode == 0x0302

/-- A PLN.RESET: at the start of step 2 (R193). -/
def isTrackerReset (p : Pend) : Bool := p.opcode == 0x0902

/-- A FRAME.SET_GROUP is due, so the frame is a transition frame (R40). -/
def groupDue (n : Nat) (s : State) : Bool := s.pend.any fun p => p.opcode == 0x0103 && decide (p.frame ≤ n)

/-! ### What the tick does beside them -/

/-- Unsent frame-class messages of frames before `n` are abandoned and counted; one sent in part ends with ABORT when the door
next sends (R139, R140, R150). -/
def abandonOld (n d : Nat) (s : State) : State :=
  let old (m : Msg) : Bool := match m.frame with
    | some f => decide (f < n)
    | none => false
  let x := doorAt d s
  let gone := x.sendQ.filter fun p => old p.1
  if gone.isEmpty && !(x.inFlight.any fun p => old p.1) then s else
  pump d (setDoor d (fun x => { x with sendQ := giveUp old x.sendQ, inFlight := x.inFlight.filter (fun p => !old p.1), abandoned := x.abandoned + gone.length }) s)

/-- After a release, RECOVERY at the next tick unless the mode is TEST, every source's SYNC due, and the hang count restarted
(R212, R323). -/
def afterRelease (s : State) : State :=
  if !s.glen.recoverDue then s else
  let s := { s with glen := { s.glen with recoverDue := false } }
  let s := if s.glen.mode == 2 then s else enterMode 3 s
  setSht (fun x => { x with hangCount := 0 }) (syncAll 0 s)

/-- A hub's collection of the frame is open from the tick on at the latest (R31). -/
def collectTick (n : Nat) (s : State) : State :=
  if !s.build.hub then s else
  let s := if s.hub.frame == some n then s else openCollection n s
  { s with hub := { s.hub with through := none } }

/-- The frame engine enters frame `n`, whose tick lies at `t` (R15, R19, R20); the summary in use is the last accepted one that is
not flagged DIVERGENT (R46), and nothing has been evaluated yet (R28). -/
def enterFrame (n t : Nat) (s : State) : State :=
  let f := s.frame
  { s with frame := { f with skipped := f.skipped + (n - (f.last.map (· + 1)).getD 0), last := some n, tickAt := t, endAt := none
                             transition := false, step := .snapshot, cutoff := false, stepAt := s.pwr.cycles, locked := countsLocked s
                             usable := f.good }
           glen := { s.glen with doneE := [], outputs := [], raisedNow := [] } }

/-- Return close of the frame begun joins those still open (R45). -/
def openReturn (n : Nat) (s : State) : State :=
  { s with frame := { s.frame with closes := (s.frame.closes.filter fun c => decide (n ≤ c.1 + 1)) ++ [(n, returnCloseAt s)] } }

/-- Watchpoint hits of the frame that has ended (R301). -/
def countFrame (s : State) : State :=
  { s with wpt := { s.wpt with points := s.wpt.points.map fun p => { p with prevHits := p.hits, hits := 0 } } }

/-- A frame of a slot's trial has ended (R431). -/
def countTrial (s : State) : State := { s with sec := { s.sec with trial := s.sec.trial.map (· - 1) } }

/-- UZ_FRM_STATUS changes only at ticks (R410). -/
def latchStatus (s : State) : State := { s with frame := { s.frame with status := frmStatusWord s } }

/-- Frame `n` begins at its tick `t` (R18, R19, R27, R391). -/
def beginFrame (n t : Nat) (s : State) : State :=
  let tag := s.frame.tag
  let s := streamsAtTick (enterFrame n t (countTrial (drainEvents s)))
  let s := sensorsAtTick (applyDue isTrim n s)
  let s := snapshot (applyDue isEnable n s)
  let s := openReturn n (stepAtTick n s)
  let s := auditAtTick tag n (groupDue n s) s
  let s := hubModelReady (afterRelease s)
  let s := applyDue (fun p => !isTrackerReset p) n s
  let s := collectTick n (dumpAtTick s)
  let s := (List.range s.net.doors.length).foldl (fun s d => abandonOld n d s) s
  latchStatus (countFrame (tailAtTick s))

/-! ### Parameters (R24 to R26) -/

/-- New current and pending parameters. -/
def takeParams (cur : FrameParams) (pend : Option FrameParams) (s : State) : State :=
  { s with frame := { s.frame with params := cur, pending := pend, adopt := none, awaitFleet := false, muted := false } }

/-- Adopt parameters at the instant `t`: a frame begins only where they place a tick there (R25). -/
def adoptAt (cur : FrameParams) (pend : Option FrameParams) (t : Nat) (s : State) : State :=
  let n := max ((s.frame.last.map (· + 1)).getD 0) (frameAfter cur t)
  if tickTime cur n == t then beginFrame n t (takeParams cur pend (probesAtTick s)) else takeParams cur pend s

/-- A tray hub leaves tray scope: catalogues that it took for itself go (R26, R124). -/
def dropTrayCatalogues (s : State) : State :=
  { s with cats := [], catsStaged := [], pend := s.pend.filter (·.opcode != 0x0602) }

/-- The pending parameters `q` take effect at the tick `t` of frame `n` (R24, R26). -/
def switchAt (q : FrameParams) (n t : Nat) (s : State) : State :=
  let leaves := isTray s && s.frame.params.trayScope && !q.trayScope
  let enters := isTray s && q.trayScope && !s.frame.params.trayScope
  if leaves then
    let s := dropTrayCatalogues s
    match s.frame.fleet with
    | some (cur, pend) => adoptAt cur pend t s
    | none =>
      let s := takeParams q none (probesAtTick s)
      beginFrame n t { s with frame := { s.frame with awaitFleet := true } }
  else
    let s := takeParams q none (probesAtTick s)
    let s := if enters then { s with frame := { s.frame with fleet := none } } else s
    beginFrame n t (if isPrimary s then sendRootParams s else s)

/-- TICK (R15): global time reaches the next tick, and the frame engine begins the frame. -/
def execTick (s : State) : Host.Outcome State Fault Refusal :=
  let s := s.fresh
  if !working s || !s.time.running then .next s else
  let (n, t, switch) := nextFrame s
  let s := advanceTo t s
  match s.frame.adopt, s.frame.pending with
  | some (cur, pend), _ => .next (adoptAt cur pend t s)
  | none, some q => .next (if switch then switchAt q n t s else beginFrame n t (probesAtTick s))
  | none, none => .next (beginFrame n t (probesAtTick s))

end Sys2Proof.Machine
end

