-- ==== Sys2Proof/Machine/Dispatch.lean ====
section
/-! DEFINITION. One arm per command: each calls its meaning. -/
namespace Sys2Proof.Machine

def exec (i : Instr) (s : State) : Host.Outcome State Fault Refusal :=
  match i with
  | .supplyValid pcycle hours => Sys2Proof.Machine.execSupplyValid pcycle hours s
  | .externalBlockReset => Sys2Proof.Machine.execExternalBlockReset s
  | .sramUncorrectableError bank address => Sys2Proof.Machine.execSramUncorrectableError bank address s
  | .watchdogExpiry => Sys2Proof.Machine.execWatchdogExpiry s
  | .leaveReset env => Sys2Proof.Machine.execLeaveReset env s
  | .ready => Sys2Proof.Machine.execReady s
  | .selfTestComplete passed => Sys2Proof.Machine.execSelfTestComplete passed s
  | .entropyTestFailure => Sys2Proof.Machine.execEntropyTestFailure s
  | .firmwareBoot => Sys2Proof.Machine.execFirmwareBoot s
  | .hourCounterExpiry => Sys2Proof.Machine.execHourCounterExpiry s
  | .tick => Sys2Proof.Machine.execTick s
  | .startUpSpanElapsed => Sys2Proof.Machine.execStartUpSpanElapsed s
  | .recoverySpanElapsed => Sys2Proof.Machine.execRecoverySpanElapsed s
  | .sampledValue port value => Sys2Proof.Machine.execSampledValue port value s
  | .sampleLate port => Sys2Proof.Machine.execSampleLate port s
  | .snapshotSwap => Sys2Proof.Machine.execSnapshotSwap s
  | .trackerUpdateEnd => Sys2Proof.Machine.execTrackerUpdateEnd s
  | .entityEvaluated lane => Sys2Proof.Machine.execEntityEvaluated lane s
  | .sendCutoff => Sys2Proof.Machine.execSendCutoff s
  | .contributionArrival after door item => Sys2Proof.Machine.execContributionArrival after door item s
  | .summaryArrival after door item => Sys2Proof.Machine.execSummaryArrival after door item s
  | .passItemBegin item => Sys2Proof.Machine.execPassItemBegin item s
  | .passItemApplied item => Sys2Proof.Machine.execPassItemApplied item s
  | .inputClose => Sys2Proof.Machine.execInputClose s
  | .hubMark => Sys2Proof.Machine.execHubMark s
  | .rootMark => Sys2Proof.Machine.execRootMark s
  | .rootCheckArrival after door body => Sys2Proof.Machine.execRootCheckArrival after door body s
  | .rootParametersArrival after door body => Sys2Proof.Machine.execRootParametersArrival after door body s
  | .podSelectPoint => Sys2Proof.Machine.execPodSelectPoint s
  | .traySelectPoint => Sys2Proof.Machine.execTraySelectPoint s
  | .returnedSummaryArrival after door aborted item => Sys2Proof.Machine.execReturnedSummaryArrival after door aborted item s
  | .returnMark => Sys2Proof.Machine.execReturnMark s
  | .returnClose => Sys2Proof.Machine.execReturnClose s
  | .exchangeInterval after door => Sys2Proof.Machine.execExchangeInterval after door s
  | .timeFlitArrival at_ door bad body => Sys2Proof.Machine.execTimeFlitArrival at_ door bad body s
  | .filterPeriodEnd => Sys2Proof.Machine.execFilterPeriodEnd s
  | .holdoverEntry => Sys2Proof.Machine.execHoldoverEntry s
  | .holdoverLimitExceeded => Sys2Proof.Machine.execHoldoverLimitExceeded s
  | .secondaryOwnSource => Sys2Proof.Machine.execSecondaryOwnSource s
  | .ptpMessage after msg => Sys2Proof.Machine.execPtpMessage after msg s
  | .delayReq after => Sys2Proof.Machine.execDelayReq after s
  | .ptpSyncLoss => Sys2Proof.Machine.execPtpSyncLoss s
  | .ppsEdge at_ => Sys2Proof.Machine.execPpsEdge at_ s
  | .incrementWord port words => Sys2Proof.Machine.execIncrementWord port words s
  | .windowEvent after port ev => Sys2Proof.Machine.execWindowEvent after port ev s
  | .eventService => Sys2Proof.Machine.execEventService s
  | .stretchEpisodeEnd after port cycles => Sys2Proof.Machine.execStretchEpisodeEnd after port cycles s
  | .sensorConversionRequest channel => Sys2Proof.Machine.execSensorConversionRequest channel s
  | .sensorAnswer channel code => Sys2Proof.Machine.execSensorAnswer channel code s
  | .sensorRequestTimeout channel => Sys2Proof.Machine.execSensorRequestTimeout channel s
  | .flitReceive after door flit => Sys2Proof.Machine.execFlitReceive after door flit s
  | .replayTimeout door => Sys2Proof.Machine.execReplayTimeout door s
  | .laneLockLoss door lane => Sys2Proof.Machine.execLaneLockLoss door lane s
  | .laneRetire door lane errors => Sys2Proof.Machine.execLaneRetire door lane errors s
  | .trainingAttemptTimeout door => Sys2Proof.Machine.execTrainingAttemptTimeout door s
  | .quarantineEnd door => Sys2Proof.Machine.execQuarantineEnd door s
  | .helloArrival after door body => Sys2Proof.Machine.execHelloArrival after door body s
  | .commandMessageArrival after door flags target body => Sys2Proof.Machine.execCommandMessageArrival after door flags target body s
  | .replyMessageArrival door target body => Sys2Proof.Machine.execReplyMessageArrival door target body s
  | .commandHoldTimeout => Sys2Proof.Machine.execCommandHoldTimeout s
  | .returnTagExpiry tag => Sys2Proof.Machine.execReturnTagExpiry tag s
  | .managementDatagram after src frag payload => Sys2Proof.Machine.execManagementDatagram after src frag payload s
  | .fragmentReassemblyTimeout src ident => Sys2Proof.Machine.execFragmentReassemblyTimeout src ident s
  | .icmpv6Message msg => Sys2Proof.Machine.execIcmpv6Message msg s
  | .errorRecordMessage door body => Sys2Proof.Machine.execErrorRecordMessage door body s
  | .recordAcknowledgement door body => Sys2Proof.Machine.execRecordAcknowledgement door body s
  | .errorEntrySend => Sys2Proof.Machine.execErrorEntrySend s
  | .exportPeriodEnd => Sys2Proof.Machine.execExportPeriodEnd s
  | .traceBundle source addrs cycles => Sys2Proof.Machine.execTraceBundle source addrs cycles s
  | .lowPowerEntry source level cycles => Sys2Proof.Machine.execLowPowerEntry source level cycles s
  | .lowPowerExit source addr cycles => Sys2Proof.Machine.execLowPowerExit source addr cycles s
  | .timeIntervalElapse source cycles => Sys2Proof.Machine.execTimeIntervalElapse source cycles s
  | .chunkFlushTime source => Sys2Proof.Machine.execChunkFlushTime source s
  | .traceChunkSend => Sys2Proof.Machine.execTraceChunkSend s
  | .traceMessageArrival after door body => Sys2Proof.Machine.execTraceMessageArrival after door body s
  | .triggerNoticeArrival after door body => Sys2Proof.Machine.execTriggerNoticeArrival after door body s
  | .stopInstant => Sys2Proof.Machine.execStopInstant s
  | .trayTriggerAtTime => Sys2Proof.Machine.execTrayTriggerAtTime s
  | .watchpointAccess after acc => Sys2Proof.Machine.execWatchpointAccess after acc s
  | .watchedReadData bus data => Sys2Proof.Machine.execWatchedReadData bus data s
  | .captureExpiry => Sys2Proof.Machine.execCaptureExpiry s
  | .probeSchedulerPass tiles => Sys2Proof.Machine.execProbeSchedulerPass tiles s
  | .probeDone tile result => Sys2Proof.Machine.execProbeDone tile result s
  | .probeDurationExpiry tile => Sys2Proof.Machine.execProbeDurationExpiry tile s
  | .probeAbortTimeout tile => Sys2Proof.Machine.execProbeAbortTimeout tile s
  | .retestLimitExpiry tile => Sys2Proof.Machine.execRetestLimitExpiry tile s
  | .probeStarved tile => Sys2Proof.Machine.execProbeStarved tile s
  | .passingRecordDrop => Sys2Proof.Machine.execPassingRecordDrop s
  | .probeRunTimeout tile => Sys2Proof.Machine.execProbeRunTimeout tile s
  | .probePackArrival door item => Sys2Proof.Machine.execProbePackArrival door item s
  | .packOutcomeArrival door item => Sys2Proof.Machine.execPackOutcomeArrival door item s
  | .scanImageArrival door serial item => Sys2Proof.Machine.execScanImageArrival door serial item s
  | .hangDumpArrival door serial item => Sys2Proof.Machine.execHangDumpArrival door serial item s
  | .reserveArrival door item => Sys2Proof.Machine.execReserveArrival door item s
  | .reserveReplyArrival item => Sys2Proof.Machine.execReserveReplyArrival item s
  | .traceReadoutArrival door item => Sys2Proof.Machine.execTraceReadoutArrival door item s
  | .recorderMirrorArrival door item => Sys2Proof.Machine.execRecorderMirrorArrival door item s
  | .mirrorEntrySend => Sys2Proof.Machine.execMirrorEntrySend s
  | .auditRecordArrival door item => Sys2Proof.Machine.execAuditRecordArrival door item s
  | .auditNodeArrival door item => Sys2Proof.Machine.execAuditNodeArrival door item s
  | .auditClose tag sealFrame => Sys2Proof.Machine.execAuditClose tag sealFrame s
  | .auditTransfer channel data => Sys2Proof.Machine.execAuditTransfer channel data s
  | .auditLoss channels => Sys2Proof.Machine.execAuditLoss channels s
  | .bootRequestArrival door item => Sys2Proof.Machine.execBootRequestArrival door item s
  | .bootImageArrival item => Sys2Proof.Machine.execBootImageArrival item s
  | .trialEnd => Sys2Proof.Machine.execTrialEnd s
  | .cutArrival after door cut => Sys2Proof.Machine.execCutArrival after door cut s
  | .cutOutcomeReport door serial counts => Sys2Proof.Machine.execCutOutcomeReport door serial counts s
  | .timedStopInstant => Sys2Proof.Machine.execTimedStopInstant s
  | .regionStopAck region n stopCycle clock offset => Sys2Proof.Machine.execRegionStopAck region n stopCycle clock offset s
  | .regionAckTimeout region => Sys2Proof.Machine.execRegionAckTimeout region s
  | .channelClosed channel status flits offset => Sys2Proof.Machine.execChannelClosed channel status flits offset s
  | .scanEnd output => Sys2Proof.Machine.execScanEnd output s
  | .resumeInstant => Sys2Proof.Machine.execResumeInstant s
  | .regionResetPulse region => Sys2Proof.Machine.execRegionResetPulse region s
  | .hangDeclared => Sys2Proof.Machine.execHangDeclared s
  | .codecBlock => Sys2Proof.Machine.execCodecBlock s
  | .recorderWrite => Sys2Proof.Machine.execRecorderWrite s
  | .recorderClearDone => Sys2Proof.Machine.execRecorderClearDone s
  | .partialLogFlush => Sys2Proof.Machine.execPartialLogFlush s
  | .storageCompletion tag status => Sys2Proof.Machine.execStorageCompletion tag status s
  | .storeCompletion stack address status => Sys2Proof.Machine.execStoreCompletion stack address status s
  | .storeReadyChange stack ready => Sys2Proof.Machine.execStoreReadyChange stack ready s
  | .patrolScrub bank row fixed => Sys2Proof.Machine.execPatrolScrub bank row fixed s
  | .bankChangeComplete bank => Sys2Proof.Machine.execBankChangeComplete bank s
  | .panelInputAccepted input level debounce => Sys2Proof.Machine.execPanelInputAccepted input level debounce s
  | .serviceWindowClose cage => Sys2Proof.Machine.execServiceWindowClose cage s
  | .holdPress => Sys2Proof.Machine.execHoldPress s
  | .hostDoorWrite access => Sys2Proof.Machine.execHostDoorWrite access s
  | .w1cWrite offset data hardware => Sys2Proof.Machine.execW1cWrite offset data hardware s
  | .commandTake after data => Sys2Proof.Machine.execCommandTake after data s
  | .timeLatchRead after => Sys2Proof.Machine.execTimeLatchRead after s
  | .counterLatchRead => Sys2Proof.Machine.execCounterLatchRead s
  | .recorderLatchRead => Sys2Proof.Machine.execRecorderLatchRead s
  | .errorRingLatchRead => Sys2Proof.Machine.execErrorRingLatchRead s
  | .frameSet r => Sys2Proof.Machine.execFrameSet r s
  | .frameGet r => Sys2Proof.Machine.execFrameGet r s
  | .frameSetGroup r => Sys2Proof.Machine.execFrameSetGroup r s
  | .frameGetStats r => Sys2Proof.Machine.execFrameGetStats r s
  | .frameGetPresence r => Sys2Proof.Machine.execFrameGetPresence r s
  | .frameGetContribution r => Sys2Proof.Machine.execFrameGetContribution r s
  | .timeGet r => Sys2Proof.Machine.execTimeGet r s
  | .timeSet r => Sys2Proof.Machine.execTimeSet r s
  | .timeSetSource r => Sys2Proof.Machine.execTimeSetSource r s
  | .timeSetTod r => Sys2Proof.Machine.execTimeSetTod r s
  | .timeSetCal r => Sys2Proof.Machine.execTimeSetCal r s
  | .timeSetServo r => Sys2Proof.Machine.execTimeSetServo r s
  | .timeSetUtc r => Sys2Proof.Machine.execTimeSetUtc r s
  | .timeStepRoot r => Sys2Proof.Machine.execTimeStepRoot r s
  | .winGet r => Sys2Proof.Machine.execWinGet r s
  | .winSetEnable r => Sys2Proof.Machine.execWinSetEnable r s
  | .winGetStream r => Sys2Proof.Machine.execWinGetStream r s
  | .ctrRead r => Sys2Proof.Machine.execCtrRead r s
  | .ctrClear r => Sys2Proof.Machine.execCtrClear r s
  | .ctrGetMap r => Sys2Proof.Machine.execCtrGetMap r s
  | .senRead r => Sys2Proof.Machine.execSenRead r s
  | .senGet r => Sys2Proof.Machine.execSenGet r s
  | .senStageTrim r => Sys2Proof.Machine.execSenStageTrim r s
  | .senActivateTrim r => Sys2Proof.Machine.execSenActivateTrim r s
  | .redStageCatalogue r => Sys2Proof.Machine.execRedStageCatalogue r s
  | .redActivateCatalogue r => Sys2Proof.Machine.execRedActivateCatalogue r s
  | .redGetCatalogue r => Sys2Proof.Machine.execRedGetCatalogue r s
  | .redGetSummary r => Sys2Proof.Machine.execRedGetSummary r s
  | .redGetReturned r => Sys2Proof.Machine.execRedGetReturned r s
  | .redTest r => Sys2Proof.Machine.execRedTest r s
  | .redGetCheck r => Sys2Proof.Machine.execRedGetCheck r s
  | .doorGet r => Sys2Proof.Machine.execDoorGet r s
  | .doorSet r => Sys2Proof.Machine.execDoorSet r s
  | .doorRetrain r => Sys2Proof.Machine.execDoorRetrain r s
  | .doorClearQuarantine r => Sys2Proof.Machine.execDoorClearQuarantine r s
  | .doorGetStats r => Sys2Proof.Machine.execDoorGetStats r s
  | .feaStageTable r => Sys2Proof.Machine.execFeaStageTable r s
  | .feaActivateTable r => Sys2Proof.Machine.execFeaActivateTable r s
  | .feaGetTable r => Sys2Proof.Machine.execFeaGetTable r s
  | .feaGetVector r => Sys2Proof.Machine.execFeaGetVector r s
  | .plnRead r => Sys2Proof.Machine.execPlnRead r s
  | .plnReset r => Sys2Proof.Machine.execPlnReset r s
  | .plnGetAlarms r => Sys2Proof.Machine.execPlnGetAlarms r s
  | .glenStagePage r => Sys2Proof.Machine.execGlenStagePage r s
  | .glenActivate r => Sys2Proof.Machine.execGlenActivate r s
  | .glenDeactivate r => Sys2Proof.Machine.execGlenDeactivate r s
  | .glenGet r => Sys2Proof.Machine.execGlenGet r s
  | .glenSetMode r => Sys2Proof.Machine.execGlenSetMode r s
  | .glenSetStraggler r => Sys2Proof.Machine.execGlenSetStraggler r s
  | .glenEval r => Sys2Proof.Machine.execGlenEval r s
  | .glenTestLink r => Sys2Proof.Machine.execGlenTestLink r s
  | .glenGetFindings r => Sys2Proof.Machine.execGlenGetFindings r s
  | .glenGetHistory r => Sys2Proof.Machine.execGlenGetHistory r s
  | .probeInstallPack r => Sys2Proof.Machine.execProbeInstallPack r s
  | .probeActivatePack r => Sys2Proof.Machine.execProbeActivatePack r s
  | .probePushPack r => Sys2Proof.Machine.execProbePushPack r s
  | .probeEndPush r => Sys2Proof.Machine.execProbeEndPush r s
  | .probeGetPush r => Sys2Proof.Machine.execProbeGetPush r s
  | .probeSet r => Sys2Proof.Machine.execProbeSet r s
  | .probeGet r => Sys2Proof.Machine.execProbeGet r s
  | .probeGetCoverage r => Sys2Proof.Machine.execProbeGetCoverage r s
  | .probeClearCoverage r => Sys2Proof.Machine.execProbeClearCoverage r s
  | .probeDisableTile r => Sys2Proof.Machine.execProbeDisableTile r s
  | .probeResumeTile r => Sys2Proof.Machine.execProbeResumeTile r s
  | .probeRun r => Sys2Proof.Machine.execProbeRun r s
  | .errSetRoute r => Sys2Proof.Machine.execErrSetRoute r s
  | .errFetch r => Sys2Proof.Machine.execErrFetch r s
  | .errGet r => Sys2Proof.Machine.execErrGet r s
  | .errReadRing r => Sys2Proof.Machine.execErrReadRing r s
  | .errInject r => Sys2Proof.Machine.execErrInject r s
  | .errSetExport r => Sys2Proof.Machine.execErrSetExport r s
  | .errGetSignatures r => Sys2Proof.Machine.execErrGetSignatures r s
  | .psnGetBirths r => Sys2Proof.Machine.execPsnGetBirths r s
  | .psnGetCounts r => Sys2Proof.Machine.execPsnGetCounts r s
  | .trcSet r => Sys2Proof.Machine.execTrcSet r s
  | .trcGet r => Sys2Proof.Machine.execTrcGet r s
  | .trcTrigger r => Sys2Proof.Machine.execTrcTrigger r s
  | .trcArm r => Sys2Proof.Machine.execTrcArm r s
  | .trcGetTriggers r => Sys2Proof.Machine.execTrcGetTriggers r s
  | .trcRead r => Sys2Proof.Machine.execTrcRead r s
  | .trcReadHistory r => Sys2Proof.Machine.execTrcReadHistory r s
  | .trcSetHistory r => Sys2Proof.Machine.execTrcSetHistory r s
  | .trcGetStats r => Sys2Proof.Machine.execTrcGetStats r s
  | .wptSet r => Sys2Proof.Machine.execWptSet r s
  | .wptGet r => Sys2Proof.Machine.execWptGet r s
  | .wptEnableData r => Sys2Proof.Machine.execWptEnableData r s
  | .wptDisableData r => Sys2Proof.Machine.execWptDisableData r s
  | .wptReadCapture r => Sys2Proof.Machine.execWptReadCapture r s
  | .shutterSet r => Sys2Proof.Machine.execShutterSet r s
  | .shutterStop r => Sys2Proof.Machine.execShutterStop r s
  | .shutterArmTimed r => Sys2Proof.Machine.execShutterArmTimed r s
  | .shutterCancelTimed r => Sys2Proof.Machine.execShutterCancelTimed r s
  | .shutterScan r => Sys2Proof.Machine.execShutterScan r s
  | .shutterAbortScan r => Sys2Proof.Machine.execShutterAbortScan r s
  | .shutterResume r => Sys2Proof.Machine.execShutterResume r s
  | .shutterSetHang r => Sys2Proof.Machine.execShutterSetHang r s
  | .shutterStageProgram r => Sys2Proof.Machine.execShutterStageProgram r s
  | .shutterActivateProgram r => Sys2Proof.Machine.execShutterActivateProgram r s
  | .shutterGet r => Sys2Proof.Machine.execShutterGet r s
  | .shutterGetCut r => Sys2Proof.Machine.execShutterGetCut r s
  | .shutterSetArea r => Sys2Proof.Machine.execShutterSetArea r s
  | .shutterListImages r => Sys2Proof.Machine.execShutterListImages r s
  | .shutterReadImage r => Sys2Proof.Machine.execShutterReadImage r s
  | .shutterReleaseImage r => Sys2Proof.Machine.execShutterReleaseImage r s
  | .shutterReadScan r => Sys2Proof.Machine.execShutterReadScan r s
  | .cdcGet r => Sys2Proof.Machine.execCdcGet r s
  | .cdcTest r => Sys2Proof.Machine.execCdcTest r s
  | .evrRead r => Sys2Proof.Machine.execEvrRead r s
  | .evrGet r => Sys2Proof.Machine.execEvrGet r s
  | .evrClear r => Sys2Proof.Machine.execEvrClear r s
  | .evrReadMirror r => Sys2Proof.Machine.execEvrReadMirror r s
  | .evrGetMirror r => Sys2Proof.Machine.execEvrGetMirror r s
  | .evrClearMirror r => Sys2Proof.Machine.execEvrClearMirror r s
  | .srmGet r => Sys2Proof.Machine.execSrmGet r s
  | .srmSetBank r => Sys2Proof.Machine.execSrmSetBank r s
  | .srmGetMap r => Sys2Proof.Machine.execSrmGetMap r s
  | .hshGet r => Sys2Proof.Machine.execHshGet r s
  | .hshSetAudit r => Sys2Proof.Machine.execHshSetAudit r s
  | .hshGetDigest r => Sys2Proof.Machine.execHshGetDigest r s
  | .hshGetJobDigest r => Sys2Proof.Machine.execHshGetJobDigest r s
  | .secGet r => Sys2Proof.Machine.execSecGet r s
  | .secGetCert r => Sys2Proof.Machine.execSecGetCert r s
  | .secOpenSession r => Sys2Proof.Machine.execSecOpenSession r s
  | .secCloseSession r => Sys2Proof.Machine.execSecCloseSession r s
  | .secRotateKey r => Sys2Proof.Machine.execSecRotateKey r s
  | .secSelfTest r => Sys2Proof.Machine.execSecSelfTest r s
  | .secStageFirmware r => Sys2Proof.Machine.execSecStageFirmware r s
  | .secHandover r => Sys2Proof.Machine.execSecHandover r s
  | .cmdGet r => Sys2Proof.Machine.execCmdGet r s
  | .cmdEcho r => Sys2Proof.Machine.execCmdEcho r s
  | .pwrGet r => Sys2Proof.Machine.execPwrGet r s
  | .pwrSet r => Sys2Proof.Machine.execPwrSet r s
  | .pnlGet r => Sys2Proof.Machine.execPnlGet r s
  | .pnlSetLed r => Sys2Proof.Machine.execPnlSetLed r s
  | .pnlGetLog r => Sys2Proof.Machine.execPnlGetLog r s
  | .supplyLoss => Sys2Proof.Machine.execSupplyLoss s
  | .regionReleased region => Sys2Proof.Machine.execRegionReleased region s
  | .storageReadyChange ready capacity => Sys2Proof.Machine.execStorageReadyChange ready capacity s

end Sys2Proof.Machine
end

