-- ==== Sys2Proof/Safety.lean ====
section
/-! DEFINITION. What counts as a safe state: the invariant that every step keeps; and which parts of State a command
may write, in the terms the statements use. -/
namespace Sys2Proof.Machine

/-- No two pending changes are of one object of one opcode (R391). -/
def PendDistinct (l : List Pend) : Prop := (l.map fun p => (p.opcode, p.object)).Nodup

/-- The recorder's bounds: a queue of at most 64 entries (R352), and exactly the entries between base and head in its
4,096 slots (R353, R354). -/
structure RecorderOk (r : Recorder) : Prop where
  queue : r.queue.length ≤ 64
  order : r.base ≤ r.head
  slots : r.slots.length = r.head - r.base
  room : r.head - r.base ≤ 4096

/-- The invariant: the command window (R368) and the codec chains' memory (R340) are in their canonical form, the recorder is within
its bounds, an object has at most one pending change (R391), and at most 8 sensor requests are outstanding (R449). -/
structure Inv (s : State) : Prop where
  window : Memory.wf s.host.cmdWin = true
  recorder : RecorderOk s.evr
  pend : PendDistinct s.pend
  requests : s.win.requests.length ≤ 8
  chain : Memory.wf s.cdc.chainMem = true

/-- The parts of State, but for the build and the queue of commands. -/
inductive Part where
  | cfg | pwr | frame | time | win | cats | catsStaged | work | hub | net | fea | glen | prb | err | exp | trc | wpt | sht | cdc
  | evr | mem | aud | sec | asm | queueHigh | host | pend | pnl | out | free
  deriving DecidableEq, Repr

/-- The part has one value in both states. -/
def Part.same (s t : State) : Part → Prop
  | .cfg => t.cfg = s.cfg
  | .pwr => t.pwr = s.pwr
  | .frame => t.frame = s.frame
  | .time => t.time = s.time
  | .win => t.win = s.win
  | .cats => t.cats = s.cats
  | .catsStaged => t.catsStaged = s.catsStaged
  | .work => t.work = s.work
  | .hub => t.hub = s.hub
  | .net => t.net = s.net
  | .fea => t.fea = s.fea
  | .glen => t.glen = s.glen
  | .prb => t.prb = s.prb
  | .err => t.err = s.err
  | .exp => t.exp = s.exp
  | .trc => t.trc = s.trc
  | .wpt => t.wpt = s.wpt
  | .sht => t.sht = s.sht
  | .cdc => t.cdc = s.cdc
  | .evr => t.evr = s.evr
  | .mem => t.mem = s.mem
  | .aud => t.aud = s.aud
  | .sec => t.sec = s.sec
  | .asm => t.asm = s.asm
  | .queueHigh => t.queueHigh = s.queueHigh
  | .host => t.host = s.host
  | .pend => t.pend = s.pend
  | .pnl => t.pnl = s.pnl
  | .out => t.out = s.out
  | .free => t.free = s.free

/-- The position of a part, for masks. -/
def Part.pos : Part → Nat
  | .cfg => 1 | .pwr => 2 | .frame => 3 | .time => 4 | .win => 5 | .cats => 6 | .catsStaged => 7 | .work => 8 | .hub => 9 | .net => 10
  | .fea => 11 | .glen => 12 | .prb => 13 | .err => 14 | .exp => 15 | .trc => 16 | .wpt => 17 | .sht => 18 | .cdc => 19 | .evr => 20
  | .mem => 21 | .aud => 22 | .sec => 23 | .asm => 24 | .queueHigh => 25 | .host => 26 | .pend => 27 | .pnl => 28 | .out => 29 | .free => 30

/-- All parts. -/
def allParts : List Part :=
  [.cfg, .pwr, .frame, .time, .win, .cats, .catsStaged, .work, .hub, .net, .fea, .glen, .prb, .err, .exp,
    .trc, .wpt, .sht, .cdc, .evr, .mem, .aud, .sec, .asm, .queueHigh, .host, .pend, .pnl, .out, .free]

/-- The parts that taking and answering an opcode may write: time passes until it is taken (pwr, time, and in evr the hour
counter), the reply leaves over a link or the reply window (net, host, out), and the session's cache and the refusals count
it (sec). -/
def answers : List Part := [.pwr, .time, .net, .evr, .sec, .host, .out]

/-- The parts of State that each command may write, on any path of its meaning. -/
def writes : Instr → List Part
  | .supplyValid .. => [.pwr, .out]
  | .externalBlockReset | .sramUncorrectableError .. | .watchdogExpiry | .supplyLoss => allParts
  | .leaveReset .. => [.cfg, .pwr, .time, .win, .net, .prb, .err, .exp, .trc, .wpt, .sht, .evr, .mem, .sec, .out]
  | .ready => [.pwr, .hub, .net, .out]
  | .selfTestComplete .. | .entropyTestFailure => [.net, .sec, .host, .out]
  | .firmwareBoot | .commandMessageArrival .. | .managementDatagram .. | .hostDoorWrite .. | .commandTake .. =>
    allParts.filter (! [.cfg, .cats, .work, .aud].contains ·)
  | .hourCounterExpiry | .holdoverLimitExceeded | .secondaryOwnSource | .ptpMessage .. | .delayReq .. | .ppsEdge .. => [.pwr, .time, .evr, .out]
  | .tick => allParts.filter (! [.cfg, .work, .asm, .queueHigh].contains ·)
  | .startUpSpanElapsed | .recoverySpanElapsed => [.glen, .out]
  | .sampledValue .. => [.frame, .win, .evr, .out]
  | .sampleLate .. => [.pwr, .frame, .time, .win, .evr, .out]
  | .snapshotSwap => [.pwr, .frame, .time, .win, .fea, .sht, .evr, .pend, .out]
  | .trackerUpdateEnd => [.pwr, .frame, .time, .work, .glen, .evr, .out, .free]
  | .entityEvaluated .. => [.pwr, .frame, .time, .glen, .evr, .out]
  | .sendCutoff => [.pwr, .frame, .time, .work, .net, .glen, .evr, .out]
  | .contributionArrival .. | .summaryArrival .. | .inputClose | .hubMark | .rootMark => [.pwr, .time, .hub, .net, .err, .exp, .evr, .out]
  | .passItemBegin .. => [.hub, .out]
  | .passItemApplied .. => [.hub, .net, .err, .exp, .out]
  | .rootCheckArrival .. | .podSelectPoint | .traySelectPoint | .quarantineEnd .. => [.pwr, .time, .hub, .net, .evr, .out]
  | .rootParametersArrival .. => [.pwr, .frame, .time, .net, .evr, .out]
  | .returnedSummaryArrival .. => [.pwr, .frame, .time, .hub, .net, .evr, .out]
  | .returnMark => [.pwr, .frame, .time, .net, .glen, .prb, .exp, .evr, .out]
  | .returnClose => [.pwr, .frame, .time, .evr, .out]
  | .exchangeInterval .. | .timeFlitArrival .. | .commandHoldTimeout | .returnTagExpiry .. | .fragmentReassemblyTimeout .. =>
    [.pwr, .time, .net, .evr, .out]
  | .filterPeriodEnd => [.time, .hub, .net, .glen, .prb, .trc, .sht, .evr, .out, .free]
  | .holdoverEntry | .ptpSyncLoss => [.time, .evr, .out]
  | .incrementWord .. => [.win, .evr, .out]
  | .windowEvent .. | .stretchEpisodeEnd .. => [.pwr, .time, .win, .hub, .trc, .evr, .out, .free]
  | .eventService => [.pwr, .time, .win, .net, .err, .exp, .evr, .out]
  | .sensorConversionRequest .. | .sensorRequestTimeout .. => [.win, .out]
  | .sensorAnswer .. => [.frame, .win, .hub, .net, .prb, .err, .exp, .trc, .sec, .host, .out, .free]
  | .flitReceive .. => allParts.filter (! [.cfg, .cats, .work].contains ·)
  | .replayTimeout .. | .laneLockLoss .. | .laneRetire .. => [.hub, .net, .err, .exp, .evr, .pnl, .out]
  | .trainingAttemptTimeout .. | .replyMessageArrival .. | .icmpv6Message .. | .bootRequestArrival .. => [.net, .out]
  | .helloArrival .. => [.pwr, .time, .hub, .net, .prb, .err, .exp, .sht, .evr, .pnl, .out, .free]
  | .errorRecordMessage .. => [.net, .err, .exp, .out]
  | .recordAcknowledgement .. | .errorEntrySend => [.net, .err, .out]
  | .exportPeriodEnd => [.net, .exp, .out]
  | .traceBundle .. | .lowPowerEntry .. | .lowPowerExit .. => [.hub, .trc, .out, .free]
  | .timeIntervalElapse .. | .stopInstant => [.pwr, .time, .hub, .trc, .evr, .out, .free]
  | .chunkFlushTime .. | .trayTriggerAtTime => [.pwr, .time, .trc, .evr, .out]
  | .traceChunkSend => [.net, .trc, .out]
  | .traceMessageArrival .. => [.pwr, .time, .hub, .net, .trc, .evr, .out]
  | .triggerNoticeArrival .. => [.pwr, .time, .net, .trc, .evr, .out]
  | .watchpointAccess .. => [.pwr, .time, .win, .hub, .net, .glen, .prb, .trc, .wpt, .sht, .evr, .out, .free]
  | .watchedReadData .. => [.wpt, .out, .free]
  | .captureExpiry => [.wpt, .out]
  | .probeSchedulerPass .. | .probeDurationExpiry .. => [.pwr, .time, .prb, .evr, .out]
  | .probeDone .. | .probeAbortTimeout .. => [.pwr, .frame, .time, .hub, .net, .prb, .err, .exp, .trc, .evr, .sec, .host, .out, .free]
  | .retestLimitExpiry .. | .probeStarved .. => [.net, .prb, .err, .exp, .out]
  | .passingRecordDrop => [.frame, .prb, .out]
  | .probeRunTimeout .. => [.net, .prb, .sec, .host, .out]
  | .probePackArrival .. => [.net, .prb, .cdc, .out]
  | .packOutcomeArrival .. => [.net, .prb, .out]
  | .scanImageArrival .. | .hangDumpArrival .. | .reserveArrival .. | .cutOutcomeReport .. => [.net, .sht, .out]
  | .reserveReplyArrival .. | .regionStopAck .. | .channelClosed .. => [.net, .glen, .sht, .out]
  | .traceReadoutArrival .. => [.trc, .out]
  | .recorderMirrorArrival .. => [.net, .mem, .out]
  | .mirrorEntrySend => [.net, .evr, .out]
  | .auditRecordArrival .. | .auditNodeArrival .. | .auditClose .. => [.net, .aud, .out]
  | .auditTransfer .. | .auditLoss .. => [.aud, .out]
  | .bootImageArrival .. => [.mem, .sec, .out]
  | .trialEnd => [.sec, .out]
  | .cutArrival .. | .regionAckTimeout .. => [.pwr, .time, .net, .glen, .sht, .evr, .out]
  | .timedStopInstant => [.pwr, .time, .hub, .net, .glen, .prb, .trc, .sht, .evr, .out, .free]
  | .scanEnd .. => [.net, .glen, .sht, .cdc, .out]
  | .resumeInstant => [.pwr, .time, .glen, .sht, .evr, .out]
  | .regionResetPulse .. | .regionReleased .. => [.sht, .out]
  | .hangDeclared => [.hub, .net, .glen, .prb, .trc, .sht, .evr, .out, .free]
  | .codecBlock => [.net, .prb, .sht, .cdc, .sec, .host, .pend, .out]
  | .recorderWrite | .recorderClearDone => [.pwr, .time, .evr, .mem, .out]
  | .partialLogFlush | .storageReadyChange .. => [.evr, .mem, .out]
  | .storageCompletion .. => [.mem, .out]
  | .storeCompletion .. => [.hub, .net, .err, .exp, .trc, .out, .free]
  | .storeReadyChange .. | .patrolScrub .. => [.net, .err, .exp, .mem, .out]
  | .bankChangeComplete .. => [.net, .glen, .trc, .wpt, .evr, .mem, .sec, .asm, .host, .out]
  | .panelInputAccepted .. => [.pnl, .out]
  | .serviceWindowClose .. => [.pwr, .time, .evr, .pnl, .out]
  | .holdPress => [.pwr, .time, .trc, .evr, .pnl, .out]
  | .w1cWrite .. => [.time, .trc, .sht, .cdc, .evr, .host, .out]
  | .timeLatchRead .. => [.pwr, .time, .evr, .host, .out]
  | .counterLatchRead | .recorderLatchRead | .errorRingLatchRead => [.host, .out]
  | .frameSet .. => .frame :: answers
  | .frameGet .. | .frameGetStats .. | .frameGetPresence .. | .frameGetContribution .. | .timeGet .. | .timeSetSource .. | .timeSetTod ..
  | .timeSetCal .. | .timeSetServo .. | .timeSetUtc .. | .winGet .. | .winGetStream .. | .ctrRead .. | .ctrGetMap .. | .senRead ..
  | .senGet .. | .redGetCatalogue .. | .redGetSummary .. | .redGetReturned .. | .redTest .. | .redGetCheck .. | .doorGet ..
  | .doorGetStats .. | .feaGetTable .. | .plnRead .. | .plnGetAlarms .. | .glenGet .. | .glenTestLink .. | .glenGetFindings ..
  | .glenGetHistory .. | .probeGetPush .. | .probeGet .. | .probeGetCoverage .. | .errGet .. | .errReadRing .. | .errGetSignatures ..
  | .psnGetBirths .. | .psnGetCounts .. | .trcGet .. | .trcGetTriggers .. | .trcRead .. | .trcReadHistory .. | .trcGetStats .. | .wptGet ..
  | .shutterGet .. | .shutterGetCut .. | .shutterListImages .. | .shutterReadImage .. | .cdcGet .. | .evrRead .. | .evrGet ..
  | .evrClear .. | .evrReadMirror .. | .evrGetMirror .. | .srmGet .. | .srmGetMap .. | .hshGetDigest .. | .hshGetJobDigest .. | .secGet ..
  | .secOpenSession .. | .secCloseSession .. | .secRotateKey .. | .secSelfTest .. | .cmdGet .. | .cmdEcho .. | .pwrGet .. | .pnlGet ..
  | .pnlGetLog .. => answers
  | .frameSetGroup .. | .timeStepRoot .. | .winSetEnable .. | .ctrClear .. | .senActivateTrim .. | .redActivateCatalogue .. | .doorSet ..
  | .feaActivateTable .. | .plnReset .. | .glenActivate .. | .glenDeactivate .. | .glenSetMode .. | .glenSetStraggler ..
  | .probeActivatePack .. | .probeSet .. | .probeClearCoverage .. | .probeDisableTile .. | .probeResumeTile .. | .trcSet ..
  | .trcSetHistory .. | .wptSet .. | .shutterSet .. | .shutterSetHang .. | .shutterActivateProgram .. | .shutterSetArea ..
  | .hshSetAudit .. | .secHandover .. | .pwrSet .. => .pend :: answers
  | .timeSet .. | .shutterStop .. => .hub :: .glen :: .prb :: .trc :: .sht :: .free :: answers
  | .senStageTrim .. => .win :: .asm :: answers
  | .redStageCatalogue .. => .catsStaged :: .asm :: answers
  | .doorRetrain .. => .hub :: .err :: .exp :: .pnl :: answers
  | .doorClearQuarantine .. => .hub :: answers
  | .feaStageTable .. => .fea :: .asm :: answers
  | .feaGetVector .. | .glenEval .. => .frame :: .win :: .fea :: .pend :: answers
  | .glenStagePage .. => .glen :: .asm :: answers
  | .probeInstallPack .. => .prb :: .cdc :: .asm :: answers
  | .probePushPack .. => .prb :: .asm :: answers
  | .probeEndPush .. | .probeRun .. => .prb :: answers
  | .errSetRoute .. => .err :: answers
  | .errFetch .. => .err :: .free :: answers
  | .errInject .. => .err :: .exp :: answers
  | .errSetExport .. => .exp :: answers
  | .trcTrigger .. => .hub :: .trc :: .free :: answers
  | .trcArm .. => .hub :: .trc :: .wpt :: .free :: answers
  | .wptEnableData .. | .wptDisableData .. | .wptReadCapture .. => .wpt :: answers
  | .shutterArmTimed .. | .shutterCancelTimed .. | .shutterScan .. | .shutterAbortScan .. | .shutterReleaseImage .. => .sht :: answers
  | .shutterResume .. => .glen :: .sht :: answers
  | .shutterStageProgram .. => .sht :: .asm :: answers
  | .shutterReadScan .. => .sht :: .cdc :: .free :: answers
  | .cdcTest .. => .cdc :: .asm :: answers
  | .evrClearMirror .. | .srmSetBank .. => .mem :: answers
  | .hshGet .. | .secGetCert .. => .free :: answers
  | .secStageFirmware .. => .mem :: .asm :: answers
  | .pnlSetLed .. => .pnl :: answers

end Sys2Proof.Machine
end

