-- ==== Sys2Proof/Opcodes.lean ====
section
/-! DEFINITION. The opcodes as the statements group them: what each needs of a request and of the state to take effect, and
the effect, in lists by family. Each list has one row per opcode and form; `test_` theorems give every row a request and a
state that meet it. -/
namespace Sys2Proof.Machine

/-- Rows 4 and 8 to 9 of Table CMD-5 let a request through: the unit is working outside SELF_TEST and ERROR, it holds the
session, the firmware runs or the boot ROM has the opcode, profile and role fit, the session has the authorisation, and the
body's TLVs are in order. -/
def passes (o : Op) (allowed : Bool) (r : Request) (s : State) : Bool :=
  working s && s.sec.boundary != .selfTest && s.sec.boundary != .error && (sessionOf r.session s).isSome &&
    (s.sec.active.isSome || bootOpcode o.code) && allowed && holds r.session o.auth s && (checkBody o.params r.body).isNone

/-- The state in which a request is taken: its waiting time has passed. -/
def taken (r : Request) (s : State) : State := begin_ r.after s

/-- An opcode that reads. `ready` is what the chapter's own checks ask; `shows` are TLVs that the reply holds whatever else
it carries. -/
structure Reader where
  cmd : Request → Instr
  code : Nat
  params : List Param := []
  allowed : State → Bool := fun _ => true
  ready : List Tlv → State → Bool := fun _ _ => true
  shows : List Tlv → State → List Tlv := fun _ _ => []

def Reader.meets (x : Reader) (r : Request) (s : State) : Bool :=
  passes { code := x.code, auth := authRead, params := x.params } (x.allowed (taken r s)) r (taken r s) && x.ready r.body (taken r s)

/-- The reply is OK and holds what the opcode shows (or, for a version 1 request, BAD_LENGTH where the items do not fit, R395),
and nothing but the answer changes. -/
def Reader.Answers (x : Reader) : Prop :=
  ∀ (r : Request) (s : State), x.meets r s = true →
    ∃ rep, exec (x.cmd r) s = .next (finish x.code r (rep, taken r s)) ∧
      ((rep.status = stOk ∧ ∀ v ∈ x.shows r.body (taken r s), v ∈ rep.tlvs) ∨ (r.version = 1 ∧ rep = refuse stBadLength))

/-- An opcode that acts at a frame F. `path` is what it asks of the request's path; `rivals` are the opcodes that share its object, one pending change for all (R391). -/
structure Deferral where
  cmd : Request → Instr
  code : Nat
  auth : Nat := authOperate
  params : State → List Param := fun _ => []
  allowed : State → Bool := fun _ => true
  ready : List Tlv → State → Bool := fun _ _ => true
  path : Request → State → Bool := fun _ _ => true
  object : List Tlv → State → Nat := fun _ _ => 0
  change : List Tlv → State → Change
  rivals : List Nat := []

def Deferral.meets (x : Deferral) (r : Request) (s : State) : Bool :=
  passes { code := x.code, auth := x.auth, params := x.params (taken r s) } (x.allowed (taken r s)) r (taken r s) && x.path r (taken r s) &&
    x.ready r.body (taken r s)

/-- The pending change that a deferral replaces. -/
def Deferral.replaced (x : Deferral) (b : List Tlv) (t : State) : Option Pend :=
  (x.rivals.findSome? (pendOf · (x.object b t) t)).or (pendOf x.code (x.object b t) t)

/-- F later than the current frame: DEFERRED with EFFECT and, for a replaced change, REPLACED; the change is pending for F
and nothing else changes (R390, R391). -/
def Deferral.Takes (x : Deferral) : Prop :=
  ∀ (r : Request) (s : State), let t := taken r s
    x.meets r s = true → curFrame t < num tFrame r.body →
    exec (x.cmd r) s = .next (finish x.code r
      ({ status := stDeferred
         tlvs := effect (num tFrame r.body) :: ((x.replaced r.body t).map fun p => (⟨tReplaced, toLe 8 p.frame⟩ : Tlv)).toList },
       setPend ⟨x.code, x.object r.body t, num tFrame r.body, x.change r.body t⟩
         (x.rivals.foldl (fun u c => dropPend c (x.object r.body t) u) t)))

/-- An opcode that acts at once: its reply's TLVs and its effect on the state. -/
structure Immediate where
  cmd : Request → Instr
  code : Nat
  auth : Nat := authOperate
  params : State → List Param := fun _ => []
  allowed : State → Bool := fun _ => true
  ready : Request → State → Bool := fun _ _ => true
  reply : Request → State → List Tlv := fun _ _ => []
  effect : Request → State → State

def Immediate.meets (x : Immediate) (r : Request) (s : State) : Bool :=
  passes { code := x.code, auth := x.auth, params := x.params (taken r s) } (x.allowed (taken r s)) r (taken r s) && x.ready r (taken r s)

/-- OK, and the effect. -/
def Immediate.Acts (x : Immediate) : Prop :=
  ∀ (r : Request) (s : State), x.meets r s = true →
    exec (x.cmd r) s = .next (finish x.code r (okay (x.reply r (taken r s)), x.effect r (taken r s)))

/-- The same for an opcode that is answered later, when its work is done: the effect, and no reply yet. -/
def Immediate.Starts (x : Immediate) : Prop :=
  ∀ (r : Request) (s : State), x.meets r s = true → exec (x.cmd r) s = .next (x.effect r (taken r s))

/-! ### Opcodes that read -/

noncomputable def frameReaders : List Reader := [
  { cmd := .frameGet, code := 0x0102
    shows := fun _ s => [stU64 0 s.frame.params.anchor, stU64 2 (curFrame s), stBytes 3 (toLe 1 s.frame.group ++ zeros 3 ++ toLe 4 s.frame.tag.toNat),
      stU8 4 (b2n s.frame.transition), stU64 5 s.frame.lateReturned, stU64 6 s.frame.dupReturned] },
  { cmd := .frameGetStats, code := 0x0104, params := [may tOffset], shows := fun _ s => [stU64 0 s.frame.skipped] },
  { cmd := .frameGetPresence, code := 0x0105, params := [must tFrame], allowed := (·.build.hub)
    ready := fun b s => (tfind (num tFrame b) s.hub.maps).isSome && recent (num tFrame b) s },
  { cmd := .frameGetContribution, code := 0x0106, params := [must tFrame, may tOffset], allowed := isDie
    ready := fun b s => (tfind (num tFrame b) s.frame.history).isSome },
  { cmd := .timeGet, code := 0x0201
    shows := fun _ s => (if isRoot s then [setU32 6 s.time.source] else []) ++ [stBytes 0 (fullStamp s.time.now), stU32 1 s.time.lock, stU32 12 s.time.steps] }]

noncomputable def windowReaders : List Reader := [
  { cmd := .winGet, code := 0x0301, params := [must tIndex, may tOffset], ready := fun b s => num tIndex b < portCount s
    shows := fun b s => [stU32 0 (portAt (num tIndex b) s).state, stU8 1 (b2n (portAt (num tIndex b) s).enabled),
      stU32 4 (portAt (num tIndex b) s).queue.length, stU32 5 (portAt (num tIndex b) s).lost, stU32 6 (portAt (num tIndex b) s).malformed] },
  { cmd := .winGetStream, code := 0x0303, params := [must tEntity], ready := fun b s => isStream (num tEntity b) s
    shows := fun b s => [stU8 0 (b2n (streamAt (num tEntity b) s).isOpen), stU32 2 (streamAt (num tEntity b) s).orphanStarts] },
  { cmd := .ctrRead, code := 0x0401, params := [mayMany tIndex 512, mayMany tRange 512, must tChoice, may tOffset]
    ready := fun b s => !itemsMissing b && choice b ≤ 1 && !itemsBad (ctrCount s) b && (namedItems b).length ≤ 512
    shows := fun _ s => [stU64 0 (s.win.snapFrame.getD 0)] },
  { cmd := .ctrGetMap, code := 0x0403, params := [may tIndex] },
  { cmd := .senRead, code := 0x0501, params := [mayMany tIndex 80, mayMany tRange 80, may tOffset]
    ready := fun b _ => !itemsMissing b && !itemsBad 80 b },
  { cmd := .senGet, code := 0x0502
    shows := fun _ s => [stU32 0 s.win.trimVersion, stU8 2 (b2n s.win.untrimmed), stU32 3 s.win.mapStatus, stU32 4 s.win.abandoned] }]

noncomputable def reduceReaders : List Reader := [
  { cmd := .redGetCatalogue, code := 0x0603, params := [must tIndex, may tChoice, may tOffset]
    ready := fun b _ => num tIndex b ≤ 63 && choice b ≤ 1 },
  { cmd := .redGetSummary, code := 0x0604, params := [must tFrame, may tOffset]
    ready := fun b s => (tfind (num tFrame b) (if isDie s then s.frame.history else s.hub.summaries)).isSome && recent (num tFrame b) s },
  { cmd := .redGetReturned, code := 0x0605, params := [may tOffset], allowed := isDie, ready := fun _ s => s.frame.summary.isSome
    shows := fun _ s => (s.frame.summary.map fun p => stU32 0 (curFrame s - p.1)).toList },
  { cmd := .redTest, code := 0x0606, params := [must tData, mustSetting 0 4]
    ready := fun b _ => ((val? tData b).getD []).length % 4 == 0 && ((val? tData b).getD []).length ≤ 1024 &&
      decide (-149 ≤ signed 32 ((set? 0 b).getD 0)) && decide (signed 32 ((set? 0 b).getD 0) ≤ 96) },
  { cmd := .redGetCheck, code := 0x0607, params := [must tFrame], allowed := isRoot
    ready := fun b s => (s.hub.checks.find? fun c => c.frame == num tFrame b && recent c.frame s).isSome
    shows := fun b s => (s.hub.checks.find? fun c => c.frame == num tFrame b && recent c.frame s).toList.flatMap fun c => [stBytes 1 c.ownDigest, stU32 4 c.outcome, stU32 5 c.standby] },
  { cmd := .feaGetTable, code := 0x0803, params := [may tChoice, may tOffset], ready := fun b _ => choice b ≤ 1
    shows := fun _ s => [stU32 2 s.fea.trackers.length] },
  { cmd := .feaGetVector, code := 0x0804, params := [must tEntity, may tOffset]
    ready := fun b s => num tEntity b ≤ 4095 && (s.fea.active.bind fun t => tfind (num tEntity b) t.entities).isSome
    shows := fun b s => [stBytes 0 (missingMask (vectorOf (num tEntity b) (stepFour s)))] },
  { cmd := .plnRead, code := 0x0901, params := [many tIndex 256, many tEntity 256, may tOffset]
    ready := fun b s => (nums tIndex b).length == (nums tEntity b).length &&
      !(nums tIndex b).any (· ≥ ((s.fea.active.map (·.trackers.length)).getD 0)) &&
      ((nums tIndex b).zip (nums tEntity b)).all fun p => (s.fea.trackers.zipIdx.find? fun t => t.1.metric == p.1 && t.1.entity == p.2).isSome },
  { cmd := .plnGetAlarms, code := 0x0903, params := [mayMany tIndex 128, may tOffset]
    ready := fun b s => !(nums tIndex b).any (· ≥ ((s.fea.active.map (·.trackers.length)).getD 0)) }]

noncomputable def glenReaders : List Reader := [
  { cmd := .glenGet, code := 0x0A04, params := [may tOffset]
    shows := fun _ s => [setU32 0 s.glen.mode, stU32 3 s.glen.lastEvaluated, stU32 5 s.glen.active.length, stU32 6 s.glen.staged.length] },
  { cmd := .glenEval, code := 0x0A07, params := [must tEntity, may tOffset, may tData]
    ready := fun b s =>
      let data := (val? tData b).getD []
      let idx := (records 8 data).map fun x => rd x 0 4
      data.length % 8 == 0 && !s.glen.active.isEmpty && (kindOf (num tEntity b) s).isSome && (dedup idx).length == idx.length &&
        !idx.any (· ≥ (s.fea.active.map (·.features.length)).getD 0) && idx.length ≤ 192 },
  { cmd := .glenTestLink, code := 0x0A08, params := [may tOffset, must tData]
    ready := fun b _ =>
      let data := (val? tData b).getD []
      data.length % 4 == 0 && data.length ≤ 1024 && !((records 4 data).any fun x => isNaN32 (BitVec.ofNat 32 (le x))) },
  { cmd := .glenGetFindings, code := 0x0A09, params := [must tFrame, may tOffset] },
  { cmd := .glenGetHistory, code := 0x0A0A, params := [mayMany tIndex 256, mayMany tEntity 256, may tOffset]
    ready := fun b _ => (nums tEntity b).length == (nums tIndex b).length && !(nums tEntity b).any (· > 4095) && !(nums tIndex b).any (· > 15) }]

noncomputable def probeReaders : List Reader := [
  { cmd := .probeGetPush, code := 0x0B05, params := [may tOffset], allowed := (·.build.hub), ready := fun _ s => !s.prb.pushes.isEmpty },
  { cmd := .probeGet, code := 0x0B07, params := [may tIndex], allowed := isDie
    shows := fun _ s => [stU32 3 s.prb.cursor, stU32 4 s.prb.shortFrames] },
  { cmd := .probeGetCoverage, code := 0x0B08, params := [many tIndex 40, may tOffset], allowed := isDie
    ready := fun b _ => !(nums tIndex b).any (· > 39) }]

noncomputable def errorReaders : List Reader := [
  { cmd := .errGet, code := 0x0C03, params := [may tOffset]
    shows := fun _ s => [stU64 0 s.err.next, stU64 1 s.err.release, stU32 2 s.err.ring.length] },
  { cmd := .errReadRing, code := 0x0C04, params := [must tSeq, may tCount], ready := fun b s => s.err.ring.any (·.seq == num tSeq b) },
  { cmd := .errGetSignatures, code := 0x0C07, params := [may tOffset], allowed := isTray, shows := fun _ s => [stU32 0 s.exp.overflow] },
  { cmd := .psnGetBirths, code := 0x0D01, params := [may tOffset, may tSerial] },
  { cmd := .psnGetCounts, code := 0x0D02
    shows := fun _ s => [stU64 0 s.err.birthCount, stU64 1 s.err.consumedCount, stU64 2 (tget {} ctrPoison s.win.ctrs).live, stU64 3 s.err.repeatBirths] }]

noncomputable def traceReaders : List Reader := [
  { cmd := .trcGet, code := 0x0E02, params := [may tIndex]
    shows := fun _ s => [stU32 0 s.trc.set.mode, stU32 1 (stopState s), stU32 2 (freeChunks s)] },
  { cmd := .trcGetTriggers, code := 0x0E05
    shows := fun _ s => [stBytes 0 (fullStamp (s.trc.stopAt.getD 0)), stU32 1 (stopState s)] },
  { cmd := .trcRead, code := 0x0E06, params := [may tOffset], ready := fun _ s => s.trc.set.mode == trcLocal },
  { cmd := .trcReadHistory, code := 0x0E07, params := [mayMany tTime 2, may tIndex, may tUnit, may tOffset], allowed := (·.build.hub)
    ready := fun b s => !(vals tTime b).any (!stampOk ·) && storeUsable s },
  { cmd := .trcGetStats, code := 0x0E09, params := [may tOffset], allowed := (·.build.hub)
    shows := fun _ s => [setU32 0 s.trc.histSize, stU64 1 (historyWindow s)] },
  { cmd := .wptGet, code := 0x0F02, params := [may tIndex], allowed := isDie
    shows := fun _ s => [stU64 1 ((s.wpt.auth.map (·.2)).getD 0), stU32 2 s.wpt.refused] }]

noncomputable def shutterReaders : List Reader := [
  { cmd := .shutterGet, code := 0x100B, params := [may tOffset], allowed := isDie
    shows := fun _ s => [setBytes 0 (toLe 1 s.sht.sources), stU32 0 s.sht.state, stU32 3 s.sht.hangCount, stU32 7 s.sht.skippedDumps] },
  { cmd := .shutterGetCut, code := 0x100C, params := [must tSerial], allowed := (·.build.hub)
    ready := fun b s => s.sht.cuts.any (·.serial == BitVec.ofNat 32 (num tSerial b)) },
  { cmd := .shutterListImages, code := 0x100E, params := [may tOffset], allowed := isTray, ready := fun _ s => storeUsable s
    shows := fun _ s => [setU32 0 s.sht.area] },
  { cmd := .shutterReadImage, code := 0x100F, params := [may tChoice, must tUnit, may tOffset, must tSerial], allowed := isTray
    ready := fun b s => storeUsable s && (s.sht.images.find? (imageNamed b)).isSome },
  { cmd := .cdcGet, code := 0x1101 }]

noncomputable def recordReaders : List Reader := [
  { cmd := .evrRead, code := 0x1201, params := [must tSeq]
    ready := fun b s => s.evr.base ≤ num tSeq b && num tSeq b < s.evr.head
    shows := fun b s => (entriesFrom (num tSeq b - s.evr.base) s).map (fun p => record p.1) ++ [stU64 0 s.evr.base, stU64 1 s.evr.head] },
  { cmd := .evrGet, code := 0x1202
    shows := fun _ s => [stU64 0 s.evr.base, stU64 1 s.evr.head, stU32 2 (s.evr.head - s.evr.base), stU8 3 (b2n (evrFull s)), stU32 4 s.evr.refFull,
      stU32 5 s.evr.refBusy, stU32 7 s.evr.pcc, stU32 8 s.evr.hours] },
  { cmd := .evrReadMirror, code := 0x1204, params := [must tUnit, must tSeq], allowed := (·.build.hub)
    ready := fun b s => (logKey (num tUnit b) s).isSome },
  { cmd := .evrGetMirror, code := 0x1205, params := [may tIndex], allowed := (·.build.hub) },
  { cmd := .srmGet, code := 0x1301
    shows := fun _ s => [stBytes 0 (s.mem.banks.map (BitVec.ofNat 8 ·)), stU32 1 s.mem.repairs.length, stU32 2 s.mem.ignoredRepairs] },
  { cmd := .srmGetMap, code := 0x1303
    shows := fun _ s => (bankMap s.build.hub).map fun p => record (toLe 2 p.1 ++ toLe 2 p.2.1 ++ toLe 4 p.2.2) },
  { cmd := .hshGetDigest, code := 0x1403, params := [may tFrame, may tOffset, may tGroupTag]
    ready := fun b s => match namedKey b with
      | some (t, f) => if isDie s then s.aud.records.any (fun x => rd x 8 4 == t.toNat && rd x 24 8 == f) else s.aud.keys.any (keyIs t f) && storeUsable s
      | none => isDie s || storeUsable s },
  { cmd := .hshGetJobDigest, code := 0x1404, params := [must tFrame, must tGroupTag], allowed := isRoot
    ready := fun b s => match namedKey b with
      | some (t, f) => s.aud.jobs.any fun j => rd j 0 4 == t.toNat && rd j 4 8 == f
      | none => false }]

noncomputable def unitReaders : List Reader := [
  { cmd := .doorGet, code := 0x0701, params := [may tIndex, may tOffset], ready := fun b s => (num? tIndex b).all (· < doorLimit s) },
  { cmd := .doorGetStats, code := 0x0705, params := [may tIndex, may tOffset], ready := fun b s => (num? tIndex b).all (· < doorLimit s) },
  { cmd := .secGet, code := 0x1501
    shows := fun _ s => [stU32 0 (boundaryCode s.sec.boundary), stU32 1 s.sec.selfTests, stU32 3 s.sec.generation, stU32 5 s.sec.minimum,
      stU32 6 s.sec.sessions.length] },
  { cmd := .cmdGet, code := 0x1601, params := [may tOffset], shows := fun _ s => [stU32 1 s.queueHigh, stU32 3 s.sec.discardedReplies, stU32 6 s.host.ignored] },
  { cmd := .cmdEcho, code := 0x1602, params := [must tData], ready := fun b _ => ((val? tData b).getD []).length ≤ 1984
    shows := fun b _ => [record ((val? tData b).getD [])] },
  { cmd := .pwrGet, code := 0x1701
    shows := fun _ s => [setU8 0 (b2n s.pwr.idleGating), setU8 1 (b2n s.pwr.lanePark), stU8 0 (b2n s.pwr.supplyOk), stU32 1 s.pwr.cause,
      stU8 2 (b2n s.pwr.warm), stU32 5 s.evr.pcc, stU32 6 s.evr.hours] },
  { cmd := .pnlGet, code := 0x1801, params := [may tOffset], allowed := (·.build.hub), shows := fun _ s => [stU8 0 (b2n s.pnl.lamp)] },
  { cmd := .pnlGetLog, code := 0x1803, params := [must tSeq], allowed := (·.build.hub)
    ready := fun b s => s.pnl.logSeq - s.pnl.log.length ≤ num tSeq b && num tSeq b < s.pnl.logSeq }]

/-! ### Opcodes that act at a frame -/

noncomputable def windowDeferrals : List Deferral := [
  { cmd := .frameSetGroup, code := 0x0103, params := fun _ => [must tFrame, must tGroupTag], allowed := isDie
    ready := fun b _ => byteAt ((val? tGroupTag b).getD []) 0 ≤ 63
    change := fun b _ => .group (BitVec.ofNat 32 (rd ((val? tGroupTag b).getD []) 4 4)) (byteAt ((val? tGroupTag b).getD []) 0) },
  { cmd := .winSetEnable, code := 0x0302, params := fun _ => [must tFrame, must tIndex, must tFlag]
    ready := fun b s => num tIndex b < portCount s && !flagBad b && (portAt (num tIndex b) s).state == 1
    object := fun b _ => num tIndex b, change := fun b _ => .winEnable (num tIndex b) (flag b) },
  { cmd := .ctrClear, code := 0x0402, params := fun _ => [must tFrame, must tRange], ready := fun b s => !rangesBad (ctrCount s) (ranges b)
    object := fun b _ => ((ranges b).headD (0, 0)).1 * 65536 + ((ranges b).headD (0, 0)).2, change := fun b _ => .ctrClear (ranges b) },
  { cmd := .senActivateTrim, code := 0x0504, params := fun _ => [must tFrame], ready := fun _ s => s.win.trimStaged.isSome, change := fun _ _ => .trim },
  { cmd := .pwrSet, code := 0x1702, params := fun _ => [must tFrame, setting 0 1, setting 1 1]
    ready := fun b _ => !((set? 0 b).any (1 < ·)) && !((set? 1 b).any (1 < ·))
    change := fun b s => .pwr (((set? 0 b).map (· == 1)).getD s.pwr.idleGating) (((set? 1 b).map (· == 1)).getD s.pwr.lanePark) },
  { cmd := .doorSet, code := 0x0702, params := fun _ => [must tFrame, must tIndex, setting 0 1, setting 1 4, setting 2 4]
    path := fun r s => !(isDie s && throughDoor r)
    ready := fun b s => !(set? 0 b).any (1 < ·) && num tIndex b < doorLimit s && !(set? 1 b).any (fun v => v < 1 || 255 < v) &&
      !(set? 2 b).any (fun v => v < 1 || 3600 < v) && !(set? 0 b == some 1 && (doorAt (num tIndex b) s).dir == 0)
    object := fun b _ => num tIndex b, change := fun b _ => .door (num tIndex b) ((set? 0 b).map (· == 1)) (set? 1 b) (set? 2 b) }]

def featureDeferrals : List Deferral := [
  { cmd := .redActivateCatalogue, code := 0x0602, params := fun s => if s.build.hub then [must tFrame, must tIndex] else [must tFrame]
    allowed := fun s => isDie s || treeTop s, ready := fun b s => (tfind (catKey (num tIndex b) s) s.catsStaged).isSome
    object := fun b s => catKey (num tIndex b) s, change := fun b s => .catalogue (catKey (num tIndex b) s) },
  { cmd := .feaActivateTable, code := 0x0802, params := fun _ => [must tFrame], ready := fun _ s => s.fea.staged.isSome, change := fun _ _ => .table },
  { cmd := .plnReset, code := 0x0902, params := fun _ => [must tFrame, may tIndex]
    ready := fun b s => !(num? tIndex b).any (· ≥ (s.fea.active.map (·.trackers.length)).getD 0)
    object := fun b _ => ((num? tIndex b).map (· + 1)).getD 0, change := fun b _ => .plnReset (num? tIndex b) },
  { cmd := .glenActivate, code := 0x0A02, params := fun _ => [must tFrame, must tVersion], rivals := [0x0A02, 0x0A03]
    ready := fun b s => pagesReady (num tVersion b) s
    change := fun b _ => .glenActivate (num tVersion b) },
  { cmd := .glenDeactivate, code := 0x0A03, params := fun _ => [must tFrame], rivals := [0x0A02, 0x0A03]
    ready := fun _ s => !s.glen.active.isEmpty, change := fun _ _ => .glenDeactivate },
  { cmd := .glenSetMode, code := 0x0A05, params := fun _ => [must tFrame, setting 0 4, setting 1 4, setting 2 4]
    ready := fun b _ => !((set? 0 b).getD 0 == 1 || (set? 0 b).getD 0 > 3) && (set? 1 b).getD 0 ≤ 65535 && (set? 2 b).getD 0 ≤ 65535
    change := fun b _ => .glenMode (set? 0 b) (set? 1 b) (set? 2 b) },
  { cmd := .glenSetStraggler, code := 0x0A06, params := fun _ => [must tFrame, setting 0 1, setting 1 4, setting 2 4, setting 3 4, setting 4 4]
    allowed := isDie
    ready := fun b s =>
      let o := s.glen.rule
      let margin : F32 := BitVec.ofNat 32 ((set? 2 b).getD o.margin.toNat)
      let k := (set? 3 b).getD o.k
      let n := (set? 4 b).getD o.n
      (set? 0 b).getD (b2n o.on) ≤ 1 && (set? 1 b).getD o.metric ≤ 1023 && k != 0 && k ≤ 16 && k ≤ n && n ≤ 16 && isFinite32 margin &&
        !(f32neg margin && f32mant margin != 0)
    change := fun b s =>
      let o := s.glen.rule
      .straggler { on := (set? 0 b).getD (b2n o.on) == 1, metric := (set? 1 b).getD o.metric
                   margin := BitVec.ofNat 32 ((set? 2 b).getD o.margin.toNat), k := (set? 3 b).getD o.k, n := (set? 4 b).getD o.n } }]

def probeDeferrals : List Deferral := [
  { cmd := .probeActivatePack, code := 0x0B02, params := fun _ => [must tFrame], allowed := isDie, ready := fun _ s => s.prb.staged.isSome
    change := fun _ _ => .pack },
  { cmd := .probeSet, code := 0x0B06, allowed := isDie
    params := fun _ => [must tFrame, setting 0 1, setting 1 160, setting 2 4, setting 3 4, setting 4 4, setting 5 4, setting 6 4, setting 7 160]
    ready := fun b s =>
      let p := givenProbes b s.prb.set
      !((set? 0 b).getD 0 > 1 || p.nominal.any (fun v => v == 0 || v > 65535) || p.target == 0 || p.target > 255 || p.background == 0 || p.background > 65535 || p.starve < 100 ||
        p.starve > 16777215 || p.retest < 100 || p.retest > 1000000 || p.conc == 0 || p.conc > 40) &&
        !p.neighbours.zipIdx.any fun q => q.1.any fun n => n > 39 || n == q.2
    change := fun b s => .probeSet (givenProbes b s.prb.set) },
  { cmd := .probeClearCoverage, code := 0x0B09, params := fun _ => [must tFrame], allowed := isDie, change := fun _ _ => .clearCoverage (List.range 40) },
  { cmd := .probeDisableTile, code := 0x0B0A, params := fun _ => [must tFrame, must tIndex], allowed := isDie, rivals := [0x0B0A, 0x0B0B]
    ready := fun b _ => num tIndex b ≤ 39, object := fun b _ => num tIndex b, change := fun b _ => .tileOn (num tIndex b) false },
  { cmd := .probeResumeTile, code := 0x0B0B, params := fun _ => [must tFrame, must tIndex], allowed := isDie, rivals := [0x0B0A, 0x0B0B]
    ready := fun b s => num tIndex b ≤ 39 && ((tileAt (num tIndex b) s).hung || (tileAt (num tIndex b) s).disabled)
    object := fun b _ => num tIndex b, change := fun b _ => .tileOn (num tIndex b) true }]

def traceDeferrals : List Deferral := [
  { cmd := .trcSet, code := 0x0E01
    params := fun _ => [must tFrame, setting 0 4, setting 1 64, setting 2 256, setting 3 4, setting 4 4, setting 5 4, setting 6 1, may (tSetting 7),
      setting 8 4, setting 9 4]
    ready := fun b s =>
      let t := givenTrace b s.trc.set
      let codes := ((val? (tSetting 7) b).getD []).length
      codes % 4 == 0 &&
        !(t.mode > 2 || t.prio.any (· > 3) || t.timeInt == 0 || t.timeInt > 65535 || t.sync < 256 || t.sync > 4096 || t.flush < 5 || t.flush > 1000 ||
          t.sources > 15 || codes > 32 || t.codes.any (!windowCode ·) || (set? 8 b).getD 0 > 1 || t.delay > 10000000) &&
        !(((val? (tSetting 1) b).getD []).any (fun (v : Byte) => v != 0 && v != 1) || (t.mode == trcLocal && s.build.hub) ||
          allSources.any (fun i => t.enable.getD i false && (srcAt i s).kind != 1)) && (t.mode == trcOff || traceBanksOn s)
    change := fun b s => .trcSet (givenTrace b s.trc.set) },
  { cmd := .trcSetHistory, code := 0x0E08, params := fun _ => [must tFrame, mustSetting 0 4], allowed := (·.build.hub)
    ready := fun b s => !s.trc.stopped && storeUsable s && (set? 0 b).getD 0 != 0 && (set? 0 b).getD 0 ≤ 720
    change := fun b _ => .history ((set? 0 b).getD 0) },
  { cmd := .wptSet, code := 0x0F01, params := fun _ => [must tFrame, many tIndex 32] ++ (List.range 6).map fun k => may (tSetting k), allowed := isDie
    ready := fun b s =>
      !((List.range 6).any fun k => match val? (tSetting k) b with
        | some v => v.length != (nums tIndex b).length * [1, 2, 8, 8, 1, 1].getD k 1
        | none => false) &&
        !(((val? (tSetting 0) b).getD []).any (fun (v : Byte) => v.toNat > 1) || (wptGiven b s).any (fun p => wptBad s p.2)) &&
        !(wptGiven b s).any (·.1 > 31)
    change := fun b s => .wptSet (wptGiven b s) },
  { cmd := .shutterSet, code := 0x1001, params := fun _ => [must tFrame, mustSetting 0 1], allowed := isDie, ready := fun b _ => (set? 0 b).getD 0 ≤ 31
    change := fun b _ => .shutSources ((set? 0 b).getD 0) },
  { cmd := .shutterSetHang, code := 0x1008, allowed := isDie
    params := fun _ => [must tFrame, mayMany tIndex 512, setting 0 4, setting 1 4, setting 2 2]
    ready := fun b s =>
      let o := s.sht.hang
      10 ≤ (set? 0 b).getD o.limit && (set? 0 b).getD o.limit ≤ 1000000 && (nums tIndex b).length ≤ 64 && !(nums tIndex b).any (· ≥ ctrCount s) &&
        (set? 1 b).getD o.action ≤ 2 && (set? 2 b).getD o.items < 512
    change := fun b s =>
      let o := s.sht.hang
      .hang { counters := nums tIndex b, limit := (set? 0 b).getD o.limit, action := (set? 1 b).getD o.action, items := (set? 2 b).getD o.items } },
  { cmd := .shutterActivateProgram, code := 0x100A, params := fun _ => [must tFrame], allowed := isDie, ready := fun _ s => s.sht.staged.isSome
    change := fun _ _ => .program },
  { cmd := .shutterSetArea, code := 0x100D, params := fun _ => [must tFrame, mustSetting 0 4], allowed := isTray
    ready := fun b s => s.sht.images.isEmpty && storeUsable s && (set? 0 b).getD 0 != 0 && (set? 0 b).getD 0 ≤ 32
    change := fun b _ => .area ((set? 0 b).getD 0) }]

noncomputable def securityDeferrals : List Deferral := [
  { cmd := .hshSetAudit, code := 0x1402, params := fun _ => [must tFrame, may tGroupTag, may tData], allowed := isRoot
    ready := fun b _ => ((val? tData b).getD []).length ≤ 64 && (val? tGroupTag b).isSome && (val? tData b).isSome
    change := fun b _ => .seeds (BitVec.ofNat 32 (rd ((val? tGroupTag b).getD []) 4 4)) ((val? tData b).getD []) },
  { cmd := .hshSetAudit, code := 0x1402, params := fun _ => [must tFrame, setting 0 16, setting 1 64, setting 2 5, setting 3 8], allowed := isDie
    ready := fun b s => (val? tData b).isNone && !(set? 3 b).any (· ≤ num tFrame b) && !(givenAudit b s).any (fun p => p.2 > 4095) &&
      !(givenAudit b s).any fun p => p.1 > 3 || (p.1 != 0 && !isStream p.2 s)
    change := fun b s => .audit { roles := givenAudit b s, tiles := (set? 2 b).getD s.aud.set.tiles, seal_ := set? 3 b } },
  { cmd := .secHandover, code := 0x1508, auth := authUpdate, params := fun _ => [must tFrame, may tChoice]
    ready := fun b s => (val? tChoice b).isNone && !handoverBad s, change := fun _ _ => .handover },
  { cmd := .secHandover, code := 0x1508, auth := authUpdate, params := fun _ => [must tFrame, may tChoice], allowed := (·.build.hub)
    ready := fun b s => (val? tChoice b).isSome && choice b == 1 && s.mem.fw.dieStaged, object := fun _ _ => 1, change := fun _ _ => .dieBoot }]

/-! ### Opcodes that act at once -/

/-- The servo settings that TIME.SET_SERVO asks for: those it leaves out stand as last accepted. -/
def givenServo (b : List Tlv) (s : State) : Servo :=
  let v := s.time.servoNext.getD s.time.servo
  { interval := (set? 0 b).getD v.interval, delayLimit := (set? 1 b).getD v.delayLimit, stability := (set? 2 b).getD v.stability
    holdLimit := (set? 3 b).getD v.holdLimit
    stretch := match (set? 4 b).map fp32Of with | some x => (stretchOf x).getD 0 | none => v.stretch
    slew := match (set? 5 b).map fp32Of with | some x => ratOf32 x | none => v.slew }

noncomputable def timeImmediates : List Immediate := [
  { cmd := .timeSet, code := 0x0202, params := fun _ => [must tTime]
    ready := fun r s => s.time.parent.isNone && (s.time.lock == 0 || s.time.lock == 3) && stampOk ((val? tTime r.body).getD [])
    effect := fun r s => changeTime (stampTime ((val? tTime r.body).getD [])) s },
  { cmd := .timeSetSource, code := 0x0203, params := fun _ => [setting 0 4, setting 1 4], allowed := isRoot
    ready := fun r s =>
      let cur := s.time.sourceNext.getD (s.time.source, s.time.ptp.domain)
      (set? 0 r.body).getD cur.1 ≤ 2 && (set? 1 r.body).getD cur.2 ≤ 127
    effect := fun r s =>
      let cur := s.time.sourceNext.getD (s.time.source, s.time.ptp.domain)
      { s with time := { s.time with sourceNext := some ((set? 0 r.body).getD cur.1, (set? 1 r.body).getD cur.2) } } },
  { cmd := .timeSetTod, code := 0x0204, params := fun _ => [mustSetting 0 8], ready := fun _ s => isRoot s && s.time.source == 1
    effect := fun r s => { s with time := { s.time with tod := set? 0 r.body } } },
  { cmd := .timeSetCal, code := 0x0205, params := fun _ => [may tIndex, setting 0 4, setting 1 4, setting 2 4, setting 3 4]
    ready := fun r s =>
      let b := r.body
      let small (v : Option Nat) : Bool := (v.map (signed 32)).all fun x => decide (-32768 ≤ x) && decide (x ≤ 32767)
      ((set? 0 b).isNone || ((num? tIndex b).isSome && configured (num tIndex b) s)) && small (set? 0 b) && small (set? 3 b) &&
        (set? 1 b).getD 0 ≤ u16Max && (set? 2 b).getD 0 ≤ u16Max
    effect := fun r s =>
      let b := r.body
      let cur := s.time.delaysNext.getD (s.time.txDelay, s.time.rxDelay, s.time.cable)
      let named := (set? 1 b).isSome || (set? 2 b).isSome || (set? 3 b).isSome
      { s with time := { s.time with
          calNext := match set? 0 b with | some a => tput (num tIndex b) (signed 32 a) s.time.calNext | none => s.time.calNext
          delaysNext := if named then some ((set? 1 b).getD cur.1, (set? 2 b).getD cur.2.1, ((set? 3 b).map (signed 32)).getD cur.2.2) else s.time.delaysNext } } },
  { cmd := .timeSetServo, code := 0x0206, params := fun _ => [setting 0 4, setting 1 4, setting 2 4, setting 3 4, setting 4 4, setting 5 4]
    ready := fun r s =>
      let b := r.body
      ((set? 0 b).isNone || s.build.hub) && ((set? 3 b).isNone || !isRoot s) && ((set? 5 b).isNone || isRoot s) &&
        ((set? 5 b).map fp32Of).all (fun x => isFinite32 x) && servoOk (givenServo b s)
    effect := fun r s => { s with time := { s.time with servoNext := some (givenServo r.body s) } } },
  { cmd := .timeSetUtc, code := 0x0207, params := fun _ => [setting 0 4, setting 1 1, setting 2 1, setting 3 1], allowed := isPrimary
    ready := fun r s =>
      let b := r.body
      let cur := s.time.utcNext.getD (s.time.utc, s.time.utcValid, s.time.leap59, s.time.leap61)
      let off := ((set? 0 b).map (signed 32)).getD cur.1
      !([1, 2, 3].any fun i => (set? i b).getD 0 > 1) && decide (-32768 ≤ off) && decide (off ≤ 32767)
    effect := fun r s =>
      let b := r.body
      let cur := s.time.utcNext.getD (s.time.utc, s.time.utcValid, s.time.leap59, s.time.leap61)
      let on (i : Nat) (c : Bool) : Bool := ((set? i b).map (· == 1)).getD c
      { s with time := { s.time with utcNext := some (((set? 0 b).map (signed 32)).getD cur.1, on 1 cur.2.1, on 2 cur.2.2.1, on 3 cur.2.2.2) } } }]

noncomputable def reportImmediates : List Immediate := [
  { cmd := .errSetRoute, code := 0x0C01, params := fun _ => [must tChoice], allowed := fun s => !isRoot s
    ready := fun r s => if isDie s then choice r.body ≤ 1 else 2 ≤ choice r.body && choice r.body ≤ 3
    effect := fun r s => if (choice r.body % 2 == 1) == s.err.fleet then s else resendAll { s with err := { s.err with fleet := choice r.body % 2 == 1 } } },
  { cmd := .errInject, code := 0x0C05, params := fun _ => [must tChoice, must tEntity, must tData]
    ready := fun r _ => 0x80 ≤ choice r.body && ((val? tData r.body).getD []).length == 12 && allZero (((val? tData r.body).getD []).drop 10)
    effect := fun r s =>
      raiseOwn (choice r.body) (choice r.body % 4) 0 (num tEntity r.body) (entityKind (num tEntity r.body) 0 s) ((val? tData r.body).getD []) s },
  { cmd := .errSetExport, code := 0x0C06, params := fun _ => [may tEndpoint, setting 0 4, setting 1 4, setting 2 4, setting 3 4]
    allowed := (·.build.hub)
    ready := fun r s =>
      let b := r.body
      let v (k : Nat) : Nat := byteAt ((val? (tSetting 1) b).getD []) k
      v 0 ≤ 1 && v 1 ≤ 1 && v 2 ≤ 2 && v 3 ≤ 1 && 1 ≤ (set? 2 b).getD s.exp.decimation && (set? 2 b).getD s.exp.decimation ≤ 65535 &&
        1 ≤ (set? 3 b).getD s.exp.period && (set? 3 b).getD s.exp.period ≤ 16777215
    effect := fun r s =>
      let b := r.body
      let v (k : Nat) : Nat := byteAt ((val? (tSetting 1) b).getD []) k
      let en := (val? (tSetting 1) b).isSome
      { s with exp := { s.exp with
          collector := match val? tEndpoint b with | some e => ⟨slice e 0 16, rd e 16 2⟩ | none => s.exp.collector
          session := (set? 0 b).getD s.exp.session, decimation := (set? 2 b).getD s.exp.decimation, period := (set? 3 b).getD s.exp.period
          enables := if en then v 0 + 2 * v 1 + 4 * min 1 (v 2) + 8 * v 3 else s.exp.enables
          failingOnly := if en then v 2 != 2 else s.exp.failingOnly } } },
  { cmd := .trcTrigger, code := 0x0E03, params := fun s => if s.build.hub then [may tTime] else [], allowed := fun s => isDie s || isTray s
    ready := fun _ s => isDie s, effect := fun _ s => takeTrigger trgCommand 0 s },
  { cmd := .trcTrigger, code := 0x0E03, params := fun s => if s.build.hub then [may tTime] else [], allowed := fun s => isDie s || isTray s
    ready := fun r s => !isDie s && (val? tTime r.body).isNone
    effect := fun _ s => trayTrigger s.trc.set.delay s },
  { cmd := .trcTrigger, code := 0x0E03, params := fun s => if s.build.hub then [may tTime] else [], allowed := fun s => isDie s || isTray s
    ready := fun r s => !isDie s && (val? tTime r.body).any fun v => stampOk v && decide (s.time.now < stampTime v)
    effect := fun r s => { s with trc := { s.trc with
      trayAt := insertBy (fun (a b : Nat) => decide (a < b)) (stampTime ((val? tTime r.body).getD [])) s.trc.trayAt } } },
  { cmd := .trcArm, code := 0x0E04
    effect := fun _ s =>
      let u := if s.trc.set.mode == trcLocal then traceBeforeStep s else s
      let v := { u with trc := { u.trc with stopped := false }, wpt := { u.wpt with points := u.wpt.points.map fun p => { p with trigSpent := false } } }
      if v.trc.set.mode == trcLocal then syncAll syncStart v else v },
  { cmd := .wptEnableData, code := 0x0F03, auth := authCapture, params := fun _ => [must tFrame], allowed := isDie
    ready := fun r s => traceBanksOn s && decide (curFrame s < num tFrame r.body) && decide (num tFrame r.body ≤ curFrame s + 3600000)
    effect := fun r s =>
      let u := match s.wpt.auth with
        | some (k, _) => if k == r.session then s else endCapture s
        | none => s
      { u with wpt := { u.wpt with auth := some (r.session, num tFrame r.body) } } },
  { cmd := .wptDisableData, code := 0x0F04, allowed := isDie, ready := fun _ s => s.wpt.auth.isSome, effect := fun _ s => endCapture s }]

/-- The door to which a hub's cut at a time goes, and what it adds to the state. -/
def armedCut (b : List Tlv) (s : State) : Nat × State :=
  let ts := vals tTime b
  let u := setSht (fun x => { x with cutCount := x.cutCount + 1 }) s
  hubArm { op := 0, serial := BitVec.ofNat 32 (hubAddr s * 65536 + (s.sht.cutCount + 1) % 65536), stop := stampOfBytes (ts.getD 0 [])
           mode := choice b, resume := (ts[1]?).map stampOfBytes } (stampTime (ts.getD 0 [])) ((val? tMask b).map maskBits) [] u

/-- The times of a timed stop: stamps, the stop at least the lead time away, the resume at least the lead time after the stop (R313). -/
def timesOk (b : List Tlv) (s : State) : Bool :=
  let ts := vals tTime b
  let t := stampTime (ts.getD 0 [])
  choice b ≤ 2 && !ts.any (!stampOk ·) && decide (s.time.now + leadUnits ≤ t) && ((ts[1]?).map stampTime).all fun u => decide (t + leadUnits ≤ u)

/-- A resume time, if any, is a stamp at least the lead time away. -/
def resumeOk (b : List Tlv) (s : State) : Bool := (val? tTime b).all fun v => stampOk v && decide (s.time.now + leadUnits ≤ stampTime v)

noncomputable def shutterImmediates : List Immediate := [
  { cmd := .shutterStop, code := 0x1002, params := fun _ => [must tChoice], allowed := isDie
    ready := fun r s => choice r.body ≤ 2 && bit s.sht.sources (if r.path == .host then causeHost else causeNetwork) &&
      (sameEdgeStop s || s.sht.state == shIdle || s.sht.state == shArmed)
    effect := fun r s => (immediateStop (if r.path == .host then causeHost else causeNetwork) (choice r.body) s).2 },
  { cmd := .shutterArmTimed, code := 0x1003, params := fun s => [many tTime 2, must tChoice] ++ (if isTray s then [may tMask] else [])
    ready := fun r s => isDie s && timesOk r.body s && bit s.sht.sources causeTimed && s.sht.state == shIdle
    effect := fun r s =>
      let ts := vals tTime r.body
      setSht (fun x => { x with state := shArmed, arm := some ⟨0, stampTime (ts.getD 0 []), choice r.body, (ts[1]?).map stampTime⟩ }) s },
  { cmd := .shutterArmTimed, code := 0x1003, params := fun s => [many tTime 2, must tChoice] ++ (if isTray s then [may tMask] else [])
    ready := fun r s => !isDie s && timesOk r.body s
    reply := fun r s => [stU32 0 (BitVec.ofNat 32 (hubAddr s * 65536 + (s.sht.cutCount + 1) % 65536)).toNat, stU32 1 (armedCut r.body s).1]
    effect := fun r s => (armedCut r.body s).2 },
  { cmd := .shutterCancelTimed, code := 0x1004, params := fun _ => [must tSerial]
    ready := fun r s => isDie s && s.sht.state == shArmed &&
      s.sht.arm.any fun a => a.serial == BitVec.ofNat 32 (num tSerial r.body) && decide (s.time.now < a.at_)
    effect := fun r s => reportOutcome (BitVec.ofNat 32 (num tSerial r.body)) 5 (setSht (fun x => { x with state := shIdle, arm := none }) s) },
  { cmd := .shutterCancelTimed, code := 0x1004, params := fun _ => [must tSerial]
    ready := fun r s => !isDie s && (s.sht.cuts.find? (·.serial == BitVec.ofNat 32 (num tSerial r.body))).any fun c => decide (s.time.now < c.at_)
    effect := fun r s => forwardCut { op := 1, serial := BitVec.ofNat 32 (num tSerial r.body), stop := ⟨0, 0, 0⟩, mode := 0, resume := none } (cutDoors none s) s },
  { cmd := .shutterScan, code := 0x1005, params := fun _ => [must tChoice], allowed := isDie
    ready := fun r s => (s.sht.state == shStopped || s.sht.state == shScanned) && (liveAt 0 s || traceBanksOn s) &&
      (choice r.body == 1 || (choice r.body == 2 && s.sht.stopRec.resume.isNone))
    effect := fun r s => beginScan (choice r.body) s },
  { cmd := .shutterAbortScan, code := 0x1006, allowed := isDie, ready := fun _ s => s.sht.state == shScanning
    effect := fun _ s => setSht (fun x => { x with aborting := true }) s },
  { cmd := .shutterResume, code := 0x1007, params := fun s => [may tTime] ++ (if s.build.hub then [must tSerial] else [])
    ready := fun r s => s.build.hub && resumeOk r.body s && s.sht.cuts.any (·.serial == BitVec.ofNat 32 (num tSerial r.body))
    effect := fun r s => forwardCut { op := 2, serial := BitVec.ofNat 32 (num tSerial r.body), stop := ⟨0, 0, 0⟩, mode := 0
                                      resume := (val? tTime r.body).map stampOfBytes } (cutDoors none s) s },
  { cmd := .shutterResume, code := 0x1007, params := fun s => [may tTime] ++ (if s.build.hub then [must tSerial] else [])
    ready := fun r s => !s.build.hub && resumeOk r.body s && (s.sht.state == shStopped || s.sht.state == shScanned)
    effect := fun r s => resume ((val? tTime r.body).map stampTime) s },
  { cmd := .shutterReleaseImage, code := 0x1010, params := fun _ => [may tChoice, must tUnit, must tSerial], allowed := isTray
    ready := fun r s => storeUsable s && (findIdx (imageNamed r.body) s.sht.images).isSome
    effect := fun r s => setSht (fun x => { x with images := x.images.eraseIdx ((findIdx (imageNamed r.body) s.sht.images).getD 0) }) s }]

/-- SRM.SET_BANK may change these banks to this state (R348 and R350), and no change is under way. -/
def banksFree (banks : List Nat) (target : Nat) (s : State) : Bool :=
  banks.all (fun b => !neverBank s.build.hub b && b < s.mem.banks.length && (target == 0 || mayLeaveOn b s)) && target ≤ 2 && s.mem.bankReply.isNone

noncomputable def unitImmediates : List Immediate := [
  { cmd := .evrClear, code := 0x1203, auth := authClear, ready := fun _ s => !s.evr.clearing
    reply := fun _ s => [stU64 0 s.evr.base, stU64 1 s.evr.head], effect := fun _ s => { s with evr := { s.evr with clearing := true, clearAt := s.pwr.cycles } } },
  { cmd := .evrClearMirror, code := 0x1206, auth := authClear, params := fun _ => [many tUnit 128], allowed := (·.build.hub)
    ready := fun r s => !((nums tUnit r.body).map (logKey · s)).any (·.isNone)
    effect := fun r s => { s with mem := { s.mem with logs := s.mem.logs.map fun p =>
      if ((nums tUnit r.body).map (logKey · s)).contains (some p.1) then (p.1, { p.2 with entries := [], refused := 0, written := 0 }) else p } } },
  { cmd := .pnlSetLed, code := 0x1802, params := fun _ => [may tMask, setting 0 4, setting 1 1], allowed := (·.build.hub)
    ready := fun r s =>
      let b := r.body
      !(set? 0 b).any (4 < ·) && !(set? 1 b).any (1 < ·) && (val? tMask b).isSome == (set? 0 b).isSome &&
        !(maskBits ((val? tMask b).getD [])).any (s.pnl.cages.length ≤ ·)
    effect := fun r s =>
      let b := r.body
      let u := match set? 0 b with
        | some m => (maskBits ((val? tMask b).getD [])).foldl (fun s c => setCage c (fun g => { g with led := m }) s) s
        | none => s
      match set? 1 b with
        | some v => { u with pnl := { u.pnl with lamp := v == 1 } }
        | none => u },
  { cmd := .doorRetrain, code := 0x0703, params := fun _ => [must tIndex]
    ready := fun r s => num tIndex r.body < doorLimit s && !((doorEnds (num tIndex r.body) s).all fun e => (doorAt e s).state == .off)
    effect := fun r s => (doorEnds (num tIndex r.body) s).foldl (fun s e => retrainNow e s) s },
  { cmd := .doorClearQuarantine, code := 0x0704, params := fun _ => [must tIndex]
    ready := fun r s => num tIndex r.body < doorLimit s && !((doorEnds (num tIndex r.body) s).all fun e => !(doorAt e s).quarantined)
    effect := fun r s => (doorEnds (num tIndex r.body) s).foldl (fun s e =>
      if (doorAt e s).quarantined then trainIfFree e (setDoor e (fun x => { x with quarantined := false }) s) else s) s },
  { cmd := .probeEndPush, code := 0x0B04, allowed := (·.build.hub), ready := fun _ s => s.prb.pushes.any (!·.ended)
    effect := fun _ s => setPrb (fun x => { x with pushes := x.pushes.map fun p => { p with ended := true } }) s },
  { cmd := .srmSetBank, code := 0x1302, params := fun _ => [many tIndex 256, must tChoice]
    ready := fun r s => banksFree (nums tIndex r.body) (choice r.body) s && (nums tIndex r.body).all fun b => s.mem.banks.getD b 0 == choice r.body
    effect := fun _ s => s },
  { cmd := .secStageFirmware, code := 0x1507, auth := authUpdate, params := fun _ => [may tChoice, may tPiece]
    ready := fun r s => isDie s && (val? tChoice r.body).any (byteAt · 0 == 0) && (val? tPiece r.body).isNone && !firmwareBusy s && liveAt 0 s
    effect := fun _ s => requestBoot (setSec (fun x => { x with fetching := true }) s) }]

/-! ### Opcodes that are answered when their work ends -/

noncomputable def starters : List Immediate := [
  { cmd := .probeRun, code := 0x0B0C, params := fun _ => [many tIndex 2], allowed := isDie
    ready := fun r s => (nums tIndex r.body).length == 2 && (nums tIndex r.body).getD 0 0 ≤ 39 && s.prb.active.isSome &&
      (tileAt ((nums tIndex r.body).getD 0 0) s).order.isNone && (probeIndex ((nums tIndex r.body).getD 1 0) s).isSome
    effect := fun r s => setTile ((nums tIndex r.body).getD 0 0) (fun x => { x with order := some ((nums tIndex r.body).getD 1 0, r, curFrame s + b2n s.prb.window) }) s },
  { cmd := .srmSetBank, code := 0x1302, params := fun _ => [many tIndex 256, must tChoice]
    ready := fun r s => banksFree (nums tIndex r.body) (choice r.body) s && (nums tIndex r.body).any fun b => s.mem.banks.getD b 0 != choice r.body
    effect := fun r s =>
      let ch := (dedup (nums tIndex r.body)).filter fun b => s.mem.banks.getD b 0 != choice r.body
      { s with mem := { s.mem with banks := ch.foldl (fun l b => modifyAt b (fun _ => 3) l) s.mem.banks
                                   changing := ch.map fun b => (b, s.mem.banks.getD b 0, choice r.body), bankReply := some (r, ch) } } },
  { cmd := .secSelfTest, code := 0x1506
    effect := fun r s => setSec (fun x => { x with boundary := .selfTest, selfTests := 0, testReply := some r }) s }]

/-! ### Opcodes that take an image in pieces -/

/-- An opcode that stages an image: its slot, and what it makes of the whole image. `later` says that it is answered when its
work ends, as the rest of the meaning says. -/
structure Stager where
  cmd : Request → Instr
  code : Nat
  auth : Nat := authOperate
  params : State → List Param := fun _ => [must tPiece]
  allowed : State → Bool := fun _ => true
  ready : List Tlv → State → Bool := fun _ _ => true
  slot : List Tlv → State → Slot
  whole : List Tlv → Bytes → State → Reply × State

def Stager.meets (x : Stager) (r : Request) (s : State) : Bool :=
  passes { code := x.code, auth := x.auth, params := x.params (taken r s) } (x.allowed (taken r s)) r (taken r s) && x.ready r.body (taken r s)

/-- The PIECE of a request: the image's size, the piece's offset and its bytes (R392). -/
def pieceOf (b : List Tlv) : Nat × Nat × Bytes :=
  let v := (val? tPiece b).getD []
  (rd v 0 4, rd v 4 4, v.drop 8)

/-- The assembly in a slot. -/
def assemblyOf (key : Nat) (s : State) : Option Assembly := s.asm.find? (·.slot == key)

def withAssembly (key : Nat) (a : Option Assembly) (s : State) : State := { s with asm := s.asm.filter (·.slot != key) ++ a.toList }

/-- A piece at offset 0 that the slot takes: not BUSY, within the slot, 64 B of a larger image, no duplicate, none of another
engine or group (Table CMD-6). -/
def opens (k : Slot) (b : List Tlv) : Bool :=
  let p := pieceOf b
  p.2.1 == 0 && !k.busy && p.1 ≤ k.limit && (64 ≤ p.2.2.length || p.1 < 64) && !k.dup && !k.mismatch

/-- A piece at the offset that the session's assembly has reached. -/
def continues (k : Slot) (session : Nat) (b : List Tlv) (s : State) : Bool :=
  let p := pieceOf b
  p.2.1 != 0 && (assemblyOf k.key s).any fun a => a.session == session && a.total == p.1 && a.bytes.length == p.2.1

/-- The first of several pieces empties the slot and starts its assembly; the reply says how many bytes it holds. -/
def Stager.Opens (x : Stager) : Prop :=
  ∀ (r : Request) (s : State), let t := taken r s; let k := x.slot r.body t; let p := pieceOf r.body
    x.meets r s = true → opens k r.body = true → p.2.2.length < p.1 → (val? tFrame r.body).isNone = true →
    exec (x.cmd r) s = .next (finish x.code r (okay [stU32 0 p.2.2.length], withAssembly k.key (some ⟨k.key, r.session, p.1, p.2.2⟩) k.cleared))

/-- A later piece, but for the last, grows it. -/
def Stager.Continues (x : Stager) : Prop :=
  ∀ (r : Request) (s : State) (a : Assembly), let t := taken r s; let k := x.slot r.body t; let p := pieceOf r.body
    x.meets r s = true → continues k r.session r.body t = true → p.2.1 + p.2.2.length < p.1 → (val? tFrame r.body).isNone = true →
    assemblyOf k.key t = some a →
    exec (x.cmd r) s = .next (finish x.code r (okay [stU32 0 (p.2.1 + p.2.2.length)],
      withAssembly k.key (some ⟨k.key, r.session, p.1, a.bytes ++ p.2.2⟩) t))

/-- The last piece ends the assembly, and the opcode checks and stages the whole image. -/
def Stager.Ends (x : Stager) : Prop :=
  ∀ (r : Request) (s : State) (a : Assembly), let t := taken r s; let k := x.slot r.body t; let p := pieceOf r.body
    x.meets r s = true → continues k r.session r.body t = true → p.2.1 + p.2.2.length = p.1 → assemblyOf k.key t = some a →
    exec (x.cmd r) s = .next (finish x.code r (x.whole r.body (a.bytes ++ p.2.2) (withAssembly k.key none t)))

/-- A FRAME in the last piece asks for an activation at a frame; here it is still to come. -/
def frameAhead (b : List Tlv) (s : State) : Bool := (num? tFrame b).all fun f => decide (curFrame s < f)

noncomputable def stagers : List Stager := [
  { cmd := .senStageTrim, code := 0x0503
    slot := fun _ s => { key := 0x0503, limit := 5056, busy := (pendOf 0x0504 0 s).isSome, cleared := { s with win := { s.win with trimStaged := none } } }
    whole := fun _ img s => stageTrim img s },
  { cmd := .redStageCatalogue, code := 0x0601, params := fun s => if s.build.hub then [must tIndex, must tPiece] else [must tPiece]
    allowed := fun s => isDie s || treeTop s
    slot := fun b s => { key := 0x0601 + 65536 * catKey (num tIndex b) s, limit := 16544
                         busy := if isDie s then s.pend.any (·.opcode == 0x0602) else (pendOf 0x0602 (num tIndex b) s).isSome
                         mismatch := s.build.hub && (openingPiece b).length ≥ 1 && byteAt (openingPiece b) 0 != num tIndex b
                         cleared := { s with catsStaged := tdel (catKey (num tIndex b) s) s.catsStaged } }
    whole := fun _ img s => stageCatalogue img s },
  { cmd := .feaStageTable, code := 0x0801
    slot := fun _ s => { key := 0x0801, limit := 65536, busy := (pendOf 0x0802 0 s).isSome, cleared := { s with fea := { s.fea with staged := none } } }
    whole := fun _ img s => stageTable img s },
  { cmd := .glenStagePage, code := 0x0A01, params := fun s => if s.build.hub then [must tIndex, must tPiece] else [must tPiece]
    ready := fun _ s => stagingReady s
    slot := fun b s => { key := 0x0A01 + 65536 * num tIndex b, limit := pageLimit s, busy := (pendOf 0x0A02 0 s).isSome || (pendOf 0x0A03 0 s).isSome
                         mismatch := s.build.hub && (openingPiece b).length ≥ 8 && bits (byteAt (openingPiece b) 7) 0 3 != num tIndex b
                         cleared := { s with glen := { s.glen with staged := if s.build.hub then s.glen.staged.filter (·.engine != num tIndex b) else [] } } }
    whole := fun _ img s => stagePage img s },
  { cmd := .shutterStageProgram, code := 0x1009, allowed := isDie
    slot := fun _ s => { key := 0x1009, limit := 131072, busy := (pendOf 0x100A 0 s).isSome || s.sht.state == shScanning
                         cleared := setSht (fun x => { x with staged := none }) s }
    whole := fun _ img s =>
      if (pendOf 0x100A 0 s).isSome || s.sht.state == shScanning then (refuse stBusy, s) else
      match checkProgram img s with
      | .error e => (refuse e, s)
      | .ok p => (okay [], setSht (fun x => { x with staged := some p }) s) },
  { cmd := .probePushPack, code := 0x0B03, params := fun _ => [may tFrame, must tPiece], allowed := (·.build.hub)
    slot := fun b s => { key := 0x0B03, limit := packLimit
                         dup := (openingPiece b).length ≥ 64 && pushing (packHash (openingPiece b)) s, cleared := s }
    whole := fun b img s =>
      if !storeUsable s then (refuse stState, s)
      else if !frameAhead b s then (refuse stRange, s)
      else if img.length < 192 || !verified 3 img s then (refuse stSig, s)
      else (okay [], startPush none (num? tFrame b) img s) },
  { cmd := .secStageFirmware, code := 0x1507, auth := authUpdate, params := fun _ => [may tChoice, may tPiece]
    ready := fun b _ => (val? tChoice b).isNone && (val? tPiece b).isSome
    slot := fun _ s => { key := 0x1507, limit := firmwareLimit, busy := firmwareBusy s, cleared := putSlot (stagingSlot s) {} s }
    whole := fun _ img s =>
      if firmwareBusy s then (refuse stBusy, s) else
      match checkFirmware s.build.hub img s with
      | some e => (refuse e, s)
      | none => (okay [], storeFirmware false img s) },
  { cmd := .secStageFirmware, code := 0x1507, auth := authUpdate, params := fun _ => [may tChoice, may tPiece]
    ready := fun b s => s.build.hub && (val? tChoice b).any (byteAt · 0 == 1) && (val? tPiece b).isSome && storageUsable s
    slot := fun _ s => { key := 0x1507 + 65536, limit := firmwareLimit, busy := firmwareBusy s
                         cleared := setFw (fun f => { f with die := modifyAt (1 - f.dieActive) (fun _ => []) f.die, dieStaged := false }) s }
    whole := fun _ img s =>
      if firmwareBusy s then (refuse stBusy, s) else
      match checkFirmware false img s with
      | some e => (refuse e, s)
      | none => (okay [], storeFirmware true img s) }]

/-- The two whose whole image is answered later: an installed pack when its compressed part is unpacked, a codec test when
its job has ended. -/
noncomputable def laterStagers : List Stager := [
  { cmd := .probeInstallPack, code := 0x0B01, params := fun _ => [may tFrame, must tPiece], allowed := isDie
    slot := fun b s => { key := 0x0B01, limit := packLimit, busy := packBusy s
                         dup := (openingPiece b).length ≥ 64 && packHeld (packHash (openingPiece b)) s
                         cleared := setPrb (fun x => { x with staged := none }) s }
    whole := fun _ _ s => (okay [], s) },
  { cmd := .cdcTest, code := 0x1102, params := fun _ => [may tChoice, may tOffset, mayMany tFlag 4, may tPiece, setting 0 4, setting 1 4]
    ready := fun b _ => (val? tPiece b).isSome && (val? tOffset b).isNone
    slot := fun _ s => { key := 0x1102, limit := 16384 + stateSize, busy := s.cdc.test.isSome, cleared := s }
    whole := fun _ _ s => (okay [], s) }]

/-! ### All opcodes that are answered at once, but for those that take an image in pieces -/

noncomputable def answeredOpcodes : List ((Request → Instr) × Nat) := [
  (.frameSet, 0x0101), (.frameGet, 0x0102), (.frameSetGroup, 0x0103), (.frameGetStats, 0x0104), (.frameGetPresence, 0x0105),
  (.frameGetContribution, 0x0106), (.timeGet, 0x0201), (.timeSet, 0x0202), (.timeSetSource, 0x0203), (.timeSetTod, 0x0204), (.timeSetCal, 0x0205),
  (.timeSetServo, 0x0206), (.timeSetUtc, 0x0207), (.timeStepRoot, 0x0208), (.winGet, 0x0301), (.winSetEnable, 0x0302), (.winGetStream, 0x0303),
  (.ctrRead, 0x0401), (.ctrClear, 0x0402), (.ctrGetMap, 0x0403), (.senRead, 0x0501), (.senGet, 0x0502), (.senActivateTrim, 0x0504),
  (.redActivateCatalogue, 0x0602), (.redGetCatalogue, 0x0603), (.redGetSummary, 0x0604), (.redGetReturned, 0x0605), (.redTest, 0x0606),
  (.redGetCheck, 0x0607), (.doorGet, 0x0701), (.doorSet, 0x0702), (.doorRetrain, 0x0703), (.doorClearQuarantine, 0x0704), (.doorGetStats, 0x0705),
  (.feaActivateTable, 0x0802), (.feaGetTable, 0x0803), (.feaGetVector, 0x0804), (.plnRead, 0x0901), (.plnReset, 0x0902), (.plnGetAlarms, 0x0903),
  (.glenActivate, 0x0A02), (.glenDeactivate, 0x0A03), (.glenGet, 0x0A04), (.glenSetMode, 0x0A05), (.glenSetStraggler, 0x0A06), (.glenEval, 0x0A07),
  (.glenTestLink, 0x0A08), (.glenGetFindings, 0x0A09), (.glenGetHistory, 0x0A0A), (.probeActivatePack, 0x0B02), (.probeEndPush, 0x0B04),
  (.probeGetPush, 0x0B05), (.probeSet, 0x0B06), (.probeGet, 0x0B07), (.probeGetCoverage, 0x0B08), (.probeClearCoverage, 0x0B09),
  (.probeDisableTile, 0x0B0A), (.probeResumeTile, 0x0B0B), (.errSetRoute, 0x0C01), (.errFetch, 0x0C02), (.errGet, 0x0C03), (.errReadRing, 0x0C04),
  (.errInject, 0x0C05), (.errSetExport, 0x0C06), (.errGetSignatures, 0x0C07), (.psnGetBirths, 0x0D01), (.psnGetCounts, 0x0D02), (.trcSet, 0x0E01),
  (.trcGet, 0x0E02), (.trcTrigger, 0x0E03), (.trcArm, 0x0E04), (.trcGetTriggers, 0x0E05), (.trcRead, 0x0E06), (.trcReadHistory, 0x0E07),
  (.trcSetHistory, 0x0E08), (.trcGetStats, 0x0E09), (.wptSet, 0x0F01), (.wptGet, 0x0F02), (.wptEnableData, 0x0F03), (.wptDisableData, 0x0F04),
  (.wptReadCapture, 0x0F05), (.shutterSet, 0x1001), (.shutterStop, 0x1002), (.shutterArmTimed, 0x1003), (.shutterCancelTimed, 0x1004),
  (.shutterScan, 0x1005), (.shutterAbortScan, 0x1006), (.shutterResume, 0x1007), (.shutterSetHang, 0x1008), (.shutterActivateProgram, 0x100A),
  (.shutterGet, 0x100B), (.shutterGetCut, 0x100C), (.shutterSetArea, 0x100D), (.shutterListImages, 0x100E), (.shutterReadImage, 0x100F),
  (.shutterReleaseImage, 0x1010), (.shutterReadScan, 0x1011), (.cdcGet, 0x1101), (.evrRead, 0x1201), (.evrGet, 0x1202), (.evrClear, 0x1203),
  (.evrReadMirror, 0x1204), (.evrGetMirror, 0x1205), (.evrClearMirror, 0x1206), (.srmGet, 0x1301), (.srmGetMap, 0x1303), (.hshGet, 0x1401),
  (.hshSetAudit, 0x1402), (.hshGetDigest, 0x1403), (.hshGetJobDigest, 0x1404), (.secGet, 0x1501), (.secGetCert, 0x1502), (.secOpenSession, 0x1503),
  (.secCloseSession, 0x1504), (.secRotateKey, 0x1505), (.secHandover, 0x1508), (.cmdGet, 0x1601), (.cmdEcho, 0x1602), (.pwrGet, 0x1701),
  (.pwrSet, 0x1702), (.pnlGet, 0x1801), (.pnlSetLed, 0x1802), (.pnlGetLog, 0x1803)]

end Sys2Proof.Machine
end

