-- ==== Sys2Proof/Certificates/Slice0/Obligations.lean ====
section
/-! DEFINITION. The statements for the provers. "The model's choice" in a docstring means that the clause rests on a log
entry, not on a rule of the spec. -/
open Sys2Proof Sys2Proof.Machine

/-! ### The step -/

/-- O1. The step takes the command at the front of the queue and runs it with the queue's rest. -/
def Obligations.StepRunsFrontCommand : Prop :=
  ∀ (c : Instr) (rest : List Instr) (s : State), s.pending = c :: rest → step s = exec c { s with pending := rest }

/-- O2. With no command waiting, one block clock cycle passes (the model's choice, log entry 4): global time moves on by one
cycle at its rate, and nothing else but the cycle and hour counts and the outputs changes. -/
def Obligations.IdleStepPassesOneCycle : Prop :=
  ∀ s : State, s.pending = [] → s.pwr.phase ≠ .off → s.time.running = true →
    step s = .next { s with out := [], time := { s.time with now := s.time.now + cycleUnits s }
                            pwr := { s.pwr with cycles := s.pwr.cycles + 1 }, evr := { s.evr with hourCtr := s.evr.hourCtr + 1 } }

/-- O3. Every command in every state answers a next state. -/
def Obligations.EveryCommandAnswersNext : Prop := ∀ (i : Instr) (s : State), ∃ t, exec i s = .next t

/-- O4. The state after reset meets the invariant. -/
def Obligations.ResetMeetsInvariant : Prop := Inv State.reset

/-- O5. Every step keeps the invariant: the canonical command window and codec buffers, the recorder's bounds, one pending
change per object, at most 8 sensor requests. -/
def Obligations.StepKeepsInvariant : Prop := ∀ s t : State, Inv s → step s = .next t → Inv t

/-- O6. The frame of every command: what the block is built as, the queue of waiting commands, and every part of State but those
that `writes` lists for the command, stay as they were. -/
def Obligations.CommandsWriteOnlyTheirParts : Prop :=
  ∀ (i : Instr) (s t : State), exec i s = .next t → t.build = s.build ∧ t.pending = s.pending ∧ ∀ p : Part, p ∉ writes i → p.same s t

/-! ### Answering a request -/

/-- O7. What answering does: a refusal is counted at its row and path, the reply window or the path of the request gets
the reply, the session's cache may take it, and nothing else changes: no session ends or gets another key or sequence. -/
def Obligations.AnswerChangesOnlyItsRecords : Prop :=
  ∀ (code : Nat) (r : Request) (p : Reply) (s : State), let t := finish code r (p, s)
    (∀ q : Part, q ∉ [Part.net, .sec, .host, .out] → q.same s t) ∧
    { t.sec with sessions := s.sec.sessions, refusals := s.sec.refusals } = s.sec ∧
    t.sec.sessions.map (fun x => { x with cache := [] }) = s.sec.sessions.map (fun x => { x with cache := [] }) ∧
    (p.status < 0x100 → t.sec.refusals = s.sec.refusals) ∧
    (r.path = .host → t.net = s.net ∧ t.host.busy = false ∧ t.host.replyReady = true ∧
      t.host.replyWin = signedReply (replyKey r.session s) r.version code r.session r.seq p s ∧
      { t.host with busy := s.host.busy, replyReady := s.host.replyReady, replyWin := s.host.replyWin } = s.host) ∧
    (r.path ≠ .host → t.host = s.host)

/-- O8. A request that rows 4 and 8 to 9 of Table CMD-5 refuse is answered with the row's status, and nothing but the answer
changes (R381). -/
def Obligations.RefusedRequestChangesNothing : Prop :=
  let refused (o : State → Op) (allowed : State → Bool) (cmd : Request → Instr) : Prop :=
    ∀ (r : Request) (s : State), passes (o (taken r s)) (allowed (taken r s)) r (taken r s) = false →
      ∃ st ∈ [stBusy, stAuth, stState, stPermit, stBadLength, stBadParam],
        exec (cmd r) s = .next (finish (o (taken r s)).code r (refuse st, taken r s))
  (∀ x ∈ frameReaders ++ windowReaders ++ reduceReaders ++ glenReaders ++ probeReaders ++ errorReaders ++ traceReaders ++ shutterReaders ++
      recordReaders ++ unitReaders, refused (fun _ => { code := x.code, auth := authRead, params := x.params }) x.allowed x.cmd) ∧
  (∀ x ∈ windowDeferrals ++ featureDeferrals ++ probeDeferrals ++ traceDeferrals,
      refused (fun t => { code := x.code, auth := x.auth, params := x.params t }) x.allowed x.cmd) ∧
  (∀ x ∈ timeImmediates ++ reportImmediates ++ shutterImmediates ++ unitImmediates ++ starters,
      refused (fun t => { code := x.code, auth := x.auth, params := x.params t }) x.allowed x.cmd) ∧
  (∀ x ∈ stagers ++ laterStagers, refused (fun t => { code := x.code, auth := x.auth, params := x.params t }) x.allowed x.cmd)

/-- O9. Whatever refuses a request, a refusal leaves the state as it was but for the answer (R381), for every opcode that
is answered at once and takes no image in pieces. -/
def Obligations.RejectionLeavesStateUnchanged : Prop :=
  ∀ x ∈ answeredOpcodes, ∀ (r : Request) (s : State), ∃ key p u, exec (x.1 r) s = .next (answerWith key x.2 r p u) ∧ (0x100 ≤ p.status → u = taken r s)

/-! ### Opcodes that read -/

/-- O10. The FRAME, TIME, WIN, CTR, SEN, RED, FEA, PLN, GLEN and PROBE opcodes that read answer OK with what they show, and
change nothing. The numbers of STATE and SETTING types are the model's choice (log entry 40). -/
def Obligations.FrameAndModelReadersAnswer : Prop :=
  ∀ x ∈ frameReaders ++ windowReaders ++ reduceReaders ++ glenReaders ++ probeReaders, x.Answers

/-- O11. The same for ERR, PSN, TRC, WPT, SHUTTER, CDC, EVR, SRM, HSH, DOOR, SEC, CMD, PWR and PNL. -/
def Obligations.RecordAndUnitReadersAnswer : Prop :=
  ∀ x ∈ errorReaders ++ traceReaders ++ shutterReaders ++ recordReaders ++ unitReaders, x.Answers

/-! ### Opcodes that act at a frame -/

/-- O12. The FRAME, WIN, CTR, SEN, PWR, DOOR, RED, FEA, PLN, GLEN and PROBE opcodes that act at a frame F later than the current
one: DEFERRED with EFFECT and, for a replaced change, REPLACED; the change is pending for F and nothing else changes
(R390, R391). -/
def Obligations.FrameAndModelChangesAreDeferred : Prop := ∀ x ∈ windowDeferrals ++ featureDeferrals ++ probeDeferrals, x.Takes

/-- O13. The TRC, WPT, SHUTTER, HSH and SEC opcodes that act at a frame. -/
def Obligations.TraceShutterAndSecurityChangesAreDeferred : Prop := ∀ x ∈ traceDeferrals ++ securityDeferrals, x.Takes

/-- O14. A frame that is not later than the current one is refused with OUT_OF_RANGE, and nothing is pending (R390). -/
def Obligations.PastFramesAreRefused : Prop :=
  ∀ x ∈ windowDeferrals ++ featureDeferrals ++ probeDeferrals ++ traceDeferrals ++ securityDeferrals, ∀ (r : Request) (s : State),
    x.meets r s = true → num tFrame r.body ≤ curFrame (taken r s) → exec (x.cmd r) s = .next (finish x.code r (refuse stRange, taken r s))

/-! ### Opcodes that act at once -/

/-- O15. TIME.SET, the TIME settings (which wait for the filter period's end), error routes, injected records, exports, triggers, the
trace's arming and data capture complete: where its row's conditions on the request and the state hold, each of the 13 opcodes
named here (in the order of the rows; TRC.TRIGGER has three forms) answers a next state, with OK and the row's effect. -/
def Obligations.TimeReportAndTraceOpcodesAct : Prop :=
  (timeImmediates ++ reportImmediates).map (·.cmd) =
    [.timeSet, .timeSetSource, .timeSetTod, .timeSetCal, .timeSetServo, .timeSetUtc, .errSetRoute, .errInject, .errSetExport,
      .trcTrigger, .trcTrigger, .trcTrigger, .trcArm, .wptEnableData, .wptDisableData] ∧
  ∀ x ∈ timeImmediates ++ reportImmediates, ∀ (r : Request) (s : State), x.meets r s = true →
    exec (x.cmd r) s = .next (finish x.code r (okay (x.reply r (taken r s)), x.effect r (taken r s)))

/-- O16. The same for stops, timed stops, scans, resumes and images, and for the recorder's clear, mirrors, LEDs, doors, pushes,
banks and fetched firmware. -/
def Obligations.ShutterAndUnitOpcodesAct : Prop := ∀ x ∈ shutterImmediates ++ unitImmediates, x.Acts

/-- O17. A queued run, a bank change and the self-tests begin, and the reply waits for their end. -/
def Obligations.LongOpcodesStart : Prop := ∀ x ∈ starters, x.Starts

/-! ### Images in pieces (R392, R393) -/

/-- O18. The first of several pieces empties the slot and starts the assembly; a later piece at the offset reached grows it; the
last ends it, and the whole image is checked and staged. -/
def Obligations.PiecesAreAssembled : Prop :=
  (∀ x ∈ stagers ++ laterStagers, x.Opens) ∧ (∀ x ∈ stagers ++ laterStagers, x.Continues) ∧ (∀ x ∈ stagers, x.Ends)

/-- O19. A pack and a codec test whose image is whole begin their work; the reply waits for its end. -/
def Obligations.PackAndCodecTestBegin : Prop :=
  (∀ x ∈ laterStagers, ∀ (r : Request) (s u : State) (a : Assembly), let t := taken r s; let k := x.slot r.body t; let p := pieceOf r.body
    x.code = 0x0B01 → x.meets r s = true → continues k r.session r.body t = true → p.2.1 + p.2.2.length = p.1 → assemblyOf k.key t = some a →
    packBusy (withAssembly k.key none t) = false → frameAhead r.body t = true →
    openInstall (some r) (a.bytes ++ p.2.2) (num? tFrame r.body) (withAssembly k.key none t) = (none, u) → u.prb.install.isSome = true →
    t.prb.install = none → exec (x.cmd r) s = .next u) ∧
  (∀ x ∈ laterStagers, ∀ (r : Request) (s : State) (a : Assembly) (c : Ctx), let t := taken r s; let k := x.slot r.body t; let p := pieceOf r.body
    let u := withAssembly k.key none t
    x.code = 0x1102 → x.meets r s = true → continues k r.session r.body t = true → p.2.1 + p.2.2.length = p.1 → assemblyOf k.key t = some a →
    t.cdc.test = none → testJob r.body (a.bytes ++ p.2.2) (ctxAt (testCtx t) u) = .ok c →
    exec (x.cmd r) s = .next (let v := jobOn (testCtx t) (fun _ => c) u
      { v with cdc := { v.cdc with test := some r, testState := flagAt 3 r.body, testWas := ctxAt (testCtx t) u } }))

/-! ### Opcodes of their own kind -/

/-- O20. FRAME.SET: a die unit without an up door, the primary root in fleet scope, or a tray hub in tray scope or entering it places
the new parameters at frame F where the old ones put its tick, and they are pending; a set outside Table FRM-1 or FRM-2, or a frame
that is not later than the current one, is refused and nothing changes. A tray hub that leaves tray scope keeps its other
parameters until F (R23 to R26). -/
def Obligations.FrameSetPlacesParameters : Prop :=
  ∀ (r : Request) (s : State), let t := taken r s; let b := r.body; let f := num tFrame b; let cur := t.frame.params; let new := givenParams b cur
    let scope := (set? 8 b).getD (b2n cur.trayScope)
    let deferred (p : FrameParams) := finish 0x0101 r
      ({ status := stDeferred
         tlvs := effect f :: (t.frame.pending.map fun q => (⟨tReplaced, toLe 8 q.anchor⟩ : Tlv)).toList },
       let u := { t with frame := { t.frame with pending := some { p with anchor := f, anchorNs := cur.anchorNs + (f - cur.anchor) * cur.period * 1000 } } }
       if isPrimary t then sendRootParams u else u)
    passes { code := 0x0101, params := must tFrame :: (List.range 10).map (setting · 4) } true r t = true →
    (((isDie t = true ∧ liveAt 0 t = false ∧ scope ≤ 1) ∨ (isPrimary t = true ∧ scope = 0 ∧ curFrame t + 16 ≤ f) ∨
        (isTray t = true ∧ scope = 1 ∧ (cur.trayScope = true ∨ ∀ c q, t.frame.fleet = some (c, some q) → q.anchor ≤ curFrame t))) →
      (curFrame t < f → paramsOk new = true → exec (.frameSet r) s = .next (deferred new)) ∧
      (f ≤ curFrame t ∨ paramsOk new = false → exec (.frameSet r) s = .next (finish 0x0101 r (refuse stRange, t)))) ∧
    (isTray t = true → cur.trayScope = true → scope = 0 → (∀ x ∈ b, x.ty = tFrame ∨ x.ty = tSetting 8) → curFrame t < f →
      exec (.frameSet r) s = .next (deferred { cur with trayScope := false }))

/-- O21. TIME.STEP_ROOT on the primary root: at most 1,000 s either way, at least 16 frames ahead; the step is pending, and
it travels in every time flit (R71). -/
def Obligations.StepOfRootTimeIsDeferred : Prop :=
  ∀ (r : Request) (s : State), let t := taken r s; let f := num tFrame r.body; let ns := signed 64 ((set? 0 r.body).getD 0)
    passes { code := 0x0208, params := [must tFrame, mustSetting 0 8] } (isPrimary t) r t = true →
    ns.natAbs ≤ 1000000000000 → curFrame t + 16 ≤ f → 0 ≤ ((tickTime t.frame.params f / nsUnit : Nat) : Int) + ns →
    exec (.timeStepRoot r) s = .next (finish 0x0208 r
      ({ status := stDeferred, tlvs := effect f :: ((pendOf 0x0208 0 t).map fun p => (⟨tReplaced, toLe 8 p.frame⟩ : Tlv)).toList },
       let u := setPend ⟨0x0208, 0, f, .stepRoot ns⟩ t
       { u with time := { u.time with stepPending := some (ns, f) } }))

/-- O22. Opcodes that draw values the spec leaves open: HSH.GET's engine load and the attestation signature of
SEC.GET_CERT (over the digest of what R417 has it cover, whatever that signature is) stand in the reply whatever they are, and the
draw counter alone moves on. A version 1 HSH.GET whose items do not fit is answered BAD_LENGTH (R395). -/
def Obligations.FreeValuesAreDrawnIntoReplies : Prop :=
  (∀ (r : Request) (s : State), let t := taken r s
    passes { code := 0x1401, auth := authRead, params := [may tOffset] } true r t = true →
    ∃ p, exec (.hshGet r) s = .next (finish 0x1401 r (p, if p.status = stOk then { t with free := t.free + 1 } else t)) ∧
      ((p.status = stOk ∧ stBytes 0 (Config.freeBytes t.free 4) ∈ p.tlvs) ∨ (r.version = 1 ∧ p = refuse stBadLength))) ∧
  (∀ (r : Request) (s : State), let t := taken r s
    passes { code := 0x1502, auth := authRead, params := [may tData] } true r t = true →
    (val? tData r.body = none → exec (.secGetCert r) s = .next (finish 0x1502 r (okay [record (fit 768 t.sec.chain)], t))) ∧
    (∀ c, val? tData r.body = some c → c.length = 32 →
      exec (.secGetCert r) s = .next (finish 0x1502 r
        (okay [record (fit 768 t.sec.chain), record (fit 96 (Config.attestation t.free (sha256 (attested c t))))], { t with free := t.free + 1 }))))

/-- O23. ERR.FETCH of an exporter returns the entries it holds from each number on; SHUTTER.READ_SCAN streams up to 1,024 B
of the scan to the host; WPT.READ_CAPTURE returns the store to the authorising session, and with FLAG 1 clears it. -/
def Obligations.StreamsAreRead : Prop :=
  (∀ (r : Request) (s : State) (q : Nat), let t := taken r s
    passes { code := 0x0C02, params := [many tUnit 256, many tSeq 256] } true r t = true → exporter t = true →
    nums tUnit r.body = [unitId t] → nums tSeq r.body = [q] →
    let es := fetchOne (unitId t) q t; let rep := readout r.version [] ([] ++ es.1) (·)
    exec (.errFetch r) s = .next (finish 0x0C02 r (rep, if rep.status = stOk then askOwed (noteFetched r (es.1.take (vals tRecord rep.tlvs).length) es.2) else t))) ∧
  (∀ (r : Request) (s : State), let t := taken r s
    passes { code := 0x1011 } (isDie t) r t = true → t.sht.toHost = true → let v := formHead t; let run := (hostRest v).take 1024
    ∃ rep u, exec (.shutterReadScan r) s = .next (finish 0x1011 r (rep, u)) ∧ rep.status = stOk ∧ rep.tlvs = [record run] ∧
      u.sht.hostRead = v.sht.hostRead + run.length ∧ v.sht.hostRead = t.sht.hostRead) ∧
  (∀ (r : Request) (s : State) (f : Nat), let t := taken r s
    passes { code := 0x0F05, auth := authRead, params := [may tOffset, may tFlag] } (isDie t) r t = true → t.wpt.auth = some (r.session, f) →
    flagBad r.body = false →
    let p := readout r.version [stU32 0 t.wpt.refused] (t.wpt.store.drop (num tOffset r.body)) (num tOffset r.body + ·)
    exec (.wptReadCapture r) s = .next (finish 0x0F05 r
      (p, if flag r.body = true ∧ p.status = stOk then { t with wpt := { t.wpt with store := [], full := false } } else t)))

/-- O24. Sessions (R422 to R424): a good grant opens one under its key, and the reply carries a trailer under that key; a
session closes itself or, with KEYS, another one; a rotation gives its session a new key, writes, revokes or narrows an anchor, or
writes the next ownership generation; zeroisation ends every session and key. Their replies carry a trailer under the key as it
was. A rejected opening changes nothing. -/
def Obligations.SessionOpcodesAct : Prop :=
  (∀ (r : Request) (s : State) (x : Session), let t := taken r s; let g := (val? tData r.body).getD []
    working t = true → t.sec.boundary ≠ .selfTest → t.sec.boundary ≠ .error → checkBody [must tData] r.body = none → checkGrant g t = .ok x →
    exec (.secOpenSession r) s = .next (answerWith (some x.key) 0x1503 r (okay []) (openGranted g x t))) ∧
  (∀ (r : Request) (s : State) (e : Nat), let t := taken r s; let g := (val? tData r.body).getD []
    working t = true → t.sec.boundary ≠ .selfTest → t.sec.boundary ≠ .error → checkBody [must tData] r.body = none → checkGrant g t = .error e →
    exec (.secOpenSession r) s = .next (answerWith none 0x1503 r (refuse e) t)) ∧
  (∀ (r : Request) (s : State), let t := taken r s
    passes { code := 0x1504, params := [may tIndex] } true r t = true → num? tIndex r.body = none →
    exec (.secCloseSession r) s = .next (answerWith (replyKey r.session t) 0x1504 r (okay [])
      { t with sec := { t.sec with sessions := t.sec.sessions.filter (·.id != r.session) } })) ∧
  (∀ (r : Request) (s : State) (k : Nat), let t := taken r s
    passes { code := 0x1504, auth := authKeys, params := [may tIndex] } true r t = true → num? tIndex r.body = some k → k ≠ r.session →
    (sessionOf k t).isSome = true →
    exec (.secCloseSession r) s = .next (answerWith (replyKey r.session t) 0x1504 r (okay [])
      { t with sec := { t.sec with sessions := t.sec.sessions.filter (·.id != k) } })) ∧
  (∀ (r : Request) (s : State), let t := taken r s
    passes { code := 0x1505, auth := authKeys, params := [must tChoice, may tFlag, may tData] } true r t = true → choice r.body = 3 →
    val? tFlag r.body = none → val? tData r.body = none →
    exec (.secRotateKey r) s = .next (answerWith (replyKey r.session t) 0x1505 r (okay [])
      { t with sec := { t.sec with identity := false, ownership := [], anchors := List.replicate 8 none, sessions := [], boundary := .zeroised } })) ∧
  (∀ (r : Request) (s : State) (x : Session) (key : Bytes), let t := taken r s; let d := (val? tData r.body).getD []
    passes { code := 0x1505, auth := authOperate, params := [must tChoice, may tFlag, may tData] } true r t = true → choice r.body = 0 →
    val? tFlag r.body = none → d.length = 60 → sessionOf r.session t = some x →
    gcmOpen x.key (d.take 12) (targetBlock t ++ toLe 2 r.session ++ toLe 4 r.seq) (slice d 12 32) (slice d 44 16) = some key →
    exec (.secRotateKey r) s = .next (answerWith (some x.key) 0x1505 r (okay []) (setSession r.session (fun k => { k with key := key }) t))) ∧
  (∀ (r : Request) (s : State), let t := taken r s; let d := (val? tData r.body).getD []; let slot := byteAt d 0
    let become (f : Security → Security) := exec (.secRotateKey r) s = .next (answerWith (replyKey r.session t) 0x1505 r (okay []) { t with sec := f t.sec })
    passes { code := 0x1505, auth := authKeys, params := [must tChoice, may tFlag, may tData] } true r t = true → choice r.body = 1 → flagBad r.body = false →
    (flag r.body = false → d.length = 100 → allZero (slice d 2 2) = true → bit (byteAt d 1) 7 = false →
      (slot ≤ 7 → t.sec.anchors.getD slot none = none → become fun x =>
        { x with anchors := modifyAt slot (fun _ => some ⟨rd d 4 48, rd d 52 48, byteAt d 1, false⟩) x.anchors }) ∧
      (slot = 0xFF → become fun x => { x with release := { x.release with mask := x.release.mask &&& byteAt d 1 } })) ∧
    (∀ a, flag r.body = true → d.length = 1 → slot ≤ 7 → t.sec.anchors.getD slot none = some a → a.revoked = false → otherSessions slot t = true →
      become fun x => { x with anchors := modifyAt slot (fun _ => some { a with revoked := true }) x.anchors })) ∧
  (∀ (r : Request) (s : State) (k key : Bytes), let t := taken r s; let d := (val? tData r.body).getD []; let g := t.sec.generation + 1
    passes { code := 0x1505, auth := authKeys, params := [must tChoice, may tFlag, may tData] } true r t = true → choice r.body = 2 →
    val? tFlag r.body = none → d.length = 60 → g ≤ 7 → tfind t.sec.generation t.sec.ownership = some k →
    gcmOpen k (d.take 12) (targetBlock t ++ toLe 1 g) (slice d 12 32) (slice d 44 16) = some key →
    exec (.secRotateKey r) s = .next (answerWith (replyKey r.session t) 0x1505 r (okay [])
      { t with sec := { t.sec with generation := g, ownership := [(g, key)] } }))

/-! ### Supplies, reset and start-up -/

/-- O25. A block reset, by PC_RST_N, the watchdog or an uncorrectable SRAM error, holds the block in reset with its cause,
keeps the recorder's bounds and, unless a clear was zeroing them, its entries, the fuses and the staged slots, and leaves no session, assembly, pending change,
model or waiting entry; every door's lanes are disabled (R466, R467). -/
def Obligations.BlockResetKeepsOnlyWhatSurvives : Prop :=
  ∀ (i : Instr) (cause : Nat) (s : State),
    ((i = .externalBlockReset ∧ cause = 1 ∧ s.pwr.phase ≠ .off) ∨ (i = .watchdogExpiry ∧ cause = 2 ∧ working s = true) ∨
      (∃ b a, i = .sramUncorrectableError b a ∧ cause = 3 ∧ outOfReset s = true ∧ b < s.mem.banks.length ∧ recorderBank s.build.hub b = false)) →
    ∃ t, exec i s = .next t ∧ t.pwr.phase = .inReset ∧ t.pwr.ready = false ∧ t.pwr.cause = cause ∧
      t.evr.base = s.evr.base ∧ t.evr.head = s.evr.head ∧ (s.evr.clearing = false → t.evr.slots = s.evr.slots) ∧ t.evr.queue = [] ∧
      t.sec.sessions = [] ∧ t.sec.generation = s.sec.generation ∧ t.sec.anchors = s.sec.anchors ∧ t.sec.minimum = s.sec.minimum ∧
      t.sec.slots = s.sec.slots ∧ t.asm = [] ∧ t.pend = [] ∧ t.glen.active = [] ∧ t.frame.last = none ∧ t.mem.repairs = s.mem.repairs ∧
      t.out = (List.range s.net.doors.length).map fun d => .laneEnable d false

/-- O26. After block reset the anchor is frame 0 at 0 s 0 ns and the period 1,000 µs, so that frame `n` begins `n`
milliseconds after the epoch (R17). -/
def Obligations.BlockResetAnchorsFramesAtEpoch : Prop :=
  ∀ (i : Instr) (s t : State),
    ((i = .externalBlockReset ∧ s.pwr.phase ≠ .off) ∨ (i = .supplyLoss ∧ s.pwr.phase ≠ .off) ∨ (i = .watchdogExpiry ∧ working s = true) ∨
      (∃ b a, i = .sramUncorrectableError b a ∧ outOfReset s = true ∧ b < s.mem.banks.length ∧ recorderBank s.build.hub b = false)) →
    exec i s = .next t → t.frame.params.anchor = 0 ∧ t.frame.params.anchorNs = 0 ∧ t.frame.params.period = 1000 ∧
      ∀ n, tickTime t.frame.params n = n * 1000000 * nsUnit

/-- O27. Supplies: when they are valid the block is in reset and holds the power-cycle count and the hours presented; when
they fail nothing of the block's own but the fuses remains; an uncorrectable error in a recorder bank marks its entry. -/
def Obligations.SuppliesAndSramErrors : Prop :=
  (∀ (p h : Nat) (s : State), s.pwr.phase = .off → exec (.supplyValid p h) s =
    .next { s with out := [], pwr := { s.pwr with phase := .inReset, supplyOk := true, pcycleIn := p % 2 ^ 32, hoursIn := h % 2 ^ 32, cause := 0 } }) ∧
  (∀ s : State, s.pwr.phase ≠ .off → ∃ t, exec .supplyLoss s = .next t ∧ t.pwr.phase = .off ∧ t.pwr.supplyOk = false ∧ t.evr.slots = [] ∧
    t.evr.valid = false ∧ t.sec.sessions = [] ∧ t.pend = [] ∧ t.sec.generation = s.sec.generation ∧ t.sec.anchors = s.sec.anchors) ∧
  (∀ (b a : Nat) (s : State), outOfReset s = true → b < s.mem.banks.length → recorderBank s.build.hub b = true →
    exec (.sramUncorrectableError b a) s =
      .next { s with out := [], evr := { s.evr with corrupt := dedup (s.evr.corrupt ++ [recorderSlot s.build.hub b a]) } })

/-- O28. Leaving reset (R355, R461, R464): a refused configuration keeps the block in reset with PC_CFG_FAULT; a good one
starts it under that configuration with global time running; the recorder goes on when the power-cycle counts agree, with an
entry that a reset cut short and left whole (R358), and otherwise begins anew at (count mod 2^24) × 2^40 + 1; then PC_READY rises and doors train. That the retention block's CRC
holds is one flag here (the model's choice, log entry 30). -/
def Obligations.LeavingResetJudgesWarmOrCold : Prop :=
  (∀ (env : StartEnv) (s : State), s.pwr.phase = .inReset → s.pwr.supplyOk = true → s.pwr.cfgFault = false →
    (cfgRefused env.config s.build.hub = true → ∃ t, exec (.leaveReset env) s = .next t ∧ t.pwr.phase = .inReset ∧ t.pwr.cfgFault = true) ∧
    (cfgRefused env.config s.build.hub = false → ∃ t, exec (.leaveReset env) s = .next t ∧ t.pwr.phase = .starting ∧ t.cfg = readCfg env.config ∧
      t.time.running = true ∧ (t.pwr.warm = true ↔ s.evr.valid = true ∧ s.evr.pcc = s.pwr.pcycleIn) ∧
      (t.pwr.warm = true → t.evr.base = s.evr.base ∧
        (evrFull s = true ∨ evrValid s.evr.torn = false ∨ rd s.evr.torn 0 8 ≠ s.evr.head → t.evr.head = s.evr.head ∧ t.evr.slots = s.evr.slots) ∧
        (evrFull s = false → evrValid s.evr.torn = true → rd s.evr.torn 0 8 = s.evr.head →
          t.evr.head = s.evr.head + 1 ∧ t.evr.slots = s.evr.slots.take (s.evr.head - s.evr.base) ++ [s.evr.torn])) ∧
      (t.pwr.warm = false → t.evr.base = s.pwr.pcycleIn % 2 ^ 24 * 2 ^ 40 + 1 ∧ t.evr.head = s.pwr.pcycleIn % 2 ^ 24 * 2 ^ 40 + 1 ∧
        t.evr.slots = [] ∧ t.evr.refFull = 0 ∧ t.evr.pcc = s.pwr.pcycleIn))) ∧
  (∀ s : State, s.pwr.phase = .starting → ∃ t, exec .ready s = .next t ∧ t.pwr.phase = .working ∧ t.pwr.ready = true ∧ t.pwr.readyAt = s.time.now)

/-! ### The cryptographic boundary and firmware -/

/-- O29. Self-tests, entropy failures, firmware that boots, fails its load test, takes over, is served, arrives and is
confirmed (R416, R428 to R431). That packets wait while the processor restarts, and that a failed load test of a boot is the
boundary's error, are the model's choices (log entries 17 and 144). -/
def Obligations.BoundaryAndFirmwareEvents : Prop :=
  (∀ (passed : Bool) (s : State), outOfReset s = true → s.sec.boundary = .selfTest →
    let u := { s with out := [], sec := { s.sec with boundary := if passed then .operational else .error, selfTests := if passed then 1 else 2, testReply := none } }
    exec (.selfTestComplete passed) s = .next (match s.sec.testReply with
      | some r => finish 0x1506 r (okay [stU32 0 (if passed then 1 else 2)], u)
      | none => u)) ∧
  (∀ s : State, outOfReset s = true → s.sec.boundary ≠ .zeroised →
    let u := { s with out := [], sec := { s.sec with boundary := .error, selfTests := 2, testReply := none } }
    exec .entropyTestFailure s = .next (match s.sec.testReply with
      | some r => finish 0x1506 r (okay [stU32 0 2], u)
      | none => u)) ∧
  (∀ s : State, outOfReset s = true → s.sec.active = none → (s.pwr.warm && (slotGood 0 s || slotGood 1 s)) = false → s.build.hub = false →
    liveAt 0 s = true → exec .firmwareBoot s = .next (requestBoot s.fresh)) ∧
  (∀ (s : State), let img := s.mem.fw.hub.getD s.mem.fw.hubActive []
    outOfReset s = true → s.sec.active = none → (s.pwr.warm && (slotGood 0 s || slotGood 1 s)) = false → s.build.hub = true →
    storageUsable s = true → img ≠ [] →
    exec .firmwareBoot s = .next (bootSlot 0 (putSlot 0 { readFirmware img with verified := (checkFirmware true img s.fresh).isNone } s.fresh))) ∧
  (∀ (k : Nat) (s : State), (slotAt k s).image ≠ [] → verified 1 (slotAt k s).image s = false → s.sec.boundary ≠ .zeroised →
    (loadTest k s).sec.boundary = .error) ∧
  (∀ s : State, outOfReset s = true → s.sec.active.isSome = true → exec .firmwareBoot s = .next (serveWaiting (advanceCycles s.sec.coreFree s.fresh))) ∧
  (∀ (path : Path) (pkt : Bytes) (s : State), s.pwr.cycles < s.sec.coreFree → arrivePacket path pkt s = joinQueue path pkt s) ∧
  (∀ (d : Nat) (s : State), let img := s.mem.fw.die.getD s.mem.fw.dieActive []
    isTray s = true → carries d s = true → storageUsable s = true → img ≠ [] →
    exec (.bootRequestArrival d (zeros 8)) s = .next (let (n, u) := nextSerial 12 s.fresh; sendBulk d 12 n img u)) ∧
  (∀ (img : Bytes) (s : State), let u := setSec (fun x => { x with fetching := false }) s.fresh
    s.build.hub = false → carries 0 s = true → s.sec.fetching = true → firmwareBusy u = false → checkFirmware false img u = none →
    exec (.bootImageArrival img) s = .next (storeFirmware false img u)) ∧
  (∀ (k : Nat) (s : State), working s = true → s.sec.trial = some 0 → s.sec.active = some k →
    exec .trialEnd s = .next { s with out := [], sec := { s.sec with trial := none, minimum := max s.sec.minimum (slotAt k s).security } })

/-! ### The frame engine -/

/-- O30. The frame that begins next is above the last one begun, no earlier than time and the parameters allow, and its
tick lies at T_A + (N − A) × P (R15, R16, R19). -/
def Obligations.NextFrameIsFirstTickAhead : Prop :=
  ∀ s : State, s.frame.pending = none → 0 < s.frame.params.period →
    let lo := max (s.time.now - (cycleUnits s - 1)) (s.frame.endAt.getD 0)
    let (n, t, _) := nextFrame s
    t = s.frame.params.anchorNs * nsUnit + (n - s.frame.params.anchor) * (s.frame.params.period * 1000 * nsUnit) ∧
    (∀ l, s.frame.last = some l → l < n) ∧ s.frame.params.anchor ≤ n ∧ lo ≤ t ∧
    (∀ m, m < n → s.frame.params.anchor ≤ m → (∀ l, s.frame.last = some l → l < m) → tickTime s.frame.params m < lo)

/-- O31. The tick begins the next frame; step 1 ends with the snapshot swapped, step 2 with the trackers updated; the lanes
evaluate; step 4 is skipped spans; the return mark opens the probe window, the return close ends acceptance. -/
def Obligations.FrameEngineSteps : Prop :=
  (∀ s : State, working s = true → s.time.running = true → s.frame.adopt = none → s.frame.pending = none →
    let n := nextFrame s.fresh
    exec .tick s = .next (beginFrame n.1 n.2.1 (probesAtTick (advanceTo n.2.1 s.fresh)))) ∧
  (∀ s : State, working s = true → s.frame.step = .snapshot → s.win.ports.all (·.awaiting == 0) = true → s.pend.all (·.opcode != 0x0902) = true →
    let u := advanceCycles (s.frame.stepAt + 1024) s.fresh
    let swap (c : Ctr) : Ctr := { c with prev := c.newPrev, delta := c.newDelta, stale := c.newStale, rebased := c.newRebased, snapSat := c.newSat }
    exec .snapshotSwap s = .next (updateTrackers (hangCount
      { u with win := { u.win with ctrs := s.win.ctrs.map fun p => (p.1, swap p.2), snapFrame := some (curFrame s) }
               frame := { u.frame with step := .trackers, stepAt := u.pwr.cycles } }))) ∧
  (∀ s : State, working s = true → s.frame.step = .trackers →
    let n := s.fea.trackers.length
    let u := advanceCycles (s.frame.stepAt + (if s.build.hub then (n + 1) / 2 else 2 * n)) s.fresh
    let v := { u with frame := { u.frame with step := .evaluate, stepAt := u.pwr.cycles, reducedAt := u.pwr.cycles + reduceCycles u } }
    (s.frame.cutoff = false → exec .trackerUpdateEnd s = .next (startStep4 (if s.build.hub then v else preReduce v))) ∧
    (s.frame.cutoff = true → exec .trackerUpdateEnd s = .next { u with frame := { u.frame with step := .sent } })) ∧
  (∀ (k e : Nat) (s : State), s.glen.lanes.getD k none = some e → working s = true → s.frame.step = .evaluate → nextLane k s.fresh = true →
    let t := advanceCycles (s.glen.laneEnds.getD k 0) s.fresh; let kind := (kindOf e s.fresh).getD 0
    t.time.now ≤ evalStop s.fresh →
    let u := (evalEntity e kind t).foldl (fun s r => applyHead e kind r s) t
    exec (.entityEvaluated k) s = .next (assignLane k
      { u with glen := { u.glen with doneE := u.glen.doneE ++ [e], lanes := modifyAt k (fun _ => none) u.glen.lanes } })) ∧
  (∀ (f : Nat) (s : State), s.glen.firstAct = some f → working s = true → s.glen.started = false → s.glen.modeSet = false → s.frame.step = .snapshot →
    f + s.glen.startSpan ≤ curFrame s →
    exec .startUpSpanElapsed s = .next (enterMode 0 { s.fresh with glen := { s.glen with started := true } })) ∧
  (∀ s : State, working s = true → s.glen.mode = 3 → s.frame.step = .snapshot → s.glen.modeSince + s.glen.recSpan ≤ curFrame s →
    exec .recoverySpanElapsed s = .next (enterMode 0 s.fresh)) ∧
  (∀ s : State, working s = true → s.build.hub = false → s.frame.last.isSome = true →
    let u := advanceTo (markAt s.frame.params.ret s) s.fresh
    exec .returnMark s = .next { u with prb := { u.prb with window := true } }) ∧
  (∀ (f t : Nat) (r : List (Nat × Nat)) (s : State), working s = true → s.frame.closes = (f, t) :: r →
    let u := advanceTo t s.fresh
    exec .returnClose s = .next { u with frame := { u.frame with closes := r } })

/-- O32. At the send cutoff a die unit that may send forms its contribution, keeps it, counts its sequence and sends it
through door 0; one that may not send forms none, and the entries it did not send stay for a later frame (R28 to R30). -/
def Obligations.SendCutoffSendsContribution : Prop :=
  ∀ s : State, s.build.hub = false → working s = true → s.frame.step ≠ .idle → s.frame.cutoff = false →
    let u := advanceTo (cutoffAt s) s.fresh
    let overran := u.frame.step != .evaluate || u.pwr.cycles < u.frame.reducedAt
    let v := reduceHeads (stragglerRule (stopStep4 u))
    (dieSends v = true → ∃ t, exec .sendCutoff s = .next t ∧ t.frame.overrun = overran ∧
      t.frame.history = lastN 64 (v.frame.history ++ [(curFrame v, (contribution overran v).1)]) ∧ t.frame.seq = (v.frame.seq + 1) % 2 ^ 32) ∧
    (dieSends v = false → ∃ t, exec .sendCutoff s = .next t ∧ t.frame.overrun = overran ∧ t.frame.history = v.frame.history ∧ t.frame.seq = v.frame.seq ∧
      t.frame.carryProbes = v.frame.carryProbes ∧ t.net = v.net)

/-! ### Contributions, summaries and returned summaries -/

/-- O33. What a hub takes and sends: items arrive, items in turn are merged, input closes, marks close the frame, select
points choose a copy, and a die unit uses a returned summary only up to the return close of its frame (R31 to R36, R45,
R152, R157, R164). -/
def Obligations.SummariesAreCollectedAndReturned : Prop :=
  (∀ (n d : Nat) (b : Bytes) (s : State), let u := begin_ n s
    carriesDown d u = true →
    exec (.contributionArrival n d b) s = .next (arrive d (arrivedContribution b u) b u) ∧
    exec (.summaryArrival n d b) s = .next (arrive d (arrivedSummary b u) b u)) ∧
  (∀ (k : Nat) (s : State), working s = true → mayBegin k s.fresh = true → exec (.passItemBegin k) s = .next (setItem k .begun s.fresh)) ∧
  (∀ (k : Nat) (x : Item) (s : State), s.hub.items[k]? = some x → working s = true → x.stage = .begun → s.hub.isClosed = false →
    exec (.passItemApplied k) s = .next (rootTry (setItem k .applied s.fresh))) ∧
  (∀ s : State, working s = true → isDie s = false → isRoot s = false → s.frame.last.isSome = true → s.hub.frame = s.frame.last → s.hub.isOpen = true →
    let u := advanceTo (inputCloseAt s) s.fresh
    exec .inputClose s = .next { u with hub := { u.hub with isOpen := false } }) ∧
  (∀ s : State, working s = true → isDie s = false → isRoot s = false → s.frame.last.isSome = true → s.hub.frame = s.frame.last → s.hub.isClosed = false →
    s.frame.params.trayScope = false →
    let p := formSummary (advanceTo (ownMarkAt s) s.fresh)
    let u := exportFrame p.2
    let v := keepSummary p.1.frame (summaryBytes { p.1 with seq := u.hub.seqs.getD 0 0 } []) u
    exec .hubMark s = .next (if sendsUp v then sendSummaries p.1 v else v)) ∧
  (∀ s : State, working s = true → isRoot s = true → s.frame.last.isSome = true → s.hub.frame = s.frame.last → s.hub.marked = false →
    ∃ t, exec .rootMark s = .next t ∧ t.hub.marked = true) ∧
  (∀ (n d : Nat) (b : Bytes) (s : State), let u := begin_ n s
    carries d u = true → isRoot u = true → (doorAt d u).dir = 3 → b.length = 120 →
    exec (.rootCheckArrival n d b) s = .next
      (if u.frame.last.isSome ∧ u.hub.frame = u.frame.last ∧ u.hub.marked = false ∧ inputCloseAt u ≤ u.time.now ∧ u.time.now ≤ ownMarkAt u then
        { u with hub := { u.hub with peerCheck := u.hub.peerCheck.or (some b) } }
      else { u with hub := { u.hub with discards := u.hub.discards + 1 } })) ∧
  (∀ (n d : Nat) (b : Bytes) (s : State), let u := begin_ n s
    carries d u = true → isSecondary u = true → (doorAt d u).dir = 3 → b.length = 96 →
    exec (.rootParametersArrival n d b) s = .next
      (receiveParams (readParams b) (readPending (b.drop 48)) u)) ∧
  (∀ s : State, working s = true → s.frame.last.isSome = true →
    (isPod s = true → exec .podSelectPoint s = .next (selectPoint 1 s.fresh)) ∧ (isTray s = true → exec .traySelectPoint s = .next (selectPoint 2 s.fresh))) ∧
  (∀ (n d : Nat) (b : Bytes) (close : Nat) (s : State), let u := begin_ n s; let p := summaryParams b; let v := receiveParams p.1 p.2 u
    carries d u = true → u.build.hub = false → returnedOk b = true → tfind (rd b 8 8) v.frame.closes = some close → v.frame.gotReturned ≠ some (rd b 8 8) →
    exec (.returnedSummaryArrival n d false b) s = .next
      (if close < v.time.now then { v with frame := { v.frame with lateReturned := v.frame.lateReturned + 1 } }
       else { v with frame := keepReturned (rd b 8 8) b { v.frame with gotReturned := some (rd b 8 8) } }))

/-! ### Time -/

/-- O34. Time flits and what ends a period, a holdover or a source: the parent's end opens an exchange, the filter period's
end applies the median offset and the waiting settings, and a lock that is lost or expires changes as Table TIM-2 says
(R58, R60 to R65). -/
def Obligations.TimeBaseEvents : Prop :=
  (∀ (n d : Nat) (s : State), let u := begin_ n s; let x := (doorAt d u).exch; let k := (x.num + 1) % 256
    working u = true → isParentEnd d u = true → liveAt d u = true →
    exec (.exchangeInterval n d) s = .next
      (let v := setExch d (fun x => { x with num := k, t1 := none, t4 := none }) u
       sendMsg d (timeMsg (parentFlit k (match x.t1, x.t4 with | some a, some b => some (x.num, a, b) | _, _ => none) v)) v)) ∧
  (∀ (n d p : Nat) (bad : Bool) (b : Bytes) (s : State), exec (.timeFlitArrival ⟨n, p⟩ d bad b) s = .next (timeFlit d p bad b (begin_ n s))) ∧
  (∀ s : State, working s = true → let m := medianOffset s.time.offsets
    exec .filterPeriodEnd s = .next (applySettings
      (let rate := if s.time.lock = 2 ∧ s.time.offsets = [] then ppmUnits s.time.freq else s.time.rate
       let u := { s with out := [], time := { s.time with offsets := [], m := m.or s.time.m, ptp := { s.time.ptp with valid := 0 }, rate := rate } }
       match m with | some m => lockStep m (servoStep m u) | none => u))) ∧
  (∀ s : State, working s = true → s.time.lock = 1 → (onSource s = false ∧ allQuiet s = true) ∨ (onSource s = true ∧ s.time.source = 1) →
    exec .holdoverEntry s = .next (setLock 2 s.fresh)) ∧
  (∀ s : State, working s = true → s.time.lock = 2 → isRoot s = false → s.time.servo.stability ≠ 0 →
    exec .holdoverLimitExceeded s = .next (setLock 0
      (advanceTo (s.time.holdSince + ((s.time.servo.holdLimit * 1000000000 / s.time.servo.stability + 1) * nsUnit : Nat)).toNat s.fresh))) ∧
  (∀ s : State, working s = true → isSecondary s = true → s.time.lock = 2 → s.time.ownSource = false → allQuiet s = true →
    exec .secondaryOwnSource s = .next
      (let v := advanceTo (s.time.holdSince + (16000 * s.time.adopted * nsUnit : Nat)).toNat s.fresh
       let u := { v with time := { v.time with ownSource := true, parent := none, returning := true } }
       if s.time.source = 2 then setLock 3 u else u))

/-- O35. A root's source (R56, R68, R69): a PTP message within Table TIM-3 acts and any other is counted, Delay_Req leaves
stamped with its transmit delay, the loss of Sync ends LOCKED, and a pulse gives one offset against the second that it
starts. -/
def Obligations.RootSourceEvents : Prop :=
  (∀ (n : Nat) (m : PtpMsg) (s : State), let u := begin_ n s
    working u = true → onSource u = true → u.time.source = 0 →
    (ptpHeard m u = false → exec (.ptpMessage n m) s = .next { u with time := { u.time with ptp := { u.time.ptp with ignored := u.time.ptp.ignored + 1 } } }) ∧
    (ptpHeard m u = true → m.kind = .announce → exec (.ptpMessage n m) s = .next (ptpAnnounce m (chooseMaster u))) ∧
    (let v := chooseMaster u
     ptpHeard m u = true → m.kind = .sync → v.time.ptp.chosen = some m.source →
      exec (.ptpMessage n m) s = .next { v with time := { v.time with ptp := { v.time.ptp with
        t2 := some (v.time.now / 2 ^ 16 - v.time.rxDelay * 2 ^ 12), t1 := if m.twoStep then none else some ((m.origin : Int) + m.correction).toNat
        pairT2 := some m.correction, syncSeq := some m.seq, interval := m.interval, valid := v.time.ptp.valid + 1 } } })) ∧
  (∀ (n : Nat) (s : State), let u := begin_ n s
    working u = true → onSource u = true → u.time.source = 0 →
    let q := (u.time.ptp.reqSeq + 1) % 65536; let t := u.time.now / 2 ^ 16 + u.time.txDelay * 2 ^ 12
    exec (.delayReq n) s = .next { u with out := u.out ++ [.ptpDelayReq q t]
                                          time := { u.time with ptp := { u.time.ptp with reqSeq := q, t3 := some t, pairT1 := none } } }) ∧
  (∀ s : State, working s = true → onSource s = true → s.time.source = 0 → s.time.lock = 1 → exec .ptpSyncLoss s = .next (setLock 2 s.fresh)) ∧
  (∀ (n p tod : Nat) (s : State), let u := begin_ n s; let t : Int := (doorStamp u.time.now p : Int) - u.time.cable * 2 ^ 12
    working u = true → onSource u = true → u.time.source = 1 → u.time.tod = some tod → u.time.lock ≠ 1 →
    exec (.ppsEdge ⟨n, p⟩) s = .next { u with time := { u.time with
      badPulses := 0, tod := some (tod + 1), offsets := u.time.offsets ++ [2 * (t - tod * (1000000000 * 2 ^ 16))] } })

/-! ### Window ports and sensors -/

/-- O36. A received sample `s` of a counter of width w, with previous raw sample `p`: the increase is (s − p) mod 2^w; where
the live value has room it grows by that; where it has not, it stands at its limit; no other counter changes (R88, R90). -/
def Obligations.SampleUpdatesCounter : Prop :=
  ∀ (i w v : Nat) (s : State), let c := tget {} i s.win.ctrs; let t := takeSample i w v s; let d := (v % 2 ^ w + 2 ^ w - c.raw % 2 ^ w) % 2 ^ w
    c.rebase = false → c.satBefore = false → c.cleared = none →
    (c.live + d ≤ u64Max → (tget {} i t.win.ctrs).live = c.live + d ∧ (tget {} i t.win.ctrs).newDelta = some d) ∧
    (c.live ≤ u64Max → u64Max < c.live + d → (tget {} i t.win.ctrs).live = u64Max) ∧
    (tget {} i t.win.ctrs).raw = v % 2 ^ w ∧ (tget {} i t.win.ctrs).newStale = false ∧ (∀ j, j ≠ i → tget {} j t.win.ctrs = tget {} j s.win.ctrs)

/-- O37. Ports: a sampled value waits for the port's others, a late sample leaves its counters without a delta, up to four
increment words land, an event waits with what it saw at its edge, is lost where 32 wait, or is malformed, one event is served in
a cycle, and a stretch episode is counted (R75, R86, R87, R94, R95). -/
def Obligations.WindowPortEvents : Prop :=
  (∀ (p : Nat) (v : BitVec 64) (s : State), portLive p s = true → 1 < (portAt p s).awaiting → (portAt p s).late = false →
    exec (.sampledValue p v) s = .next (setPort p (fun q => { q with awaiting := q.awaiting - 1, got := (portAt p s).got ++ [v.toNat] }) s.fresh)) ∧
  (∀ (p : Nat) (v : BitVec 64) (s : State), portLive p s = true → (portAt p s).awaiting = 1 → (portAt p s).late = false →
    let got := (portAt p s).got ++ [v.toNat]
    let u := setPort p (fun q => { q with awaiting := q.awaiting - 1, got := got }) s.fresh
    exec (.sampledValue p v) s = .next (((sampledOf (portAt p s)).zip got).foldl (fun s e => takeSample e.1.index e.1.width e.2 s)
      { u with frame := { u.frame with stepAt := u.pwr.cycles } })) ∧
  (∀ (p : Nat) (s : State), portLive p s = true → 0 < (portAt p s).awaiting →
    let u := advanceTo (s.frame.tickAt + 4000 * nsUnit) s.fresh
    let v := setPort p (fun q => { q with awaiting := 0, got := [], late := true }) { u with frame := { u.frame with stepAt := u.pwr.cycles } }
    exec (.sampleLate p) s = .next (ownEntry 0x0F02 0 0 (toLe 1 p) ((sampledOf (portAt p s)).foldl (fun s e => missSample e.index s) v))) ∧
  (∀ (p : Nat) (ws : List IncWord) (s : State), portLive p s = true →
    exec (.incrementWord p ws) s = .next ((ws.take 4).foldl (fun s w => addWord p w s) s.fresh)) ∧
  (∀ (n p c : Nat) (e : WinEvent) (s : State), let u := begin_ n s
    portLive p u = true → eventClass e.code = some c → bit (portAt p u).mask c = true → (c = 3 → errorEventOk e.code e.payload = true) →
    let q := captured p e c u
    exec (.windowEvent n p e) s = .next (queueEvent q c u) ∧ q.code = e.code ∧ q.entity = e.entity % 4096 ∧ q.stamp = entryStamp p u ∧
      q.payload = fit 12 e.payload ∧ q.unlocked = (u.time.lock == 0) ∧
      (32 ≤ (portAt p u).queue.length → queueEvent q c u = setPort p (fun x => { x with
        lost := x.lost + 1, firstLost := if x.lost = 0 then q.stamp else x.firstLost }) u)) ∧
  (∀ (n p : Nat) (e : WinEvent) (s : State), let u := begin_ n s
    portLive p u = true → eventClass e.code = none →
    exec (.windowEvent n p e) s = .next (setPort p (fun q => { q with malformed := q.malformed + 1 }) u)) ∧
  (∀ (p : Nat) (q : QEvent) (rest : List QEvent) (s : State), nextPort s.fresh = some p → (portAt p s).queue = q :: rest → (portAt p s).lost = 0 →
    let u := setPort p (fun x => { x with queue := rest, lost := 0, firstLost := 0 }) (advance 1 s.fresh)
    exec .eventService s = .next (applyEvent q { u with win := { u.win with lastServed := p } })) ∧
  (∀ (n p k : Nat) (s : State), let u := begin_ n s; let g := (portAt p u).region
    portLive p u = true → g ≤ 127 → k ≤ u.time.servo.stretch * 100 →
    ∃ t, exec (.stretchEpisodeEnd n p k) s = .next t ∧ t = addCtr (ctrStretchCycles g) k (addCtr (ctrStretchEpisodes g) 1 u))

/-- O38. Sensors (R102, R234, R449): at most 8 requests are outstanding, answers come in request order, an answer settles the ended
runs of the tiles whose temperature channel it is, and a request that is given up leaves its channel without a conversion and is
counted. -/
def Obligations.SensorRequestsAndAnswers : Prop :=
  (∀ (c : Nat) (s : State), working s = true → s.win.requests.length < 8 → c < 80 →
    exec (.sensorConversionRequest c) s = .next { s with win := { s.win with requests := s.win.requests ++ [c] }, out := [.senseRequest c] }) ∧
  (∀ (c : Nat) (s : State), 8 ≤ s.win.requests.length → exec (.sensorConversionRequest c) s = .next { s with out := [] }) ∧
  (∀ (c code : Nat) (r : List Nat) (s : State), s.win.requests = c :: r → 48 ≤ c ∨ (∀ t, (tileAt t s).ended = none) →
    exec (.sensorAnswer c code) s =
      .next { s with out := [], win := { s.win with requests := r, chans := modifyAt c (convert s.pwr.cycles code) s.win.chans } }) ∧
  (∀ (c code : Nat) (r : List Nat) (s : State), s.win.requests = c :: r → c < 48 →
    exec (.sensorAnswer c code) s = .next ((List.range 40).foldl (fun s t => if tileChan t 0 48 s == some c then settleRun t (tileTemp t s) s else s)
      { s with out := [], win := { s.win with requests := r, chans := modifyAt c (convert s.pwr.cycles code) s.win.chans } })) ∧
  (∀ (c : Nat) (s : State), c ∈ s.win.requests →
    exec (.sensorRequestTimeout c) s = .next { s with out := [], win := { s.win with requests := s.win.requests.erase c, abandoned := s.win.abandoned + 1 } })

/-! ### Doors and messages -/

/-- O39. Doors: flits are received at a working block, the oldest unacknowledged flit is sent again, a lane in use that
loses lock retrains its door and one that retires leaves a full-mode door DEGRADED, training starts again, quarantine ends,
a hello is taken (R139 to R141, R146 to R150). -/
def Obligations.DoorEvents : Prop :=
  (∀ (n d : Nat) (b : Bytes) (s : State), let u := begin_ n s
    working u = true → d < u.net.doors.length →
    exec (.flitReceive n d b) s = .next (receiveFlit d b u) ∧ exec (.helloArrival n d b) s = .next (helloTaken d b u)) ∧
  (∀ (d : Nat) (s : State), carries d s = true → exec (.replayTimeout d) s = .next (replay d s.fresh)) ∧
  (∀ (d l : Nat) (s : State), let e := laneEnd d l s.fresh
    carries e s = true → laneUsed e l s.fresh = true → exec (.laneLockLoss d l) s = .next (retrain e s.fresh)) ∧
  (∀ (d l n : Nat) (s : State), let e := laneEnd d l s.fresh
    carries e s = true → laneUsed e l s.fresh = true → 16 < n →
    let u := retireLane e l n (setDoor e (fun x => { x with syncErrors := modifyAt (l % 2) (· + n) x.syncErrors }) s.fresh)
    ((doorAt e u).mode = 0 → (doorAt e u).state = .up → exec (.laneRetire d l n) s = .next (setDoor e (fun x => { x with state := .degraded }) u)) ∧
    ((doorAt e u).mode ≠ 0 → exec (.laneRetire d l n) s = .next (retrain e u))) ∧
  (∀ (d : Nat) (s : State), working s = true → (doorAt d s).state = .training →
    exec (.trainingAttemptTimeout d) s = .next (sendHello d (setDoor d (fun x => { x with attempts := x.attempts + 1, accepted := false }) s.fresh))) ∧
  (∀ (d : Nat) (s : State), working s = true → (doorAt d s).quarantined = true →
    let u := advanceCycles ((doorAt d s).quarantineAt + (doorAt d s).quarantineTime * 1000000000) s.fresh
    exec (.quarantineEnd d) s = .next (trainIfFree d (setDoor d (fun x => { x with quarantined := false }) u)))

/-- O40. Messages and datagrams: a command message runs at its target or goes on, a reply leaves by its return tag, held
messages go after 1 ms and tags after 10 s, fragments are joined or dropped after 1 ms, and ICMPv6 is answered
(R167, R386, R387, R454). -/
def Obligations.MessagesAndDatagrams : Prop :=
  (∀ (n d : Nat) (f : BitVec 8) (t : Word) (b : Bytes) (s : State), let u := begin_ n s
    carries d u = true →
    (bit f.toNat 1 = false → exec (.commandMessageArrival n d f t b) s = .next (commandArrived d f.toNat t b u)) ∧
    (∀ c, bit f.toNat 1 = true → readCut b = some c → exec (.commandMessageArrival n d f t b) s = .next (takeCut d c u))) ∧
  (∀ (d : Nat) (t : Word) (b : Bytes) (s : State), carries d s = true → s.build.hub = true → 32 ≤ b.length →
    bit (rd b 28 4) 31 = true ∨ reservedSlot (slotOf (bits (rd b 28 4) 0 18)) = false →
    (bits t.toNat 0 16 = hubAddr s → exec (.replyMessageArrival d t b) s = .next (returnByTag (rd b 4 4) (b.drop 8) s.fresh)) ∧
    (bits t.toNat 0 16 ≠ hubAddr s →
      exec (.replyMessageArrival d t b) s = .next (forwardMsg { kind := 2, type := 0x21, flags := 1, target := t, body := b } s.fresh))) ∧
  (∀ (h : Held) (r : List Held) (s : State), s.net.held = h :: r →
    let u := advanceCycles (h.at_ + 1000000) s.fresh
    exec .commandHoldTimeout s = .next ((s.net.held.filter fun h => h.at_ + 1000000 ≤ u.pwr.cycles).foldl (fun s h => answerHeld h.msg s)
      { u with net := { u.net with held := s.net.held.filter fun h => u.pwr.cycles < h.at_ + 1000000 } })) ∧
  (∀ (k : Nat) (t : Machine.Tag) (s : State), s.net.tags.find? (·.tag == k) = some t →
    let u := advanceCycles (t.at_ + 10000000000) s.fresh
    exec (.returnTagExpiry k) s = .next { u with net := { u.net with tags := u.net.tags.filter (·.tag != k) } }) ∧
  (∀ (n : Nat) (src : Endpoint) (f : Fragment) (p : Bytes) (s : State), let u := begin_ n s
    working u = true → u.build.hub = true →
    exec (.managementDatagram n src none p) s = .next (takeDatagram src p u) ∧ exec (.managementDatagram n src (some f) p) s = .next (takeFragment src f p u)) ∧
  (∀ (src : Endpoint) (k : Nat) (x : Reassembly) (s : State), s.net.reasm.find? (fun x => x.src == src && x.ident == k) = some x →
    let u := advanceCycles (x.at_ + 1000000) s.fresh
    exec (.fragmentReassemblyTimeout src k) s = .next { u with net := { u.net with
      discarded := u.net.discarded + 1, reasm := u.net.reasm.filter fun x => !(x.src == src && x.ident == k) } }) ∧
  (∀ s : State, working s = true → s.build.hub = true →
    (∀ src data, exec (.icmpv6Message (.echo src data)) s = .next { s with out := [.icmp src true data] }) ∧
    (∀ src, exec (.icmpv6Message (.solicit src s.cfg.ipv6)) s = .next { s with out := [.icmp src false (s.cfg.ipv6 ++ s.cfg.mac)] }) ∧
    (∀ a m, exec (.icmpv6Message (.advert a m)) s = .next { s with out := [], net := { s.net with neighbours := s.net.neighbours.filter (·.1 != a) ++ [(a, m)] } }) ∧
    exec (.icmpv6Message .other) s = .next { s with out := [], net := { s.net with badFrames := s.net.badFrames + 1 } })

/-- O41. A packet with a session's trailer is executed once (R383): above the highest executed sequence H it runs and H
becomes its sequence; with a cached sequence and trailer it is answered from the cache and nothing runs; otherwise the
answer is REPLAY_WINDOW. A packet with another trailer is refused with AUTH_FAIL and nothing runs. -/
def Obligations.PacketsAreExecutedOnce : Prop :=
  ∀ (path : Path) (pkt : Bytes) (s : State) (x : Session), let len := rd pkt 12 4; let body := slice pkt 16 len; let trailer := slice pkt (16 + len) 16
    let r : Request := { after := 0, path := path, session := rd pkt 4 2, version := byteAt pkt 0, seq := rd pkt 8 4, body := readTlvs len body }
    pkt.length = 32 + len → len % 4 = 0 → len ≤ 2016 → (byteAt pkt 0 = 1 ∨ byteAt pkt 0 = 2) → s.sec.boundary ≠ .selfTest → s.sec.boundary ≠ .error →
    rd pkt 4 2 ≠ 0 → sessionOf (rd pkt 4 2) s = some x → s.time.now ≤ x.notAfter →
    let own := trailerOf x.key (targetBlock s) (pkt.take 16) body
    (own ≠ trailer → takePacket path pkt s = answerEarly 4 stAuth path pkt s) ∧
    (own = trailer → x.h < r.seq → takePacket path pkt s = executePacket (rd pkt 2 2) r pkt
      (setSession x.id (fun k => { k with h := r.seq, cache := lastN 64 (k.cache ++ [⟨r.seq, trailer, 0, none, true⟩]) }) s)) ∧
    (own = trailer → r.seq ≤ x.h → ∀ c, x.cache.find? (·.seq == r.seq) = some c → c.trailer = trailer →
      takePacket path pkt s = answerRepeat c (rd pkt 2 2) r s) ∧
    (own = trailer → r.seq ≤ x.h → (∀ c, x.cache.find? (·.seq == r.seq) = some c → c.trailer ≠ trailer) →
      takePacket path pkt s = answerPlain (some x.key) (rd pkt 2 2) r (refuse stReplay) (countRefusal 5 path s))

/-! ### Errors and exports -/

/-- O42. Error records: an exporting hub takes a reporter's entries, an acknowledgement is taken or passed down, up to 16
entries leave in one message, signatures leave at the period's end, and storage faults and corrected SRAM rows raise records
(R259 to R263, R270, R362, R456). -/
def Obligations.ErrorAndStoreEvents : Prop :=
  (∀ (d : Nat) (b : Bytes) (s : State), let u := rd b 0 4; let n := rd b 4 2
    carries d s = true → s.build.hub = true → 0 < n → n ≤ 16 → b.length = 16 + 64 * n → unitFormOk u = true → bit u 31 = true →
    (s.err.fleet && !isRoot s) = false →
    let r := reporterAt u s.fresh
    let t := putReporter u { r with expected := some (r.expected.getD (rd b 8 8 + 1)), release := rd b 8 8 } s.fresh
    exec (.errorRecordMessage d b) s = .next
      (if storeUsable t then takeEntries u (records 64 (b.drop 16)) t else { t with err := { t.err with owed := dedup (t.err.owed ++ [u]) } })) ∧
  (∀ (d : Nat) (b : Bytes) (s : State), carries d s = true → b.length = 16 → rd b 0 4 = unitId s →
    exec (.recordAcknowledgement d b) s = .next (sendAck (rd b 0 4) (bit (rd b 4 2) 0) (rd b 8 8) s.fresh)) ∧
  (∀ (d : Nat) (u s : State), working s = true → s.err.fleet = true → s.build.hub = false → recordDoor s.fresh = (some d, u) →
    let due := (ringEntries u).filter (u.err.sent < ·.1)
    u.err.tailDue = false → due ≠ [] →
    exec .errorEntrySend s = .next (sendMsg d
      { kind := 2, type := 0x22, body := toLe 4 (unitId u) ++ toLe 2 (due.take 16).length ++ toLe 2 (b2n u.err.resend) ++ toLe 8 u.err.release ++
                                         (due.take 16).flatMap (·.2) }
      { u with err := { u.err with sent := (due.take 16).foldl (fun m p => max m p.1) u.err.sent, resend := false, tailDue := false } })) ∧
  (∀ s : State, working s = true → isTray s = true → s.frame.last.isSome = true → (curFrame s + 1) % s.exp.period = 0 →
    let u := (s.exp.sigs.filter fun g => g.occurrences > 0 || g.passes > 0).foldl
      (fun t g => exportItem 4 (curFrame s) (borven g (periodStart (curFrame s) t) (curFrame s)) t) s.fresh
    exec .exportPeriodEnd s = .next { u with exp := { u.exp with sigs := [] } }) ∧
  (∀ (k : Nat) (s : State), working s = true → storeUsable s = true →
    exec (.storeReadyChange k false) s = .next (storeFault k 0 0 { s with out := [], mem := { s.mem with storeRdy := modifyAt k (fun _ => false) s.mem.storeRdy } })) ∧
  (∀ (k a st : Nat) (s : State), s.build.hub = true → working s = true →
    exec (.storeCompletion k a st) s = .next (drainIngress (if 2 ≤ st then storeFault k a st s.fresh else s.fresh))) ∧
  (∀ (b row : Nat) (s : State), outOfReset s = true → s.mem.banks.getD b 3 = 0 →
    let u := { s with out := [], mem := { s.mem with scrubbed := tput b (tget 0 b s.mem.scrubbed + 1) s.mem.scrubbed
                                                     corrected := tput b (tget 0 b s.mem.corrected + 1) s.mem.corrected } }
    (coreBank s.build.hub b = false → exec (.patrolScrub b row true) s = .next (raiseOwn 0x1A 1 0 0 0 (toLe 2 b ++ toLe 4 (32 * row)) u)) ∧
    (coreBank s.build.hub b = true → exec (.patrolScrub b row true) s =
      .next (raiseOwn 0x17 1 0 0 0 (toLe 4 ((if s.build.hub then 262144 else 131072) * b + 32 * row) ++ toLe 1 (b2n (b < 2))) u)))

/-! ### Trace and watchpoints -/

/-- O43. Trace: bundles, low power, intervals and flushes of a source; chunks and notices leave; a tray hub takes chunks
unless its history is frozen and takes triggers; the stop instant ends recording (R274 to R296, R168). -/
def Obligations.TraceEvents : Prop :=
  (∀ (k c : Nat) (as : List Word) (s : State), working s = true → encodes k s.fresh = true →
    exec (.traceBundle k as c) s = .next (as.foldl (fun s a => bundle k a s) (presentCyc k c s.fresh))) ∧
  (∀ (k l c : Nat) (s : State), working s = true →
    exec (.lowPowerEntry k l c) s = .next (enterLow k l (presentCyc k c s.fresh))) ∧
  (∀ (k c : Nat) (a : Word) (s : State), working s = true →
    exec (.lowPowerExit k a c) s = .next (exitLow k a (presentCyc k c s.fresh))) ∧
  (∀ (k c : Nat) (s : State), working s = true → encodes k s.fresh = true → (srcAt k s).synced = true →
    let u := presentCyc k c (advanceTo (((srcAt k s).refTime + s.trc.set.timeInt * 1000) * nsUnit) s.fresh)
    ((srcAt k s).quiet = true ∨ (srcAt k s).runN = 0 → exec (.timeIntervalElapse k c) s = .next (writeTime k (closeRun k u))) ∧
    ((srcAt k s).quiet = false → (srcAt k s).runN ≠ 0 → exec (.timeIntervalElapse k c) s = .next u)) ∧
  (∀ (k : Nat) (c : Chunk) (s : State), working s = true → (srcAt k s).chunk = some c →
    exec (.chunkFlushTime k) s = .next (closeChunk k (advanceTo (c.openedAt + s.trc.set.flush * 1000 * nsUnit) s.fresh))) ∧
  (∀ s : State, s.build.hub = false → carries 0 s = true →
    (∀ n r, s.trc.notices = n :: r →
      exec .traceChunkSend s = .next (sendMsg 0 { kind := 4, type := 0x30, body := n } { s with out := [], trc := { s.trc with notices := r } })) ∧
    (∀ c k, s.trc.notices = [] → s.trc.set.mode = trcStream → bestBy (fun (a b : Chunk × Nat) => a.1.prio > b.1.prio) s.trc.queue.zipIdx = some (c, k) →
      exec .traceChunkSend s = .next (sendMsg 0 { kind := 4, type := 0x30, body := chunkBody c s.fresh }
        { s with out := [], trc := { s.trc with queue := s.trc.queue.eraseIdx k } }))) ∧
  (∀ (n d : Nat) (b : Bytes) (s : State), let u := begin_ n s
    carries d u = true → isTray u = true → 8 ≤ b.length → b.length ≤ 1024 → byteAt b 0 ≤ 63 → byteAt b 1 ≤ 3 → bits (rd b 4 4) 18 14 = 0 →
    exec (.traceMessageArrival n d b) s = .next
      (if u.trc.stopped then setIngress d (fun x => { x with frozen := x.frozen + 1 }) u else admitTrace d b u)) ∧
  (∀ (n d : Nat) (b : Bytes) (s : State), let u := begin_ n s
    carries d u = true → isTray u = true → b.length = 40 → byteAt b 0 = 0xFF → byteAt b 8 ≤ 3 →
    exec (.triggerNoticeArrival n d b) s = .next (hubTrigger (bits (rd b 4 4) 0 18) (byteAt b 8) (byteAt b 9) (rd b 10 2)
      (rd b 12 8 * secUnit + rd b 20 4 * nsUnit) u.trc.set.delay u)) ∧
  (∀ (t : Nat) (s : State), working s = true → s.trc.stopAt = some t →
    ∃ u, exec .stopInstant s = .next u ∧ u.trc.stopAt = none ∧ u.trc.stopped = (s.build.hub || s.trc.set.mode == trcLocal)) ∧
  (∀ (t : Nat) (r : List Nat) (s : State), working s = true → s.trc.trayAt = t :: r →
    let u := advanceTo t s.fresh
    exec .trayTriggerAtTime s = .next (trayTrigger s.trc.set.delay { u with trc := { u.trc with trayAt := r } })) ∧
  (∀ (d : Nat) (b : Bytes) (s : State), carries d s = true → s.build.hub = true →
    exec (.traceReadoutArrival d b) s = .next { s with out := [], trc := { s.trc with readouts := s.trc.readouts ++ [b] } })

/-- O44. Watchpoints (R297 to R302): an access hits every enabled watchpoint that matches it, then triggers and stops
follow; the data of a watched read goes to the store; capture ends at its frame. -/
def Obligations.WatchpointEvents : Prop :=
  (∀ (n : Nat) (a : Access) (s : State), let u := begin_ n s; let ws := (List.range 32).filter fun w => hits a (wptAt w u)
    working u = true → u.build.hub = false → busKind a.bus u ≠ 0 →
    let p := ws.foldl (watchHit a) ([], u)
    exec (.watchpointAccess n a) s = .next (watchShutter ws (watchTrigger ws
      (if a.write then p.2 else { p.2 with wpt := { p.2.wpt with waiting := p.2.wpt.waiting ++ [(a.bus, p.1)] } })))) ∧
  (∀ (bus k : Nat) (data : Bytes) (heads : List (Bytes × Bool)) (s : State), working s = true →
    findIdx (fun (p : Nat × List (Bytes × Bool)) => p.1 == bus) s.wpt.waiting = some k → (s.wpt.waiting[k]?).map (·.2) = some heads →
    exec (.watchedReadData bus data) s = .next (heads.foldl (fun s h => writeCapture h.1 h.2 data s)
      { s with out := [], wpt := { s.wpt with waiting := s.wpt.waiting.eraseIdx k } })) ∧
  (∀ (k f : Nat) (s : State), s.wpt.auth = some (k, f) → f ≤ curFrame s → exec .captureExpiry s = .next (endCapture s.fresh))

/-! ### Probes -/

/-- O45. A tile's probe (R224 to R226, R237 to R243, R246): each pass examines the tiles from the cursor on; DONE ends a run as
pass, fail, timeout or yield; a run that is too long is aborted, and one that does not answer ABORT is hung; the retest, the
starvation, the passing records and the orders end at their limits. -/
def Obligations.ProbeEvents : Prop :=
  (∀ (ts : List TileSignal) (s : State), working s = true → s.build.hub = false → s.prb.window = true →
    let t := markAt s.frame.params.ret s + s.prb.pass * 1000 * nsUnit
    t ≤ windowClose s.fresh → s.prb.set.on = true → s.prb.active.isSome = true → s.sht.hung = false →
    probePause (setPrb (fun x => { x with pass := x.pass + 1 }) (advanceTo t s.fresh)) = false →
    exec (.probeSchedulerPass ts) s = .next (((List.range 40).map fun k => (s.prb.cursor + k) % 40).foldl (fun s x => examine x (ts.getD x ⟨false, 0, 0⟩) s)
      (setPrb (fun x => { x with pass := x.pass + 1 }) (advanceTo t s.fresh)))) ∧
  (∀ (x : Nat) (p : ProbeResult) (run : Run) (s : State), working s = true → p.status ≤ 2 → (tileAt x s).run = some run →
    let u := State.emit (.probeDrop x) (advanceTo (run.startedAt + p.cycles * cycleUnits s) s.fresh)
    (run.aborted = true → exec (.probeDone x p) s = .next (completeRun x run 2 false p u)) ∧
    (run.aborted = false → p.status = 0 → p.signature = (probeAt run.probe u).expected → exec (.probeDone x p) s = .next (completeRun x run 0 false p u)) ∧
    (run.aborted = false → p.status = 0 → p.signature ≠ (probeAt run.probe u).expected → exec (.probeDone x p) s = .next (completeRun x run 1 false p u)) ∧
    (run.aborted = false → p.status = 1 → exec (.probeDone x p) s = .next (completeRun x run 3 false p u)) ∧
    (run.aborted = false → p.status = 2 → run.queued = false →
      exec (.probeDone x p) s = .next (setTile x (fun y => { y with run := none, yields := y.yields + 1 }) u)) ∧
    (run.aborted = false → exec (.probeDurationExpiry x) s =
      .next (State.emit (.probeAbort x) (setTile x (fun y => { y with run := some { run with aborted := true } }) (advanceTo (runLimit run s.fresh) s.fresh)))) ∧
    (run.aborted = true → let w := hungResult run (State.emit (.probeDrop x) (advanceTo (runLimit run s.fresh + 4000 * nsUnit) s.fresh))
      exec (.probeAbortTimeout x) s = .next (completeRun x run 2 true w.1 (setTile x (fun y => { y with hung := true }) w.2)))) ∧
  (∀ (x : Nat) (q : Retest) (s : State), (tileAt x s).retest = some q → working s = true → q.runs ≤ 1 → q.openedAt + s.prb.set.retest ≤ curFrame s →
    exec (.retestLimitExpiry x) s = .next (unresolved x s.fresh)) ∧
  (∀ (x : Nat) (s : State), working s = true → s.build.hub = false → (tileAt x s).starvedAt = none → s.prb.set.starve ≤ (tileAt x s).starveFrames →
    exec (.probeStarved x) s =
      .next (raiseOwn 0x15 0 0 x 1 (toLe 8 s.prb.set.starve) (setTile x (fun y => { y with starvedAt := some (curFrame s) }) s.fresh))) ∧
  (∀ s : State, working s = true → ∃ t, exec .passingRecordDrop s = .next t ∧
    t.frame.carryProbes = s.frame.carryProbes.filter fun b => probeFailed b || curFrame s < rd b 8 8 + 64) ∧
  (∀ (x : Nat) (o : Nat × Request × Nat) (s : State), (tileAt x s).order = some o → working s = true → o.2.2 + 1000 ≤ curFrame s →
    exec (.probeRunTimeout x) s = .next (answerOrder x 2 none s.fresh))

/-- O46. A pushed pack is installed by a die unit and passed on by a hub that does not hold it yet; outcomes are counted, and
go to the hub that the push came from (R231). -/
def Obligations.PacksArePushedOn : Prop :=
  (∀ (d : Nat) (item : Bytes) (s : State), let f := if rd item 0 8 = 0 then none else some (rd item 0 8)
    carries d s = true → 200 ≤ item.length → (doorAt d s).dir ≠ 1 →
    (s.build.hub = false → exec (.probePackArrival d item) s = .next (takePack f (item.drop 8) s.fresh)) ∧
    (s.build.hub = true → pushing (packHash (item.drop 8)) s = false →
      exec (.probePackArrival d item) s = .next (startPush (some d) f (item.drop 8) s.fresh)) ∧
    (s.build.hub = true → pushing (packHash (item.drop 8)) s = true → exec (.probePackArrival d item) s = .next s.fresh)) ∧
  (∀ (d : Nat) (item : Bytes) (p : Push) (s : State),
    let counts := (records 8 (item.drop 32)).foldl (fun t e => tput (rd e 0 2) (tget 0 (rd e 0 2) t + rd e 4 4) t) p.counts
    let u := setPush p.hash (fun q => { q with counts := counts }) s.fresh
    carries d s = true → s.build.hub = true → 40 ≤ item.length → item.length ≤ 160 → item.length % 8 = 0 →
    s.prb.pushes.find? (·.hash == item.take 32) = some p →
    (p.source = none → exec (.packOutcomeArrival d item) s = .next u) ∧
    (∀ e, p.source = some e → liveAt e u = true →
      exec (.packOutcomeArrival d item) s = .next (sendBulk e 6 (nextSerial 6 u).1 item (nextSerial 6 u).2)))

/-! ### The Shutter and the codec -/

/-- O47. A stop (R309, R310, R313, R316): at its instant an armed stop starts; each region acknowledges or runs out of its 1 µs,
and each channel closes; the scan that follows ends in an image for the host or the tray, through the codec where a target is
set; hang detection declares a hang once. -/
def Obligations.ShutterStopsAndScans : Prop :=
  (∀ (a : Arm) (s : State), s.sht.arm = some a → working s = true → s.sht.state = shArmed →
    let u := advanceTo a.at_ s.fresh
    exec .timedStopInstant s = .next (startStop causeTimed a.serial a.at_ a.mode a.resume false
      (reportOutcome a.serial (if u.time.lock = 1 then 7 else 8) u))) ∧
  (∀ (g n c k : Nat) (o : Int) (r : Region) (s : State), regionOf g s = some r → s.sht.state = shStopping → r.done = false →
    let w := stopOffset k n o r s.fresh
    (k ≠ 2 → exec (.regionStopAck g n c k o) s = .next (stopProgress (setRegion g (fun r => { r with
      done := true, stopped := true, clock := k, n := n, stopCycle := c, offset := w, late := regionLate n w s.fresh }) s.fresh))) ∧
    (k = 2 → exec (.regionStopAck g n c k o) s = .next (stopProgress (setRegion g (fun r => { r with
      done := true, stopped := true, clock := k, n := 0, wait := 0, stopCycle := c, offset := o, late := false }) s.fresh))) ∧
    exec (.regionAckTimeout g) s = .next (stopProgress (setRegion g (fun r => { r with done := true, noAck := true })
      (advanceTo (s.sht.stopRec.ref + 1000 * nsUnit) s.fresh)))) ∧
  (∀ (j st n : Nat) (o : Int) (c : Channel) (s : State), s.sht.channels[j]? = some c → s.sht.state = shStopping → c.isClosed = false → st ≤ 4 →
    let shut (c : Channel) : Channel := { c with isClosed := true, status := st, flits := n, offset := o }
    exec (.channelClosed j st n o) s = .next (stopProgress (setSht (fun x => { x with channels := modifyAt j shut x.channels }) s.fresh))) ∧
  (∀ (out : List Bytes) (s : State), s.sht.liveRun = true → exec (.scanEnd out) s = .next (liveEnd out s.fresh)) ∧
  (∀ (out : List Bytes) (s : State), s.sht.state = shScanning → s.sht.building = none → s.sht.liveRun = false →
    let u := openStream s.fresh
    let a := runLanes u.sht.mode u.sht.aborting u ((segments u).drop u.sht.scan.seg)
      (out.drop (captures ((segments u).take u.sht.scan.seg) u).length) (laneRoom u) { scan := u.sht.scan }
    let v := State.emits a.shifts (takeScan a.bytes (setSht (fun x => { x with scan := a.scan }) u))
    exec (.scanEnd out) s = .next (if a.ended then scanDone v else v)) ∧
  (∀ v : State, let t := scanDone v
    t.sht.aborting = false ∧ (v.sht.mode = 2 → t.sht.state = shHeld) ∧ (v.sht.mode ≠ 2 → v.sht.stopRec.resume = none → t.sht.state = shScanned) ∧
      ∀ a, v.sht.mode ≠ 2 → v.sht.stopRec.resume = some a → t.sht.state = shResuming ∧ t.sht.resumeAt = some a) ∧
  (∀ s : State, let h := s.sht.hang
    working s = true → s.build.hub = false → h.counters ≠ [] → s.sht.hung = false → h.limit ≤ s.sht.hangCount →
    let u := ownEntry 0x0F50 0 0 (toLe 4 h.limit) (setSht (fun x => { x with hung := true, hangFrame := curFrame s, episode := x.episode + 1 }) s.fresh)
    (h.action = 0 → exec .hangDeclared s = .next u) ∧
    (h.action = 1 → dumpSending u = false → exec .hangDeclared s = .next (setSht (fun x => { x with dumpHead := some (hangHead u), dumpDue := true }) u)) ∧
    (h.action = 1 → dumpSending u = true → exec .hangDeclared s = .next (setSht (fun x => { x with skippedDumps := x.skippedDumps + 1 }) u)) ∧
    (h.action = 2 → exec .hangDeclared s = .next (immediateStop causeHang 1 u).2)) ∧
  (∀ s : State, working s = true → exec .codecBlock s = .next (match engineStep s.fresh with
    | (some k, u) => jobEnded k u
    | (none, u) => u))

/-- O48. Regions are released or reset until none is stopped, and then the Shutter is IDLE (R306, R323, R324); cuts and
outcome reports are taken (R312); the tray stores images and answers reservations with OK and the room or with NO_SPACE, and
the die shifts or gives up (R320, R326). -/
def Obligations.ShutterResumesAndStores : Prop :=
  (∀ (t : Nat) (s : State), s.sht.resumeAt = some t → working s = true → s.sht.state = shResuming →
    exec .resumeInstant s = .next (release (some t) (advanceTo t s.fresh))) ∧
  (∀ (g : Nat) (s : State), let u := setRegion g (fun r => { r with stopped := false }) s.fresh
    let v := if u.sht.regions.any (·.stopped) then u else setSht (fun x => { x with state := shIdle }) u
    (s.sht.state = shHeld → exec (.regionResetPulse g) s = .next v) ∧
    (s.sht.state = shResuming → s.sht.resumeAt = none → exec (.regionReleased g) s = .next v)) ∧
  (∀ (n d : Nat) (c : CutArm) (s : State), let u := begin_ n s
    carries d u = true → exec (.cutArrival n d c) s = .next (takeCut d c u)) ∧
  (∀ (d : Nat) (q : Word) (k : List Nat) (s : State), s.build.hub = true → carries d s = true → k.length = 10 →
    exec (.cutOutcomeReport d q k) s = .next (takeReport d q k s.fresh)) ∧
  (∀ (d n : Nat) (item : Bytes) (s : State), isTray s = true → carries d s = true →
    exec (.scanImageArrival d n item) s = .next (storeImage d 1 item s.fresh) ∧ exec (.hangDumpArrival d n item) s = .next (storeImage d 2 item s.fresh)) ∧
  (∀ (d : Nat) (item : Bytes) (s : State), isTray s = true → carries d s = true → item.length = 16 →
    let die := peerDie (doorAt d s); let serial := rd item 0 4
    let others := s.sht.reserved.filter fun r => !(r.1 == die && r.2.1 == serial)
    let answer (st : Nat) (u : State) := sendBulk d 4 (nextSerial 4 u).1 (toLe 4 serial ++ toLe 2 st ++ zeros 10) (nextSerial 4 u).2
    (storeUsable s = true → imageBytes s + sumN (others.map (·.2.2)) + rd item 8 8 ≤ areaBytes s →
      exec (.reserveArrival d item) s = .next (answer stOk (setSht (fun x => { x with reserved := others ++ [(die, serial, rd item 8 8)] }) s.fresh))) ∧
    (areaBytes s < imageBytes s + sumN (others.map (·.2.2)) + rd item 8 8 → exec (.reserveArrival d item) s = .next (answer stSpace s.fresh))) ∧
  (∀ (item : Bytes) (s : State), s.build.hub = false → carries 0 s = true → item.length = 16 → s.sht.reserving = some (rd item 0 4) →
    s.sht.state = shStopped ∨ s.sht.state = shScanned →
    (rd item 4 2 = stOk → exec (.reserveReplyArrival item) s = .next (shiftScan s.fresh)) ∧
    (rd item 4 2 ≠ stOk → exec (.reserveReplyArrival item) s = .next (afterScan (imageFailed 1 (setSht (fun x => { x with reserving := none, wantScan := 0 }) s.fresh)))))

/-- O49. The codec is lossless (R335 to R338): what the encoder makes of up to 4,096 bytes under any history, the decoder of a
stream with the same history gives back, whatever matches the compressor chose. -/
def Obligations.CodecIsLossless : Prop :=
  ∀ (c d : Ctx) (data rest : Bytes),
    (c.target = 1 ∨ c.target = 2) → 1 ≤ data.length → data.length ≤ 4096 →
    d.input = (encodeBlock c data).1 ++ rest → d.hasHist = c.hasHist → d.history = c.history → (d.target = 0 ∨ d.target = c.target) →
    d.ended = false → d.outBytes + data.length ≤ d.limit →
    ∃ h, decodeBlock d = .ok (h, data) ∧ h.raw = !(encodeBlock c data).2 ∧ h.n = data.length ∧
      (encodeBlock c data).1.length = 8 + (if h.raw then 4096 else targetSize c.target)

/-- O50. R336: a raw payload holds the n input bytes followed by 4,096 − n zero bytes; the decoder copies the n bytes, and fails
with PADDING if any of the zero bytes is not zero. -/
def Obligations.RawPayloads : Prop :=
  ∀ (data tail : Bytes), data.length + tail.length = 4096 →
    (∀ c : Ctx, c.target = 1 ∨ c.target = 2 → 1 ≤ data.length → (encodeBlock c data).2 = false → (encodeBlock c data).1.drop 8 = data ++ zeros (4096 - data.length)) ∧
    ((∀ b ∈ tail, b = 0) → decodeRaw (data ++ tail) data.length = .ok data) ∧
    ((∃ b ∈ tail, b ≠ 0) → decodeRaw (data ++ tail) data.length = .error cdPadding)

/-! ### The event recorder and storage -/

/-- O51. The recorder and storage: one entry is written in 4 cycles, or refused and counted when the recorder is full; a clear
sets base to head and writes CLEARED; hours are counted; the tray appends mirrored entries and the die sends the next one;
storage completes, or fails once and is tried again; banks change and answer their command (R352 to R361, R366, R458, R459). -/
def Obligations.RecorderAndStorageEvents : Prop :=
  (∀ (e : EvrEntry) (q : List EvrEntry) (s : State), s.evr.queue = e :: q → outOfReset s = true → s.evr.clearing = false →
    let u := advance 4 { s with out := [], evr := { s.evr with queue := q } }
    (evrFull u = false → exec .recorderWrite s = .next (mirrorOwn (writeEvr e u)) ∧ (writeEvr e u).evr.head = s.evr.head + 1) ∧
    (evrFull u = true → exec .recorderWrite s = .next { u with evr := { u.evr with
      refFull := satAdd u32Max u.evr.refFull 1, firstRefusal := u.evr.firstRefusal.or (some e.stamp) } })) ∧
  (∀ s : State, s.evr.clearing = true → ∃ t, exec .recorderClearDone s = .next t ∧ t.evr.clearing = false ∧ t.evr.base = s.evr.head ∧
    t.evr.head = s.evr.head + 1 ∧ t.evr.slots.length = 1 ∧ t.evr.refFull = 0 ∧ t.evr.refBusy = 0 ∧ t.evr.corrupt = []) ∧
  (∀ s : State, outOfReset s = true → ∃ t, exec .hourCounterExpiry s = .next t ∧ t.evr.hours = min (s.evr.hours + 1) u32Max ∧ t.evr.hourCtr = 0 ∧
    t.out = [.hoursOut t.evr.hours]) ∧
  (∀ s : State, exec .partialLogFlush s = .next (((mirrorOwn s.fresh).mem.logs.map (·.1)).foldl (fun s k => issueLog k s) (mirrorOwn s.fresh))) ∧
  (∀ (d : Nat) (item : Bytes) (s : State), isTray s = true → carries d s = true → item ≠ [] → item.length % 64 = 0 → let die := peerDie (doorAt d s)
    (storageUsable s = true → exec (.recorderMirrorArrival d item) s = .next ((records 64 item).foldl (fun s b => mirrorAppend die b s) s.fresh)) ∧
    (storageUsable s = false → exec (.recorderMirrorArrival d item) s =
      .next { s with out := [], mem := { s.mem with mirrorWait := s.mem.mirrorWait ++ [(die, item)] } })) ∧
  (∀ (b : Bytes) (s : State), let k := max s.evr.mirrorNext s.evr.base
    let u := nextSerial 8 { s with out := [], evr := { s.evr with mirrorNext := k + 1 } }
    s.build.hub = false → carries 0 s = true → entryOf k s.fresh = some b → exec .mirrorEntrySend s = .next (sendBulk 0 8 u.1 b u.2)) ∧
  (∀ (ready : Bool) (n : Nat) (s : State), s.build.hub = true →
    exec (.storageReadyChange ready n) s = .next (mirrorReady (mirrorOwn { s with out := [], mem := { s.mem with ssRdy := ready, ssCap := n } }))) ∧
  (∀ (tag st : Nat) (c : StorageCmd) (s : State), s.mem.cmds.find? (·.tag == tag) = some c → let rest := s.mem.cmds.filter (·.tag != tag)
    let up (p : Nat × Log) := if logArea p.1 == c.area then (p.1, { p.2 with written := max p.2.written c.upTo }) else p
    (st = 0 → exec (.storageCompletion tag st) s = .next { s with out := [], mem := { s.mem with cmds := rest, logs := s.mem.logs.map up } }) ∧
    (st ≠ 0 → c.retried = false → exec (.storageCompletion tag st) s = .next { s with
      out := [.storageWrite tag c.area], mem := { s.mem with cmds := rest ++ [{ c with retried := true }] } }) ∧
    (st ≠ 0 → c.retried = true → exec (.storageCompletion tag st) s = .next { s with
      out := [], mem := { s.mem with cmds := rest, failed := s.mem.failed ++ [c.area],
                                     failures := tput c.area (tget 0 c.area s.mem.failures + 1) s.mem.failures } })) ∧
  (∀ (k old new : Nat) (s : State), s.mem.changing.find? (·.1 == k) = some (k, old, new) → let rest := s.mem.changing.filter (·.1 != k)
    let u := ownEntry 0x0F60 0 0 (toLe 1 k ++ toLe 1 old ++ toLe 1 new)
      { s with out := [], mem := { s.mem with banks := modifyAt k (fun _ => new) s.mem.banks, changing := rest } }
    let v := if new = 2 then bankLost k u else u
    (s.mem.bankReply = none → exec (.bankChangeComplete k) s = .next v) ∧
    (∀ r bs, s.mem.bankReply = some (r, bs) →
      ((∃ b ∈ bs, ∃ e ∈ rest, e.1 = b) → exec (.bankChangeComplete k) s = .next v) ∧
      ((∀ b ∈ bs, ∀ e ∈ rest, e.1 ≠ b) → exec (.bankChangeComplete k) s =
        .next (finish 0x1302 r (okay [], { v with mem := { v.mem with bankReply := none } })))))

/-! ### The panel and audit hashing -/

/-- O52. The panel (R468 to R473): a level held for its debounce time changes its cage, the lamp or the hold, one held for less
is a glitch; a service window closes at its time; a press held for 3 s counts once and triggers a tray's trace. -/
def Obligations.PanelEvents : Prop :=
  (∀ (i : PanelInput) (level : Bool) (k : Nat) (s : State), working s = true → s.build.hub = true → let stamp := s.time.now - k * 1000 * nsUnit
    (k < debounceTime i → exec (.panelInputAccepted i level k) s = .next (glitch i s.fresh)) ∧
    (debounceTime i ≤ k →
      (∀ c, i = .presence c → c < s.pnl.cages.length → (cageAt c s).present ≠ level →
        exec (.panelInputAccepted i level k) s = .next (presenceChange c level stamp s.fresh)) ∧
      (∀ c, i = .touch c → c < s.pnl.cages.length → (cageAt c s).touched ≠ level →
        exec (.panelInputAccepted i level k) s = .next (touchChange c level stamp s.fresh)) ∧
      (i = .locate → level = true → exec (.panelInputAccepted i level k) s =
        .next (panelEntry 5 0xFF 0xFF (b2n !s.pnl.lamp) stamp [] { s with out := [], pnl := { s.pnl with lamp := !s.pnl.lamp } })) ∧
      (i = .hold → exec (.panelInputAccepted i level k) s =
        .next { s with out := [], pnl := { s.pnl with holdSince := if level then some stamp else none, holdCounted := false } }))) ∧
  (∀ (c t : Nat) (s : State), working s = true → (cageAt c s).windowOpen = true → (cageAt c s).closeAt = some t →
    exec (.serviceWindowClose c) s = .next (setCage c (fun g => { g with
      windowOpen := false, closeAt := none, windows := modifyAt (g.windows.length - 1) (fun w => (w.1, some t)) g.windows }) (advanceTo t s.fresh))) ∧
  (∀ (t : Nat) (s : State), s.pnl.holdSince = some t → working s = true → s.pnl.holdCounted = false →
    let u := advanceTo (t + 3 * secUnit) { s with out := [], pnl := { s.pnl with holdCounted := true } }
    (isTray s = true → s.trc.stopAt = none → s.trc.stopped = false →
      exec .holdPress s = .next (trayTrigger 0 (panelEntry 6 0xFF 0xFF 2 u.time.now [] u))) ∧
    (isTray s = true → s.trc.stopAt ≠ none ∨ s.trc.stopped = true →
      exec .holdPress s = .next (trayTrigger 0 (panelEntry 6 0xFF 0xFF 0 u.time.now [] u))) ∧
    (isTray s = false → exec .holdPress s = .next (panelEntry 6 0xFF 0xFF 0 u.time.now [] u)))

/-- O53. Audit hashing (R435, R438, R439): presented transfers are hashed, a loss marks its channels, the tray and the hubs
above place the leaves they receive, and a key is closed at its seal frame plus the level's lead; one first heard of after that is
created closed, its node all zeros (the model's choice, log entry 102). -/
def Obligations.AuditEvents : Prop :=
  (∀ (c : Nat) (data : Bytes) (s : State), working s = true → s.build.hub = false → s.aud.start.isSome = true → (s.aud.chans.getD c {}).role ≠ 0 →
    exec (.auditTransfer c data) s = .next (setAud (fun a => { a with chans := modifyAt c (feed data) a.chans }) s.fresh)) ∧
  (∀ (m : BitVec 16) (s : State), working s = true → s.build.hub = false → s.aud.start.isSome = true →
    ∃ t, exec (.auditLoss m) s = .next t ∧ t.aud.chans.length = s.aud.chans.length ∧
      ∀ (k : Nat) (x : AuditCh), s.aud.chans[k]? = some x →
        t.aud.chans[k]? = some (if bit m.toNat k = true ∧ x.role ≠ 0 then { x with incomplete := true } else x)) ∧
  (∀ (d : Nat) (item : Bytes) (s : State), isTray s = true → carries d s = true → item.length = 32 + 48 * byteAt item 1 → byteAt item 0 = 1 →
    byteAt item 1 ≤ 16 → rd item 4 4 = peerDie (doorAt d s) →
    exec (.auditRecordArrival d item) s = .next (withKey (BitVec.ofNat 32 (rd item 8 4)) (rd item 24 8)
      (placeLeaf (slotOf (rd item 4 4)) (sha256 (0x10 :: item)) 1 (rd item 12 4) 0) s.fresh)) ∧
  (∀ (d : Nat) (item : Bytes) (s : State), let peer := peerHub (doorAt d s); let leaf := if isPod s then bits peer 0 5 else bits peer 0 6 + 64 * bits peer 13 1
    (isPod s = true ∨ isRoot s = true) → carries d s = true → item.length = 64 → rd item 4 4 = 0 → rd item 60 4 = 0 →
    exec (.auditNodeArrival d item) s = .next (withKey (BitVec.ofNat 32 (rd item 0 4)) (rd item 8 8)
      (placeLeaf leaf (slice item 16 32) (rd item 48 4) (rd item 52 4) (rd item 56 4)) s.fresh)) ∧
  (∀ (g : Word) (f : Nat) (k : AuditKey) (s : State), auditKey g f s.fresh = some k → working s = true → s.build.hub = true → k.isClosed = false →
    f + auditLead s.fresh ≤ curFrame s →
    let c := { k with isClosed := true, node := auditTree (leafNode k s.fresh) (auditLevels s.fresh) 0 }; let u := putKey c s.fresh
    (isRoot s = true → exec (.auditClose g f) s = .next (setAud (fun a => { a with jobs := a.jobs ++ [jobRecord c u] }) u)) ∧
    (isRoot s = false → exec (.auditClose g f) s = .next (sendNode c u))) ∧
  (∀ (g : Word) (f : Nat) (act : AuditKey → State → State) (s : State), auditKey g f s = none → f + auditLead s ≤ curFrame s →
    let k : AuditKey := { tag := g, sealF := f, isClosed := true, node := zeros 32 }
    withKey g f act s = act k (setAud (fun a => { a with keys := a.keys ++ [k] }) s))

/-! ### The host door -/

/-- O54. Host door accesses (R388, R398, R404): a read answers its word and leaves the command window; a write into the window
changes its four bytes and no other byte; while CMD_BUSY is set it is ignored and counted; another width or alignment is a bad access,
whose first address is kept; the write of a packet's last word takes the packet. -/
def Obligations.HostDoorAccesses : Prop :=
  (∀ (off : Nat) (v : Word) (s : State), working s = true → s.build.hub = false → off % 4 = 0 → off < 0x800 →
    exec (.hostDoorWrite ⟨false, off, 4, v⟩) s = .next (answerRead (le (memRead s.host.cmdWin off 4)) s.fresh) ∧
    (s.host.busy = true → exec (.hostDoorWrite ⟨true, off, 4, v⟩) s = .next { s with out := [], host := { s.host with ignored := s.host.ignored + 1 } }) ∧
    (s.host.busy = false → off ≠ takeOffset s → ∃ m, exec (.hostDoorWrite ⟨true, off, 4, v⟩) s = .next { s with out := [], host := { s.host with cmdWin := m } } ∧
      memRead m off 4 = toLe 4 v.toNat ∧ ∀ a, a < off ∨ off + 4 ≤ a → memGet m a = memGet s.host.cmdWin a)) ∧
  (∀ (w : Bool) (off n : Nat) (v : Word) (s : State), working s = true → n ≠ 4 ∨ off % 4 ≠ 0 ∨ 0x80000 ≤ off →
    ∃ t, exec (.hostDoorWrite ⟨w, off, n, v⟩) s = .next t ∧ t.host.badAccess = true ∧ (w = false → t.host.rdata = 0) ∧ t.host.cmdWin = s.host.cmdWin ∧
      t.host.badAddr = if s.host.badAccess then s.host.badAddr else BitVec.ofNat 32 (2 ^ 31 * b2n w + off % 2 ^ 19)) ∧
  (∀ (n : Nat) (v : Word) (s : State), let u := begin_ n s
    working u = true → u.build.hub = false → u.host.busy = false → let x := writeWindow (takeOffset u) v u
    exec (.commandTake n v) s = .next (arrivePacket .host (windowPacket x) (setHost (fun h => { h with busy := true, replyReady := false }) x)))

/-- O55. Reads that latch (R93, R359, R399, R408, R410): the first word of a group answers from the values of one edge, which the group's
other registers then hold. -/
def Obligations.LatchingReads : Prop :=
  (∀ (n : Nat) (s : State), let u := begin_ n s
    working u = true → exec (.timeLatchRead n) s = .next (answerRead (secOf u.time.now % 2 ^ 32)
      { u with host := { u.host with timLatch := (secOf u.time.now, nsOf u.time.now, subOf u.time.now), frmLatch := frameAt u } }) ∧
    (∀ m t sw, nextFrame u = (m, t, sw) → u.time.running = true → (t ≤ u.time.now → frameAt u = m) ∧ (u.time.now < t → frameAt u = curFrame u))) ∧
  (∀ s : State, working s = true → ∃ t, exec .counterLatchRead s = .next t ∧ t.host.rdata = BitVec.ofNat 32 t.host.ctrData.toNat ∧
    ∀ i, i = (if s.build.hub then bits s.host.ctrSelHi.toNat 0 14 else bits s.host.ctrSel.toNat 0 13) → let c := tget {} i s.win.ctrs
      t.host.ctrFlags = ctrFlags c ∧
      (bits s.host.ctrSel.toNat 26 2 = 0 ∨ bits s.host.ctrSel.toNat 26 2 = 3 → t.host.ctrData = BitVec.ofNat 64 c.live) ∧
      (bits s.host.ctrSel.toNat 26 2 = 1 → t.host.ctrData = BitVec.ofNat 64 c.prev) ∧
      (bits s.host.ctrSel.toNat 26 2 = 2 → t.host.ctrData = BitVec.ofNat 64 (c.delta.getD 0) ∧ t.host.ctrAbsent = c.delta.isNone)) ∧
  (∀ s : State, working s = true → exec .recorderLatchRead s = .next (answerRead (s.evr.head % 2 ^ 32)
    { s with out := [], host := { s.host with evrHead := s.evr.head, evrBase := s.evr.base } })) ∧
  (∀ s : State, working s = true → s.build.hub = false → ∃ t, exec .errorRingLatchRead s = .next t ∧
    t.host.errLatch = (s.err.next, s.err.release, s.err.fetched) ∧ t.host.rdata = BitVec.ofNat 32 s.err.next)

/-- O56. R14: a write to a register with W1C bits completes, and where hardware sets a W1C bit in the cycle in which software writes 1 to it, the bit stays set. -/
def Obligations.HardwareWinsOverClear : Prop :=
  ∀ (off k : Nat) (get : State → Bool) (d h : Word) (s : State),
    ((off, k, get) ∈ [(0x1020, 3, fun x : State => x.host.badAccess), (0x1040, 8, fun x => x.time.stepped), (0x1100, 29, fun x => x.evr.new),
        (0x1144, 10, fun x => x.sht.imageFail), (0x1144, 8, fun x => x.sht.stopEvent), (0x1148, 8, fun x => x.cdc.error),
        (0x1148, 4, fun x => x.cdc.outFull)] ∨
      (s.build.hub = false ∧ (off, k, get) ∈ [(0x1020, 1, fun x : State => x.host.replyReady), (0x1140, 8, fun x => x.trc.triggered)])) →
    working s = true → ∃ t, exec (.w1cWrite off d h) s = .next t ∧ get t = ((get s && !bit d.toNat k) || bit h.toNat k)

/-- O57. R400: UZ_CMD_MAGIC reads 0x0037_5A55, a die unit and a hub alike; its bytes, lowest first, spell "UZ7" and a zero. -/
def Obligations.MagicRegisterReads : Prop :=
  (∀ (v : Word) (s : State), working s = true → exec (.hostDoorWrite ⟨false, 0x1000, 4, v⟩) s = .next (answerRead 0x00375A55 s.fresh) ∧
    (answerRead 0x00375A55 s.fresh).out = [.hostRead 0x00375A55]) ∧
  toLe 4 0x00375A55 = (['U', 'Z', '7'].map fun c => BitVec.ofNat 8 c.toNat) ++ [0]

/-! ### Frame parameters -/

/-- O58. R23: FRAME.SET answers a set outside the ranges of Table FRM-1, or one that breaks Table FRM-2 for its scope, with OUT_OF_RANGE, and
the frame engine's state is unchanged. It is the last check of a unit that takes the set: a die unit without a link, the primary root
(fleet scope), a tray hub (tray scope). Times in nanoseconds after the tick. -/
def Obligations.ParameterSetsAreChecked : Prop :=
  ∀ (r : Request) (s : State), let t := taken r s; let b := r.body; let p := givenParams b t.frame.params
    let scope := (set? 8 b).getD (b2n t.frame.params.trayScope); let tray := scope = 1; let fleet := scope = 0
    let mark (m : Nat) := m < 1 ∨ 999 < m; let at_ (m : Nat) := p.period * m; let g := p.grace * 1000
    let cutoff (x : Nat) := at_ p.emit < (p.limit * 8192 / 4000 + (if p.limit * 8192 % 4000 = 0 then 0 else 1) + 2) * 1000 + x
    passes { code := 0x0101, params := must tFrame :: (List.range 10).map (setting · 4) } true r t = true →
    ((isDie t = true ∧ liveAt 0 t = false) ∨ (isPrimary t = true ∧ ¬ tray) ∨
      (isTray t = true ∧ ¬ fleet ∧ (t.frame.params.trayScope = true ∨ ∀ c q, t.frame.fleet = some (c, some q) → q.anchor ≤ curFrame t))) →
    (p.period < 250 ∨ 100000 < p.period ∨ (fleet ∧ p.period < 500) ∨ mark p.emit ∨ mark p.tray ∨ mark p.pod ∨ mark p.root ∨ p.ret < 1 ∨ 1000 < p.ret ∨
      p.grace < 2 ∨ 50 < p.grace ∨ p.limit < 1 ∨ 32 < p.limit ∨ p.stale < 1 ∨ 64 < p.stale ∨ 1 < scope ∨
      (fleet ∧ ¬ (p.emit < p.tray ∧ p.tray < p.pod ∧ p.pod < p.root ∧ p.root < p.ret)) ∨ (tray ∧ ¬ (p.emit < p.tray ∧ p.tray < p.ret)) ∨
      cutoff 25000 ∨ at_ p.tray < at_ p.emit + g + 20000 ∨
      (fleet ∧ (at_ p.pod < at_ p.tray + g + 20000 ∨ at_ p.root < at_ p.pod + g + 20000 ∨ at_ p.ret < at_ p.root + 30000)) ∨
      (tray ∧ at_ p.ret < at_ p.tray + 30000)) →
    exec (.frameSet r) s = .next (finish 0x0101 r (refuse stRange, t)) ∧ (finish 0x0101 r (refuse stRange, t)).frame = s.frame

/-! ### Encodings -/

/-- O59. A body's TLVs, padding and all, read back as they were built (R372 to R375). -/
def Obligations.BodiesReadBack : Prop :=
  ∀ (ts : List Tlv) (n : Nat), (∀ t ∈ ts, t.ty < 2 ^ 16 ∧ t.val.length < 2 ^ 16) → ts.length ≤ n → readTlvs n (bodyBytes ts) = ts

/-- O60. Frame parameter blocks, LEB128 values and cuts read back as they were built (Table RED-19, R279; the body of a cut is the model's
layout, log entry 40). -/
def Obligations.BlocksReadBack : Prop :=
  (∀ p : FrameParams, p.anchor < 2 ^ 64 → p.anchorNs < 1000000000 * 2 ^ 64 → p.period < 2 ^ 32 → p.emit < 2 ^ 16 → p.tray < 2 ^ 16 → p.pod < 2 ^ 16 →
    p.root < 2 ^ 16 → p.ret < 2 ^ 16 → p.grace < 256 → p.limit < 256 → p.stale < 256 → readParams (paramBlock p) = p) ∧
  (∀ (v : Nat) (rest : Bytes), v < 2 ^ 70 → unleb128 (leb128 v ++ rest) = some (v, rest)) ∧
  (∀ c : CutArm, c.op ≤ 2 → c.mode ≤ 2 → (∀ t ∈ c.stop :: c.resume.toList, t.sec < 2 ^ 64 ∧ t.ns < 2 ^ 30 ∧ t.sub < 2 ^ 16) → readCut (cutBody c) = some c)
end

