-- ==== Sys2Proof/Laws/Command.lean ====
section
/-! SUPPORT. What the shared operations of an opcode do: `command`, `readout`, `byteRun`, `defer`, `takePiece`. -/
namespace Sys2Proof.Machine

/-- A request that passes gets what the opcode's own part makes of it. -/
theorem command_of_passes {o : Op} {a : Bool} {r : Request} {s : State} {act : List Tlv → State → Reply × State}
    (h : passes o a r s = true) : command o a r act s = act r.body s := by
  simp only [passes, Bool.and_eq_true, bne_iff_ne, ne_eq, Option.isNone_iff_eq_none] at h
  obtain ⟨⟨⟨⟨⟨⟨⟨h1, h2⟩, h3⟩, h4⟩, h5⟩, h6⟩, h7⟩, h8⟩ := h
  have h4' : (sessionOf r.session s).isNone = false := by simpa using h4
  have h5' : (s.sec.active.isNone && !bootOpcode o.code) = false := by
    cases hx : s.sec.active <;> simp_all
  simp [command, h1, h2, h3, h4', h5', h6, h7, h8]

/-- The walk of a body fails with BAD_LENGTH or BAD_PARAM. -/
theorem walk_status {ps : List Param} {b : List Tlv} {p c e : Nat} (h : walk ps b p c = some e) : e = stBadLength ∨ e = stBadParam := by
  induction b generalizing p c with
  | nil => simp [walk] at h
  | cons t r ih =>
    unfold walk at h
    dsimp only at h
    generalize (if t.ty % tBadPad == p then c + 1 else 1) = n at h
    split at h
    · exact .inl (Option.some.inj h).symm
    split at h
    · exact .inr (Option.some.inj h).symm
    split at h
    · exact .inr (Option.some.inj h).symm
    · exact ih h

/-- So does row 9. -/
theorem checkBody_status {ps : List Param} {b : List Tlv} {e : Nat} (h : checkBody ps b = some e) : e = stBadLength ∨ e = stBadParam := by
  unfold checkBody at h
  split at h
  · rename_i hw; rw [← Option.some.inj h]; exact walk_status hw
  · split at h
    · exact .inr (by simpa using h.symm)
    · simp at h

/-- A request that does not pass is refused with the status of its row, and the state is as it was. -/
theorem command_refused {o : Op} {a : Bool} {r : Request} {s : State} (act : List Tlv → State → Reply × State)
    (h : passes o a r s = false) : ∃ st ∈ [stBusy, stAuth, stState, stPermit, stBadLength, stBadParam], command o a r act s = (refuse st, s) := by
  unfold command
  split
  · exact ⟨_, by decide, rfl⟩
  split
  · exact ⟨_, by decide, rfl⟩
  split
  · exact ⟨_, by decide, rfl⟩
  split
  · exact ⟨_, by decide, rfl⟩
  split
  · rename_i e he
    refine ⟨e, ?_, rfl⟩
    rcases checkBody_status he with rfl | rfl <;> decide
  rename_i h1 h2 h3 h4 _ h5
  exfalso
  cases hx : s.sec.active <;> simp_all [passes]

theorem command_or {o : Op} {a : Bool} {r : Request} {s : State} (act : List Tlv → State → Reply × State) :
    command o a r act s = act r.body s ∨ ∃ st, command o a r act s = (refuse st, s) := by
  cases h : passes o a r s
  · obtain ⟨st, -, he⟩ := command_refused act h
    exact .inr ⟨st, he⟩
  · exact .inl (command_of_passes h)

/-- A readout is OK, or BAD_LENGTH for a version 1 request. -/
theorem readout_cases (v : Nat) (fixed : List Tlv) (items : List Bytes) (next : Nat → Nat) :
    ((readout v fixed items next).status = stOk ∧ ∀ t ∈ fixed, t ∈ (readout v fixed items next).tlvs) ∨
      (v = 1 ∧ readout v fixed items next = refuse stBadLength) := by
  unfold readout
  dsimp only
  split
  · refine .inl ⟨rfl, fun t h => ?_⟩
    by_cases hp : t.ty < tRecord <;> simp [okay, h, hp]
    omega
  split
  · rename_i _ hv
    exact .inr ⟨by simpa using hv, rfl⟩
  · refine .inl ⟨rfl, fun t h => ?_⟩
    by_cases h1 : t.ty < tItems <;> by_cases h2 : t.ty < tRecord <;> simp [withItems, h, h1, h2] <;> omega

/-- The same for a byte run. -/
theorem byteRun_cases (v : Nat) (fixed : List Tlv) (data : Bytes) (off : Nat) :
    ((byteRun v fixed data off).status = stOk ∧ ∀ t ∈ fixed, t ∈ (byteRun v fixed data off).tlvs) ∨
      (v = 1 ∧ byteRun v fixed data off = refuse stBadLength) := by
  unfold byteRun
  dsimp only
  split
  · refine .inl ⟨rfl, fun t h => ?_⟩
    by_cases hp : t.ty < tRecord <;> simp [okay, h, hp]
    omega
  split
  · rename_i _ hv
    exact .inr ⟨by simpa using hv, rfl⟩
  · refine .inl ⟨rfl, fun t h => ?_⟩
    by_cases h1 : t.ty < tItems <;> by_cases h2 : t.ty < tRecord <;> simp [withItems, h, h1, h2] <;> omega

/-- A change at a frame that is still to come. -/
theorem defer_later {code object f : Nat} {c : Change} {s : State} (h : curFrame s < f) :
    defer code object f c s =
      ({ status := stDeferred, tlvs := effect f :: ((pendOf code object s).map fun p => (⟨tReplaced, toLe 8 p.frame⟩ : Tlv)).toList },
        setPend ⟨code, object, f, c⟩ s) := by
  simp [defer, Nat.not_le.mpr h]

/-- A change at a frame that is past. -/
theorem defer_past {code object f : Nat} {c : Change} {s : State} (h : f ≤ curFrame s) : defer code object f c s = (refuse stRange, s) := by
  simp [defer, h]

/-- The first of several pieces. -/
theorem takePiece_opens {k : Slot} {session : Nat} {b : List Tlv} {s : State} (h : opens k b = true)
    (hl : (pieceOf b).2.2.length < (pieceOf b).1) (hf : (val? tFrame b).isNone = true) :
    takePiece k session b s = .done (okay [stU32 0 (pieceOf b).2.2.length])
      (withAssembly k.key (some ⟨k.key, session, (pieceOf b).1, (pieceOf b).2.2⟩) k.cleared) := by
  simp only [opens, pieceOf, Bool.and_eq_true, Bool.or_eq_true, beq_iff_eq, Bool.not_eq_true'] at h hl
  obtain ⟨⟨⟨⟨⟨h0, hb⟩, hs⟩, hd⟩, hu⟩, hm⟩ := h
  have hf' : (val? tFrame b).isSome = false := by cases hx : val? tFrame b <;> simp_all
  have hs' := of_decide_eq_true hs
  have hd' := hd.imp of_decide_eq_true of_decide_eq_true
  have hsz : decide (rd ((val? tPiece b).getD []) 0 4 > k.limit) = false := by simpa using hs'
  have h64 : (decide ((((val? tPiece b).getD []).drop 8).length < 64) && decide (rd ((val? tPiece b).getD []) 0 4 ≥ 64)) = false := by
    simp [-List.length_drop]; omega
  simp [-List.length_drop, takePiece, pieceOf, withAssembly, h0, hb, hu, hm, hf', hsz, h64, Nat.ne_of_lt hl, Nat.not_lt.mpr (Nat.le_of_lt hl)]

/-- A later piece. -/
theorem takePiece_continues {k : Slot} {session : Nat} {b : List Tlv} {s : State} {a : Assembly} (h : continues k session b s = true)
    (ha : assemblyOf k.key s = some a) (hl : (pieceOf b).2.1 + (pieceOf b).2.2.length < (pieceOf b).1) (hf : (val? tFrame b).isNone = true) :
    takePiece k session b s = .done (okay [stU32 0 ((pieceOf b).2.1 + (pieceOf b).2.2.length)])
      (withAssembly k.key (some ⟨k.key, session, (pieceOf b).1, a.bytes ++ (pieceOf b).2.2⟩) s) := by
  simp only [continues, ha, pieceOf, Option.any, Bool.and_eq_true, bne_iff_ne, beq_iff_eq] at h hl
  obtain ⟨h0, ⟨hs, ht⟩, hg⟩ := h
  have hf' : (val? tFrame b).isSome = false := by cases hx : val? tFrame b <;> simp_all
  unfold assemblyOf at ha
  unfold takePiece
  simp [-List.length_drop, ha, hs, ht, hg, hf', h0, Nat.pos_of_ne_zero h0, pieceOf, withAssembly, Nat.ne_of_lt hl, Nat.not_lt.mpr (Nat.le_of_lt hl)]

/-- The last piece of an image. -/
theorem takePiece_ends {k : Slot} {session : Nat} {b : List Tlv} {s : State} {a : Assembly} (h : continues k session b s = true)
    (ha : assemblyOf k.key s = some a) (hl : (pieceOf b).2.1 + (pieceOf b).2.2.length = (pieceOf b).1) :
    takePiece k session b s = .whole (a.bytes ++ (pieceOf b).2.2) (withAssembly k.key none s) := by
  simp only [continues, ha, pieceOf, Option.any, Bool.and_eq_true, bne_iff_ne, beq_iff_eq] at h hl
  obtain ⟨h0, ⟨hs, ht⟩, hg⟩ := h
  unfold assemblyOf at ha
  unfold takePiece
  simp [-List.length_drop, ha, hs, ht, hg, h0, Nat.pos_of_ne_zero h0, pieceOf, withAssembly, hl]

end Sys2Proof.Machine
end

