-- ==== Sys2Proof/Laws/Memory.lean ====
section
/-! SUPPORT. Byte memory: the canonical form, its keeping by writes, and reads after writes. -/
namespace Sys2Proof.Machine

theorem Memory.wf_iff (m : List Host.Cell) :
    Memory.wf m = true ↔ m.Pairwise (fun a b => a.1 < b.1) ∧ ∀ p ∈ m, p.2 ≠ 0 := by
  induction m with
  | nil => simp [Memory.wf]
  | cons p r ih =>
    obtain ⟨a, b⟩ := p
    cases r with
    | nil => simp [Memory.wf]
    | cons q r =>
      obtain ⟨a', b'⟩ := q
      simp only [Memory.wf, Bool.and_eq_true, bne_iff_ne, decide_eq_true_eq, ih]
      constructor
      · rintro ⟨⟨hb, hl⟩, hp, hz⟩
        refine ⟨List.pairwise_cons.2 ⟨?_, hp⟩, ?_⟩
        · intro x hx
          rcases List.mem_cons.1 hx with rfl | hx
          · exact hl
          · exact Nat.lt_trans hl ((List.pairwise_cons.1 hp).1 x hx)
        · intro x hx
          rcases List.mem_cons.1 hx with rfl | hx
          · exact hb
          · exact hz x hx
      · rintro ⟨hp, hz⟩
        have hp' := List.pairwise_cons.1 hp
        exact ⟨⟨hz _ (List.mem_cons_self ..), hp'.1 _ (List.mem_cons_self ..)⟩, hp'.2,
          fun x hx => hz x (List.mem_cons_of_mem _ hx)⟩

theorem mem_tput {α : Type} {k : Nat} {v : α} {t : List (Nat × α)} {p : Nat × α} (h : p ∈ tput k v t) :
    p = (k, v) ∨ p ∈ t := by
  induction t with
  | nil => simpa [tput] using h
  | cons q r ih =>
    obtain ⟨k', v'⟩ := q
    simp only [tput] at h
    split at h
    · rcases List.mem_cons.1 h with rfl | h
      · simp
      · rcases ih h with rfl | h <;> simp [*]
    · split at h
      · rcases List.mem_cons.1 h with rfl | h <;> simp [*]
      · rcases List.mem_cons.1 h with rfl | h <;> simp_all

theorem tput_sorted {α : Type} {k : Nat} {v : α} {t : List (Nat × α)} (h : t.Pairwise (fun a b => a.1 < b.1)) :
    (tput k v t).Pairwise (fun a b => a.1 < b.1) := by
  induction t with
  | nil => simp [tput]
  | cons q r ih =>
    obtain ⟨k', v'⟩ := q
    have hc := List.pairwise_cons.1 h
    simp only [tput]
    split
    · refine List.pairwise_cons.2 ⟨?_, ih hc.2⟩
      intro x hx
      rcases mem_tput hx with rfl | hx
      · assumption
      · exact hc.1 x hx
    · split
      · rename_i h1 h2
        subst h2
        exact List.pairwise_cons.2 ⟨hc.1, hc.2⟩
      · rename_i h1 h2
        have hk : k < k' := by omega
        refine List.pairwise_cons.2 ⟨?_, h⟩
        intro x hx
        rcases List.mem_cons.1 hx with rfl | hx
        · exact hk
        · exact Nat.lt_trans hk (hc.1 x hx)

/-- Writing a byte keeps the canonical form. -/
theorem memPut_wf {m : List Host.Cell} (a : Nat) (b : Byte) (h : Memory.wf m = true) : Memory.wf (memPut m a b) = true := by
  rw [Memory.wf_iff] at h ⊢
  unfold memPut
  split
  · exact ⟨h.1.sublist List.filter_sublist, fun p hp => h.2 p (List.mem_filter.1 hp).1⟩
  · rename_i hb
    refine ⟨tput_sorted h.1, fun p hp => ?_⟩
    rcases mem_tput hp with rfl | hp
    · exact hb
    · exact h.2 p hp

/-- Writing bytes keeps the canonical form. -/
theorem memWrite_wf {m : List Host.Cell} (a : Nat) (bs : Bytes) (h : Memory.wf m = true) : Memory.wf (memWrite m a bs) = true := by
  induction bs generalizing m a with
  | nil => exact h
  | cons b bs ih => exact ih (a + 1) (memPut_wf a b h)

theorem tget_tput_self {α : Type} (d : α) (k : Nat) (v : α) (t : List (Nat × α)) : tget d k (tput k v t) = v := by
  induction t with
  | nil => simp [tput, tget]
  | cons q r ih =>
    obtain ⟨k', v'⟩ := q
    simp only [tput]
    split
    · have : ¬ k' = k := by omega
      simp [tget, this, ih]
    · split <;> simp [tget]

theorem tget_tput_ne {α : Type} (d : α) {k j : Nat} (v : α) (t : List (Nat × α)) (h : j ≠ k) :
    tget d j (tput k v t) = tget d j t := by
  induction t with
  | nil => simp [tput, tget, Ne.symm h]
  | cons q r ih =>
    obtain ⟨k', v'⟩ := q
    simp only [tput]
    split
    · simp [tget, ih]
    · split
      · rename_i h1 h2
        subst h2
        simp [tget, Ne.symm h]
      · simp [tget, Ne.symm h]

theorem tget_tdel_self {α : Type} (d : α) (k : Nat) (t : List (Nat × α)) : tget d k (tdel k t) = d := by
  induction t with
  | nil => rfl
  | cons q r ih =>
    obtain ⟨k', v'⟩ := q
    unfold tdel at ih ⊢
    by_cases h : k' = k <;> simp [h, tget, ih]

theorem tget_tdel_ne {α : Type} (d : α) {k j : Nat} (t : List (Nat × α)) (h : j ≠ k) : tget d j (tdel k t) = tget d j t := by
  induction t with
  | nil => rfl
  | cons q r ih =>
    obtain ⟨k', v'⟩ := q
    unfold tdel at ih ⊢
    by_cases hk : k' = k
    · subst hk; simp [tget, ih, Ne.symm h]
    · have hf : List.filter (fun e => e.fst != k) ((k', v') :: r) = (k', v') :: List.filter (fun e => e.fst != k) r := by simp [hk]
      simp only [hf, tget, ih]

/-- The byte written reads back. -/
@[simp] theorem memGet_memPut_self (m : List Host.Cell) (a : Nat) (b : Byte) : memGet (memPut m a b) a = b := by
  unfold memGet memPut
  split
  · rename_i h; subst h; exact tget_tdel_self ..
  · exact tget_tput_self ..

/-- Every other byte reads as before. -/
theorem memGet_memPut_ne (m : List Host.Cell) {a c : Nat} (b : Byte) (h : c ≠ a) : memGet (memPut m a b) c = memGet m c := by
  unfold memGet memPut
  split
  · exact tget_tdel_ne _ _ h
  · exact tget_tput_ne _ _ _ h

/-- Bytes outside a write read as before. -/
theorem memGet_memWrite_out (m : List Host.Cell) (a c : Nat) (bs : Bytes) (h : c < a ∨ a + bs.length ≤ c) :
    memGet (memWrite m a bs) c = memGet m c := by
  induction bs generalizing m a with
  | nil => rfl
  | cons b bs ih =>
    simp only [List.length_cons] at h
    rw [memWrite, ih _ _ (by omega), memGet_memPut_ne _ _ (by omega)]

/-- Bytes of a write read back. -/
theorem memGet_memWrite_in (m : List Host.Cell) (a i : Nat) (bs : Bytes) (h : i < bs.length) :
    memGet (memWrite m a bs) (a + i) = bs[i] := by
  induction bs generalizing m a i with
  | nil => simp at h
  | cons b bs ih =>
    rw [memWrite]
    cases i with
    | zero => rw [memGet_memWrite_out _ _ _ _ (by omega)]; simp
    | succ i =>
      have := ih (memPut m a b) (a + 1) i (by simpa using h)
      rw [show a + (i + 1) = a + 1 + i by omega, this]; simp

end Sys2Proof.Machine
end

