-- ==== Sys2Proof/Laws/Keep.lean ====
section
/-! SUPPORT. What every command keeps: the build and the queue of commands, the parts of the invariant, and every part of
State outside a mask `M` (bit `Part.pos` set: the part may be written). `Keep M s t` says it of a state `t` that comes
from `s`; each operation has one lemma `keep_<name>`, whose first hypothesis says that the mask holds what the operation
writes. -/
namespace Sys2Proof.Machine

structure Same (M : Nat) (s t : State) : Prop where
  cfg : M.testBit 1 = true ∨ t.cfg = s.cfg
  pwr : M.testBit 2 = true ∨ t.pwr = s.pwr
  frame : M.testBit 3 = true ∨ t.frame = s.frame
  time : M.testBit 4 = true ∨ t.time = s.time
  win : M.testBit 5 = true ∨ t.win = s.win
  cats : M.testBit 6 = true ∨ t.cats = s.cats
  catsStaged : M.testBit 7 = true ∨ t.catsStaged = s.catsStaged
  work : M.testBit 8 = true ∨ t.work = s.work
  hub : M.testBit 9 = true ∨ t.hub = s.hub
  net : M.testBit 10 = true ∨ t.net = s.net
  fea : M.testBit 11 = true ∨ t.fea = s.fea
  glen : M.testBit 12 = true ∨ t.glen = s.glen
  prb : M.testBit 13 = true ∨ t.prb = s.prb
  err : M.testBit 14 = true ∨ t.err = s.err
  exp : M.testBit 15 = true ∨ t.exp = s.exp
  trc : M.testBit 16 = true ∨ t.trc = s.trc
  wpt : M.testBit 17 = true ∨ t.wpt = s.wpt
  sht : M.testBit 18 = true ∨ t.sht = s.sht
  cdc : M.testBit 19 = true ∨ t.cdc = s.cdc
  evr : M.testBit 20 = true ∨ t.evr = s.evr
  mem : M.testBit 21 = true ∨ t.mem = s.mem
  aud : M.testBit 22 = true ∨ t.aud = s.aud
  sec : M.testBit 23 = true ∨ t.sec = s.sec
  asm : M.testBit 24 = true ∨ t.asm = s.asm
  queueHigh : M.testBit 25 = true ∨ t.queueHigh = s.queueHigh
  host : M.testBit 26 = true ∨ t.host = s.host
  pend : M.testBit 27 = true ∨ t.pend = s.pend
  pnl : M.testBit 28 = true ∨ t.pnl = s.pnl
  out : M.testBit 29 = true ∨ t.out = s.out
  free : M.testBit 30 = true ∨ t.free = s.free

structure Keep (M : Nat) (s t : State) : Prop where
  build : t.build = s.build
  pending : t.pending = s.pending
  window : Memory.wf s.host.cmdWin = true → Memory.wf t.host.cmdWin = true
  recorder : RecorderOk s.evr → RecorderOk t.evr
  pend : PendDistinct s.pend → PendDistinct t.pend
  requests : s.win.requests.length ≤ 8 → t.win.requests.length ≤ 8
  chain : Memory.wf s.cdc.chainMem = true → Memory.wf t.cdc.chainMem = true
  same : Same M s t

variable {M : Nat}

/-- Masks compose. -/
theorem mask_sub {f g : Nat} (h : f &&& M = f) (e : g &&& f = g) : g &&& M = g := by
  rw [← e, Nat.and_assoc, h]

theorem mask_bit {f k : Nat} (h : f &&& M = f) (e : f.testBit k = true) : M.testBit k = true := by
  rw [← h, Nat.testBit_and, Bool.and_eq_true] at e; exact e.2

theorem Same.refl (s : State) : Same M s s := ⟨.inr rfl, .inr rfl, .inr rfl, .inr rfl, .inr rfl, .inr rfl, .inr rfl, .inr rfl, .inr rfl, .inr rfl, .inr rfl, .inr rfl, .inr rfl, .inr rfl, .inr rfl, .inr rfl, .inr rfl, .inr rfl, .inr rfl, .inr rfl, .inr rfl, .inr rfl, .inr rfl, .inr rfl, .inr rfl, .inr rfl, .inr rfl, .inr rfl, .inr rfl, .inr rfl⟩

theorem Same.part {s t : State} (h : Same M s t) : (p : Part) → M.testBit p.pos = false → p.same s t
  | .cfg, e => h.cfg.elim (fun x => by rw [Part.pos] at e; simp [x] at e) id
  | .pwr, e => h.pwr.elim (fun x => by rw [Part.pos] at e; simp [x] at e) id
  | .frame, e => h.frame.elim (fun x => by rw [Part.pos] at e; simp [x] at e) id
  | .time, e => h.time.elim (fun x => by rw [Part.pos] at e; simp [x] at e) id
  | .win, e => h.win.elim (fun x => by rw [Part.pos] at e; simp [x] at e) id
  | .cats, e => h.cats.elim (fun x => by rw [Part.pos] at e; simp [x] at e) id
  | .catsStaged, e => h.catsStaged.elim (fun x => by rw [Part.pos] at e; simp [x] at e) id
  | .work, e => h.work.elim (fun x => by rw [Part.pos] at e; simp [x] at e) id
  | .hub, e => h.hub.elim (fun x => by rw [Part.pos] at e; simp [x] at e) id
  | .net, e => h.net.elim (fun x => by rw [Part.pos] at e; simp [x] at e) id
  | .fea, e => h.fea.elim (fun x => by rw [Part.pos] at e; simp [x] at e) id
  | .glen, e => h.glen.elim (fun x => by rw [Part.pos] at e; simp [x] at e) id
  | .prb, e => h.prb.elim (fun x => by rw [Part.pos] at e; simp [x] at e) id
  | .err, e => h.err.elim (fun x => by rw [Part.pos] at e; simp [x] at e) id
  | .exp, e => h.exp.elim (fun x => by rw [Part.pos] at e; simp [x] at e) id
  | .trc, e => h.trc.elim (fun x => by rw [Part.pos] at e; simp [x] at e) id
  | .wpt, e => h.wpt.elim (fun x => by rw [Part.pos] at e; simp [x] at e) id
  | .sht, e => h.sht.elim (fun x => by rw [Part.pos] at e; simp [x] at e) id
  | .cdc, e => h.cdc.elim (fun x => by rw [Part.pos] at e; simp [x] at e) id
  | .evr, e => h.evr.elim (fun x => by rw [Part.pos] at e; simp [x] at e) id
  | .mem, e => h.mem.elim (fun x => by rw [Part.pos] at e; simp [x] at e) id
  | .aud, e => h.aud.elim (fun x => by rw [Part.pos] at e; simp [x] at e) id
  | .sec, e => h.sec.elim (fun x => by rw [Part.pos] at e; simp [x] at e) id
  | .asm, e => h.asm.elim (fun x => by rw [Part.pos] at e; simp [x] at e) id
  | .queueHigh, e => h.queueHigh.elim (fun x => by rw [Part.pos] at e; simp [x] at e) id
  | .host, e => h.host.elim (fun x => by rw [Part.pos] at e; simp [x] at e) id
  | .pend, e => h.pend.elim (fun x => by rw [Part.pos] at e; simp [x] at e) id
  | .pnl, e => h.pnl.elim (fun x => by rw [Part.pos] at e; simp [x] at e) id
  | .out, e => h.out.elim (fun x => by rw [Part.pos] at e; simp [x] at e) id
  | .free, e => h.free.elim (fun x => by rw [Part.pos] at e; simp [x] at e) id

theorem Keep.refl (s : State) : Keep M s s := ⟨rfl, rfl, id, id, id, id, id, Same.refl s⟩

theorem Keep.inv {s t : State} (h : Keep M s t) (i : Inv s) : Inv t :=
  ⟨h.window i.window, h.recorder i.recorder, h.pend i.pend, h.requests i.requests, h.chain i.chain⟩

/-- `Keep` of a state written out. -/
def KeepMk (M : Nat) (s : State) (build : Build) (cfg : StartCfg) (pwr : Pwr) (frame : FrameEng) (time : TimeBase) (win : Windows) (cats : List (Nat × Catalogue)) (catsStaged : List (Nat × Catalogue)) (work : List (Nat × Acc)) (hub : HubFrame) (net : Net) (fea : Features) (glen : Glen) (prb : Probes) (err : Errors) (exp : Export) (trc : Trace) (wpt : Watch) (sht : Shutter) (cdc : Codec) (evr : Recorder) (mem : Mem) (aud : Audit) (sec : Security) (asm : List Assembly) (queueHigh : Nat) (host : HostDoor) (pend : List Pend) (pnl : Panel) (out : List Output) (free : Nat) (pending : List Instr) : Prop :=
  Keep M s ⟨build, cfg, pwr, frame, time, win, cats, catsStaged, work, hub, net, fea, glen, prb, err, exp, trc, wpt, sht, cdc, evr, mem, aud, sec, asm, queueHigh, host, pend, pnl, out, free, pending⟩

theorem keep_mk {s : State} {build} {cfg} {pwr} {frame} {time} {win} {cats} {catsStaged} {work} {hub} {net} {fea} {glen} {prb} {err} {exp} {trc} {wpt} {sht} {cdc} {evr} {mem} {aud} {sec} {asm} {queueHigh} {host} {pend} {pnl} {out} {free} {pending} :
    Keep M s ⟨build, cfg, pwr, frame, time, win, cats, catsStaged, work, hub, net, fea, glen, prb, err, exp, trc, wpt, sht, cdc, evr, mem, aud, sec, asm, queueHigh, host, pend, pnl, out, free, pending⟩ ↔
      KeepMk M s build cfg pwr frame time win cats catsStaged work hub net fea glen prb err exp trc wpt sht cdc evr mem aud sec asm queueHigh host pend pnl out free pending := Iff.rfl

/-- An update of some parts: each is as it was, or the mask has it. -/
theorem Keep.upd {s t : State} {cfg} {pwr} {frame} {time} {win} {cats} {catsStaged} {work} {hub} {net} {fea} {glen} {prb} {err} {exp} {trc} {wpt} {sht} {cdc} {evr} {mem} {aud} {sec} {asm} {queueHigh} {host} {pend} {pnl} {out} {free}
    (h : Keep M s t)
    (e1 : M.testBit 1 = true ∨ cfg = t.cfg)
    (e2 : M.testBit 2 = true ∨ pwr = t.pwr)
    (e3 : M.testBit 3 = true ∨ frame = t.frame)
    (e4 : M.testBit 4 = true ∨ time = t.time)
    (e5 : M.testBit 5 = true ∨ win = t.win)
    (e6 : M.testBit 6 = true ∨ cats = t.cats)
    (e7 : M.testBit 7 = true ∨ catsStaged = t.catsStaged)
    (e8 : M.testBit 8 = true ∨ work = t.work)
    (e9 : M.testBit 9 = true ∨ hub = t.hub)
    (e10 : M.testBit 10 = true ∨ net = t.net)
    (e11 : M.testBit 11 = true ∨ fea = t.fea)
    (e12 : M.testBit 12 = true ∨ glen = t.glen)
    (e13 : M.testBit 13 = true ∨ prb = t.prb)
    (e14 : M.testBit 14 = true ∨ err = t.err)
    (e15 : M.testBit 15 = true ∨ exp = t.exp)
    (e16 : M.testBit 16 = true ∨ trc = t.trc)
    (e17 : M.testBit 17 = true ∨ wpt = t.wpt)
    (e18 : M.testBit 18 = true ∨ sht = t.sht)
    (e19 : M.testBit 19 = true ∨ cdc = t.cdc)
    (e20 : M.testBit 20 = true ∨ evr = t.evr)
    (e21 : M.testBit 21 = true ∨ mem = t.mem)
    (e22 : M.testBit 22 = true ∨ aud = t.aud)
    (e23 : M.testBit 23 = true ∨ sec = t.sec)
    (e24 : M.testBit 24 = true ∨ asm = t.asm)
    (e25 : M.testBit 25 = true ∨ queueHigh = t.queueHigh)
    (e26 : M.testBit 26 = true ∨ host = t.host)
    (e27 : M.testBit 27 = true ∨ pend = t.pend)
    (e28 : M.testBit 28 = true ∨ pnl = t.pnl)
    (e29 : M.testBit 29 = true ∨ out = t.out)
    (e30 : M.testBit 30 = true ∨ free = t.free)
    (hw : host.cmdWin = t.host.cmdWin) (he : RecorderOk t.evr → RecorderOk evr) (hp : PendDistinct t.pend → PendDistinct pend)
    (hr : win.requests = t.win.requests) (hc : Memory.wf t.cdc.chainMem = true → Memory.wf cdc.chainMem = true) :
    KeepMk M s t.build cfg pwr frame time win cats catsStaged work hub net fea glen prb err exp trc wpt sht cdc evr mem aud sec asm queueHigh host pend pnl out free t.pending := by
  refine ⟨h.build, h.pending, by rw [hw]; exact h.window, he ∘ h.recorder, hp ∘ h.pend, by rw [hr]; exact h.requests, hc ∘ h.chain, ?_⟩
  exact ⟨e1.elim .inl fun e => h.same.cfg.imp id e.trans, e2.elim .inl fun e => h.same.pwr.imp id e.trans, e3.elim .inl fun e => h.same.frame.imp id e.trans, e4.elim .inl fun e => h.same.time.imp id e.trans, e5.elim .inl fun e => h.same.win.imp id e.trans, e6.elim .inl fun e => h.same.cats.imp id e.trans, e7.elim .inl fun e => h.same.catsStaged.imp id e.trans, e8.elim .inl fun e => h.same.work.imp id e.trans, e9.elim .inl fun e => h.same.hub.imp id e.trans, e10.elim .inl fun e => h.same.net.imp id e.trans, e11.elim .inl fun e => h.same.fea.imp id e.trans, e12.elim .inl fun e => h.same.glen.imp id e.trans, e13.elim .inl fun e => h.same.prb.imp id e.trans, e14.elim .inl fun e => h.same.err.imp id e.trans, e15.elim .inl fun e => h.same.exp.imp id e.trans, e16.elim .inl fun e => h.same.trc.imp id e.trans, e17.elim .inl fun e => h.same.wpt.imp id e.trans, e18.elim .inl fun e => h.same.sht.imp id e.trans, e19.elim .inl fun e => h.same.cdc.imp id e.trans, e20.elim .inl fun e => h.same.evr.imp id e.trans, e21.elim .inl fun e => h.same.mem.imp id e.trans, e22.elim .inl fun e => h.same.aud.imp id e.trans, e23.elim .inl fun e => h.same.sec.imp id e.trans, e24.elim .inl fun e => h.same.asm.imp id e.trans, e25.elim .inl fun e => h.same.queueHigh.imp id e.trans, e26.elim .inl fun e => h.same.host.imp id e.trans, e27.elim .inl fun e => h.same.pend.imp id e.trans, e28.elim .inl fun e => h.same.pnl.imp id e.trans, e29.elim .inl fun e => h.same.out.imp id e.trans, e30.elim .inl fun e => h.same.free.imp id e.trans⟩

theorem PendDistinct.filter {l : List Pend} (h : PendDistinct l) (p : Pend → Bool) : PendDistinct (l.filter p) :=
  h.sublist (List.Sublist.map _ List.filter_sublist)

theorem Keep.ite {s t u : State} {c : Prop} [Decidable c] (h : Keep M s t) (g : Keep M s u) : Keep M s (if c then t else u) := by
  split <;> assumption

theorem Keep.foldl {α : Type} {s t : State} {f : State → α → State} (l : List α) (h : Keep M s t)
    (hf : ∀ u a, Keep M s u → Keep M s (f u a)) : Keep M s (l.foldl f t) := by
  induction l generalizing t with
  | nil => exact h
  | cons a l ih => exact ih (hf _ _ h)

theorem Keep.foldlP {α β : Type} {s : State} {p : β × State} {f : β × State → α → β × State} (l : List α) (h : Keep M s p.2)
    (hf : ∀ q a, Keep M s q.2 → Keep M s (f q a).2) : Keep M s (l.foldl f p).2 := by
  induction l generalizing p with
  | nil => exact h
  | cons a l ih => exact ih (hf _ _ h)

theorem Keep.ofPair {α : Type} {s t : State} {p : α × State} {x : α} (e : p = (x, t)) (h : Keep M s p.2) : Keep M s t := by
  subst e; exact h

theorem Keep.ofTriple {α β : Type} {s t : State} {p : α × β × State} {x : α} {y : β} (e : p = (x, y, t)) (h : Keep M s p.2.2) : Keep M s t := by
  subst e; exact h

/-- An outcome whose next state keeps. -/
structure KeepO (M : Nat) (s : State) (o : Host.Outcome State Fault Refusal) : Prop where
  keep : ∀ t, o = .next t → Keep M s t

theorem KeepO.next {s t : State} (h : Keep M s t) : KeepO M s (.next t) := ⟨fun _ e => by cases e; exact h⟩

theorem KeepO.ite {s : State} {c : Prop} [Decidable c] {o p : Host.Outcome State Fault Refusal} (h : KeepO M s o) (g : KeepO M s p) :
    KeepO M s (if c then o else p) := by
  split <;> assumption

theorem insertBy_perm {α : Type} (lt : α → α → Bool) (x : α) (l : List α) : (insertBy lt x l).Perm (x :: l) := by
  induction l with
  | nil => exact List.Perm.refl _
  | cons y ys ih =>
    simp only [insertBy]
    split
    · exact List.Perm.refl _
    · exact (ih.cons y).trans (List.Perm.swap x y ys)

theorem keep_setPend {s t : State} (p : Pend) (hm : 134217728 &&& M = 134217728) (h : Keep M s t) : Keep M s (setPend p t) := by
  unfold setPend
  simp only [keep_mk]
  apply Keep.upd h <;> first | exact .inr rfl | exact .inl (mask_bit hm rfl) | exact fun h => h | rfl | skip
  intro hx
  unfold PendDistinct
  rw [((insertBy_perm _ p _).map _).nodup_iff, List.map_cons, List.nodup_cons]
  refine ⟨?_, hx.filter _⟩
  simp only [List.mem_map, List.mem_filter, Bool.not_eq_true', Bool.and_eq_false_iff, beq_eq_false_iff_ne]
  rintro ⟨q, ⟨-, hq⟩, he⟩
  simp only [Prod.mk.injEq] at he
  exact hq.elim (fun n => n he.1) (fun n => n he.2)

theorem keep_dropPend {s t : State} (a b : Nat) (hm : 134217728 &&& M = 134217728) (h : Keep M s t) : Keep M s (dropPend a b t) := by
  unfold dropPend
  simp only [keep_mk]; apply Keep.upd h <;> first | exact .inr rfl | exact .inl (mask_bit hm rfl) | exact fun h => h | rfl | exact fun h => PendDistinct.filter h _

@[simp] theorem insertEvr_length (e : EvrEntry) (l : List EvrEntry) : (insertEvr e l).length = l.length + 1 := by
  induction l with
  | nil => rfl
  | cons x r ih => simp only [insertEvr]; split <;> simp [ih]

theorem keep_enqueueEvr {s t : State} (e : EvrEntry) (hm : 1048576 &&& M = 1048576) (h : Keep M s t) : Keep M s (enqueueEvr e t) := by
  unfold enqueueEvr
  split
  · simp only [keep_mk]; apply Keep.upd h <;> first | exact .inr rfl | exact .inl (mask_bit hm rfl) | exact fun h => ⟨h.1, h.2, h.3, h.4⟩ | exact fun h => h | rfl
  · split
    · simp only [keep_mk]; apply Keep.upd h <;> first | exact .inr rfl | exact .inl (mask_bit hm rfl) | exact fun h => ⟨h.1, h.2, h.3, h.4⟩ | exact fun h => h | rfl
    · rename_i h1
      simp only [keep_mk]; apply Keep.upd h <;> first | exact .inr rfl | exact .inl (mask_bit hm rfl) | exact fun h => h | rfl | skip
      exact fun h => ⟨by simp at h1 ⊢; omega, h.2, h.3, h.4⟩

end Sys2Proof.Machine
end

