-- ==== Sys2Proof/Laws/KeepOps.lean ====
section
/-! SUPPORT. What the operations of Machine/Ops.lean keep (`Keep`, Laws/Keep.lean): one lemma per operation. -/
namespace Sys2Proof.Machine

set_option linter.unusedSimpArgs false
set_option linter.unusedVariables false

variable {M : Nat} {s0 : State}

theorem keep_fresh {s : State} (hm : 536870912 &&& M = 536870912) (h_s : Keep M s0 s) : Keep M s0 (State.fresh s) := by
  unfold State.fresh
  repeat' first
    | (with_reducible first
      | assumption)
    | ((simp only [keep_mk]; apply Keep.upd) <;> try first | exact .inl (mask_bit hm rfl) | exact .inr rfl | exact fun h => h | exact rfl) | exact rfl

theorem keep_emit {o : Output} {s : State} (hm : 536870912 &&& M = 536870912) (h_s : Keep M s0 s) : Keep M s0 (State.emit o s) := by
  unfold State.emit
  repeat' first
    | (with_reducible first
      | assumption)
    | ((simp only [keep_mk]; apply Keep.upd) <;> try first | exact .inl (mask_bit hm rfl) | exact .inr rfl | exact fun h => h | exact rfl) | exact rfl

theorem keep_emits {os : List Output} {s : State} (hm : 536870912 &&& M = 536870912) (h_s : Keep M s0 s) : Keep M s0 (State.emits os s) := by
  unfold State.emits
  repeat' first
    | (with_reducible first
      | assumption)
    | ((simp only [keep_mk]; apply Keep.upd) <;> try first | exact .inl (mask_bit hm rfl) | exact .inr rfl | exact fun h => h | exact rfl) | exact rfl

theorem keep_sendDatagram {dst : Endpoint} {p : Bytes} {s : State} (hm : 536871936 &&& M = 536871936) (h_s : Keep M s0 s) :
    Keep M s0 (sendDatagram dst p s) := by
  unfold sendDatagram
  try dsimp only
  repeat' first
    | (with_reducible first
      | assumption | apply Keep.ite | apply keep_emit | apply keep_emits)
    | ((simp only [keep_mk]; apply Keep.upd) <;> try first | exact .inl (mask_bit hm rfl) | exact .inr rfl | exact fun h => h | exact rfl)
    | exact mask_sub hm rfl | exact rfl | split | intro _ _ _ | intro _ _

theorem keep_drawBytes {k : Nat} {s : State} (hm : 1073741824 &&& M = 1073741824) (h_s : Keep M s0 s) : Keep M s0 (drawBytes k s).2 := by
  unfold drawBytes
  repeat' first
    | (with_reducible first
      | assumption)
    | ((simp only [keep_mk]; apply Keep.upd) <;> try first | exact .inl (mask_bit hm rfl) | exact .inr rfl | exact fun h => h | exact rfl) | exact rfl

theorem keep_advance {k : Nat} {s : State} (hm : 1048596 &&& M = 1048596) (h_s : Keep M s0 s) : Keep M s0 (advance k s) := by
  unfold advance
  repeat' first
    | (with_reducible first
      | assumption | apply Keep.ite)
    | ((simp only [keep_mk]; apply Keep.upd) <;> try first | exact .inl (mask_bit hm rfl) | exact .inr rfl | exact fun h => h | exact rfl | exact fun h => ⟨h.1, h.2, h.3, h.4⟩)
    | exact rfl | split

theorem keep_advanceTo {t : Nat} {s : State} (hm : 1048596 &&& M = 1048596) (h_s : Keep M s0 s) : Keep M s0 (advanceTo t s) := by
  unfold advanceTo
  repeat' first | (with_reducible first | assumption | apply Keep.ite | apply keep_advance) | exact mask_sub hm rfl | split

theorem keep_advanceCycles {c : Nat} {s : State} (hm : 1048596 &&& M = 1048596) (h_s : Keep M s0 s) : Keep M s0 (advanceCycles c s) := by
  unfold advanceCycles
  repeat' first | (with_reducible first | assumption | apply keep_advance) | exact mask_sub hm rfl

theorem keep_begin_ {after : Nat} {s : State} (hm : 537919508 &&& M = 537919508) (h_s : Keep M s0 s) : Keep M s0 (begin_ after s) := by
  unfold begin_
  repeat' first | (with_reducible first | assumption | apply keep_fresh | apply keep_advance) | exact mask_sub hm rfl

theorem keep_ownEntry {code : Nat} {entity : Nat} {kind : Nat} {payload : Bytes} {s : State} (hm : 1048576 &&& M = 1048576) (h_s : Keep M s0 s) :
    Keep M s0 (ownEntry code entity kind payload s) := by
  unfold ownEntry
  repeat' first
    | (with_reducible first
      | assumption | apply keep_enqueueEvr)
    | ((simp only [keep_mk]; apply Keep.upd) <;> try first | exact .inl (mask_bit hm rfl) | exact .inr rfl | exact fun h => h | exact rfl)
    | exact mask_sub hm rfl | exact rfl

theorem keep_addCtr {i : Nat} {n : Nat} {s : State} (hm : 1048608 &&& M = 1048608) (h_s : Keep M s0 s) : Keep M s0 (addCtr i n s) := by
  unfold addCtr
  try dsimp only
  repeat' first
    | (with_reducible first
      | assumption | apply Keep.ite | apply keep_ownEntry)
    | ((simp only [keep_mk]; apply Keep.upd) <;> try first | exact .inl (mask_bit hm rfl) | exact .inr rfl | exact fun h => h | exact rfl)
    | exact mask_sub hm rfl | exact rfl | split

end Sys2Proof.Machine
end

