-- ==== Sys2Proof/Laws/KeepOperands.lean ====
section
/-! SUPPORT. What the operations of Machine/Operands.lean keep (`Keep`, Laws/Keep.lean): one lemma per operation. -/
namespace Sys2Proof.Machine

set_option linter.unusedSimpArgs false
set_option linter.unusedVariables false

variable {M : Nat} {s0 : State}

theorem keep_command {s : State} {o : Op} {allowed : Bool} {r : Request} {act : List Tlv → State → Reply × State} (h_s : Keep M s0 s)
    (ha : ∀ b t, Keep M s0 t → Keep M s0 (act b t).2) : Keep M s0 (command o allowed r act s).2 := by
  unfold command
  repeat' first
    | with_reducible assumption
    | exact ha _ _ h_s
    | split

theorem keep_defer {code : Nat} {object : Nat} {f : Nat} {c : Change} {s : State} (hm : 134217728 &&& M = 134217728) (h_s : Keep M s0 s) :
    Keep M s0 (defer code object f c s).2 := by
  unfold defer
  try dsimp only
  repeat' first
    | (with_reducible first
      | assumption | apply Keep.ite | apply keep_setPend)
    | ((simp only [keep_mk]; apply Keep.upd) <;> try first | exact .inl (mask_bit hm rfl) | exact .inr rfl | exact fun h => h | exact rfl | exact fun h => PendDistinct.filter h _)
    | exact mask_sub hm rfl | exact rfl | split | intro _ _ _ | intro _ _

end Sys2Proof.Machine
end

