-- ==== Sys2Proof/Laws/KeepRaise.lean ====
section
/-! SUPPORT. What the operations of Machine/Raise.lean keep (`Keep`, Laws/Keep.lean): one lemma per operation. -/
namespace Sys2Proof.Machine

set_option linter.unusedSimpArgs false
set_option linter.unusedVariables false

variable {M : Nat} {s0 : State}

theorem keep_exportItem {kind : Nat} {frame : Nat} {item : Bytes} {s : State} (hm : 536904704 &&& M = 536904704) (h_s : Keep M s0 s) :
    Keep M s0 (exportItem kind frame item s) := by
  unfold exportItem
  try dsimp only
  repeat' first
    | (with_reducible first
      | assumption | apply Keep.ite | apply keep_sendDatagram | apply Keep.foldl | apply Keep.foldlP | refine Keep.ofPair (by assumption) ?_
      | refine Keep.ofTriple (by assumption) ?_)
    | ((simp only [keep_mk]; apply Keep.upd) <;> try first | exact .inl (mask_bit hm rfl) | exact .inr rfl | exact fun h => h | exact rfl)
    | exact mask_sub hm rfl | exact rfl | split | intro _ _ _ | intro _ _

theorem keep_signOccurrence {key : Sig} {die : Option Nat} {s : State} (hm : 536904704 &&& M = 536904704) (h_s : Keep M s0 s) :
    Keep M s0 (signOccurrence key die s) := by
  unfold signOccurrence
  try dsimp only
  repeat' first
    | (with_reducible first
      | assumption | apply Keep.ite | apply keep_exportItem | refine Keep.ofPair (by assumption) ?_ | refine Keep.ofTriple (by assumption) ?_)
    | ((simp only [keep_mk]; apply Keep.upd) <;> try first | exact .inl (mask_bit hm rfl) | exact .inr rfl | exact fun h => h | exact rfl)
    | exact mask_sub hm rfl | exact rfl | split

theorem keep_signRecord {rec : Bytes} {s : State} (hm : 536904704 &&& M = 536904704) (h_s : Keep M s0 s) : Keep M s0 (signRecord rec s) := by
  unfold signRecord
  repeat' first | (with_reducible first | assumption | apply Keep.ite | apply keep_signOccurrence) | exact mask_sub hm rfl | split

theorem keep_raise {x : Raised} {s : State} (hm : 536921088 &&& M = 536921088) (h_s : Keep M s0 s) : Keep M s0 (raise x s) := by
  unfold raise
  try dsimp only
  repeat' first
    | (with_reducible first
      | assumption | apply KeepO.next | apply KeepO.ite | apply keep_signRecord)
    | ((simp only [keep_mk]; apply Keep.upd) <;> try first | exact .inl (mask_bit hm rfl) | exact .inr rfl | exact fun h => h | exact rfl)
    | exact mask_sub hm rfl | exact rfl

theorem keep_raiseOwn {cls : Nat} {sev : Nat} {op : Nat} {entity : Nat} {kind : Nat} {detail : Bytes} {s : State} (hm : 536921088 &&& M = 536921088) (h_s : Keep M s0 s) :
    Keep M s0 (raiseOwn cls sev op entity kind detail s) := by
  unfold raiseOwn
  repeat' first
    | (with_reducible first
      | assumption | apply keep_raise)
    | ((simp only [keep_mk]; apply Keep.upd) <;> try first | exact .inl (mask_bit hm rfl) | exact .inr rfl | exact fun h => h | exact rfl)
    | exact mask_sub hm rfl | exact rfl

end Sys2Proof.Machine
end

