-- ==== Sys2Proof/Laws/KeepSigned.lean ====
section
/-! SUPPORT. What the operations of Machine/Signed.lean keep (`Keep`, Laws/Keep.lean): one lemma per operation. -/
namespace Sys2Proof.Machine

set_option linter.unusedSimpArgs false
set_option linter.unusedVariables false

variable {M : Nat} {s0 : State}

/-- The state of a piece's result keeps. -/
def KeepPiece (M : Nat) (s0 : State) : Piece → Prop
  | .done _ t => Keep M s0 t
  | .whole _ t => Keep M s0 t

theorem KeepPiece.ite {c : Prop} [Decidable c] {p q : Piece} (h : KeepPiece M s0 p) (g : KeepPiece M s0 q) :
    KeepPiece M s0 (if c then p else q) := by
  split <;> assumption

theorem keep_takePiece {s : State} {k : Slot} {id : Nat} {b : List Tlv} (hm : 16777216 &&& M = 16777216) (hc : Keep M s0 k.cleared) (h : Keep M s0 s) :
    KeepPiece M s0 (takePiece k id b s) := by
  unfold takePiece
  dsimp only
  repeat' with_reducible apply KeepPiece.ite
  all_goals first
    | exact h
    | (simp only [KeepPiece]
       repeat' first
         | (with_reducible assumption)
         | (with_reducible first | assumption | apply Keep.ite)
         | ((simp only [keep_mk]; apply Keep.upd) <;> try first | exact .inl (mask_bit hm rfl) | (with_reducible exact .inr rfl) | exact fun h => h | (with_reducible exact rfl) | exact fun h => PendDistinct.filter h _ | exact fun h => ⟨h.1, h.2, h.3, h.4⟩))

theorem keep_takePiece_done {s t : State} {k : Slot} {id : Nat} {b : List Tlv} {p : Reply} (e : takePiece k id b s = .done p t) (hm : 16777216 &&& M = 16777216)
    (hc : Keep M s0 k.cleared) (h : Keep M s0 s) : Keep M s0 t := by
  have := keep_takePiece (id := id) (b := b) hm hc h
  rw [e] at this
  exact this

theorem keep_takePiece_whole {s t : State} {k : Slot} {id : Nat} {b : List Tlv} {img : Bytes} (e : takePiece k id b s = .whole img t) (hm : 16777216 &&& M = 16777216)
    (hc : Keep M s0 k.cleared) (h : Keep M s0 s) : Keep M s0 t := by
  have := keep_takePiece (id := id) (b := b) hm hc h
  rw [e] at this
  exact this

end Sys2Proof.Machine
end

