-- ==== Sys2Proof/Laws/KeepLink.lean ====
section
/-! SUPPORT. What the operations of Machine/Link.lean keep (`Keep`, Laws/Keep.lean): one lemma per operation. -/
namespace Sys2Proof.Machine

set_option linter.unusedSimpArgs false
set_option linter.unusedVariables false

variable {M : Nat} {s0 : State}

theorem keep_setDoor {d : Nat} {f : Door → Door} {s : State} (hm : 1024 &&& M = 1024) (h_s : Keep M s0 s) : Keep M s0 (setDoor d f s) := by
  unfold setDoor
  repeat' first
    | (with_reducible first
      | assumption)
    | ((simp only [keep_mk]; apply Keep.upd) <;> try first | exact .inl (mask_bit hm rfl) | exact .inr rfl | exact fun h => h | exact rfl) | exact rfl

theorem keep_setCage {c : Nat} {f : Cage → Cage} {s : State} (hm : 268435456 &&& M = 268435456) (h_s : Keep M s0 s) :
    Keep M s0 (setCage c f s) := by
  unfold setCage
  repeat' first
    | (with_reducible first
      | assumption)
    | ((simp only [keep_mk]; apply Keep.upd) <;> try first | exact .inl (mask_bit hm rfl) | exact .inr rfl | exact fun h => h | exact rfl) | exact rfl

theorem keep_panelEntry {kind : Nat} {cage : Nat} {door : Nat} {flags : Nat} {stamp : Nat} {tail : Bytes} {s : State} (hm : 268435456 &&& M = 268435456) (h_s : Keep M s0 s) :
    Keep M s0 (panelEntry kind cage door flags stamp tail s) := by
  unfold panelEntry
  try dsimp only
  repeat' first
    | (with_reducible first
      | assumption)
    | ((simp only [keep_mk]; apply Keep.upd) <;> try first | exact .inl (mask_bit hm rfl) | exact .inr rfl | exact fun h => h | exact rfl) | exact rfl

theorem keep_cageCount {k : Nat} {d : Nat} {s : State} (hm : 268435456 &&& M = 268435456) (h_s : Keep M s0 s) :
    Keep M s0 (cageCount k d s) := by
  unfold cageCount
  repeat' first
    | (with_reducible first
      | assumption | apply Keep.ite | apply keep_setCage | refine Keep.ofPair (by assumption) ?_ | refine Keep.ofTriple (by assumption) ?_)
    | ((simp only [keep_mk]; apply Keep.upd) <;> try first | exact .inl (mask_bit hm rfl) | exact .inr rfl | exact fun h => h | exact rfl)
    | exact mask_sub hm rfl | exact rfl | split | intro _ _ _ | intro _ _

theorem keep_doorLoss {d : Nat} {kind : Nat} {rec : Option Nat} {s : State} (hm : 268435456 &&& M = 268435456) (h_s : Keep M s0 s) :
    Keep M s0 (doorLoss d kind rec s) := by
  unfold doorLoss
  try dsimp only
  repeat' first
    | (with_reducible first
      | assumption | apply Keep.ite | apply keep_setCage | apply keep_panelEntry | refine Keep.ofPair (by assumption) ?_
      | refine Keep.ofTriple (by assumption) ?_)
    | ((simp only [keep_mk]; apply Keep.upd) <;> try first | exact .inl (mask_bit hm rfl) | exact .inr rfl | exact fun h => h | exact rfl)
    | exact mask_sub hm rfl | exact rfl | split | intro _ _ _ | intro _ _

theorem keep_emitFlit {d : Nat} {f : Flit} {s : State} (hm : 536871936 &&& M = 536871936) (h_s : Keep M s0 s) :
    Keep M s0 (emitFlit d f s) := by
  unfold emitFlit
  try dsimp only
  repeat' first
    | (with_reducible first
      | assumption | apply keep_emit | apply keep_setDoor)
    | ((simp only [keep_mk]; apply Keep.upd) <;> try first | exact .inl (mask_bit hm rfl) | exact .inr rfl | exact fun h => h | exact rfl)
    | exact mask_sub hm rfl | exact rfl | intro _ _ _ | intro _ _

theorem keep_sendFlit {d : Nat} {kind : Nat} {som : Bool} {eom : Bool} {abort : Bool} {payload : Bytes} {s : State} (hm : 536871936 &&& M = 536871936) (h_s : Keep M s0 s) :
    Keep M s0 (sendFlit d kind som eom abort payload s) := by
  unfold sendFlit
  try dsimp only
  repeat' first
    | (with_reducible first
      | assumption | apply KeepO.next | apply KeepO.ite | apply keep_setDoor | apply keep_emitFlit | apply keep_replay)
    | ((simp only [keep_mk]; apply Keep.upd) <;> try first | exact .inl (mask_bit hm rfl) | exact .inr rfl | exact fun h => h | exact rfl)
    | exact mask_sub hm rfl | exact rfl | intro _ _ _ | intro _ _

theorem keep_setExch {d : Nat} {f : Exchange → Exchange} {s : State} (hm : 1024 &&& M = 1024) (h_s : Keep M s0 s) :
    Keep M s0 (setExch d f s) := by
  unfold setExch
  repeat' first
    | (with_reducible first
      | assumption | apply keep_setDoor)
    | ((simp only [keep_mk]; apply Keep.upd) <;> try first | exact .inl (mask_bit hm rfl) | exact .inr rfl | exact fun h => h | exact rfl)
    | exact mask_sub hm rfl | exact rfl | intro _ _ _ | intro _ _

theorem keep_stampSent {d : Nat} {m : Msg} {s : State} (hm : 1024 &&& M = 1024) (h_s : Keep M s0 s) : Keep M s0 (stampSent d m s) := by
  unfold stampSent
  try dsimp only
  repeat' first
    | (with_reducible first
      | assumption | apply Keep.ite | apply keep_setExch)
    | ((simp only [keep_mk]; apply Keep.upd) <;> try first | exact .inl (mask_bit hm rfl) | exact .inr rfl | exact fun h => h | exact rfl)
    | exact mask_sub hm rfl | exact rfl | split | intro _ _ _ | intro _ _

theorem keep_emitReplay {d : Nat} {s : State} (hm : 536871936 &&& M = 536871936) (h_s : Keep M s0 s) : Keep M s0 (emitReplay d s) := by
  unfold emitReplay
  repeat' first
    | (with_reducible first
      | assumption | apply keep_emitFlit | apply keep_replay | apply Keep.foldl | apply Keep.foldlP)
    | exact mask_sub hm rfl | intro _ _ _ | intro _ _

theorem keep_pumpF (hm : 536871936 &&& M = 536871936) {s : State} {d n : Nat} (h : Keep M s0 s) : Keep M s0 (pumpF d n s) := by
  induction n generalizing s with
  | zero => exact h
  | succ n ih =>
    unfold pumpF
    dsimp only
    repeat' first
      | with_reducible assumption
      | exact mask_sub hm rfl
      | with_reducible apply ih
      | with_reducible apply keep_sendFlit
      | with_reducible apply keep_stampSent
      | with_reducible apply keep_setDoor
      | with_reducible apply keep_addCtr
      | split

theorem keep_pump {d : Nat} {s : State} (hm : 536871936 &&& M = 536871936) (h_s : Keep M s0 s) : Keep M s0 (pump d s) := by
  unfold pump
  repeat' first | (with_reducible first | assumption | apply keep_pumpF) | exact mask_sub hm rfl

theorem keep_sendMsg {d : Nat} {m : Msg} {s : State} (hm : 536871936 &&& M = 536871936) (h_s : Keep M s0 s) : Keep M s0 (sendMsg d m s) := by
  unfold sendMsg
  repeat' first
    | (with_reducible first
      | assumption | apply keep_setDoor | apply keep_pump)
    | ((simp only [keep_mk]; apply Keep.upd) <;> try first | exact .inl (mask_bit hm rfl) | exact .inr rfl | exact fun h => h | exact rfl)
    | exact mask_sub hm rfl | exact rfl | intro _ _ _ | intro _ _

theorem keep_takeAck {d : Nat} {ack : Nat} {s : State} (hm : 1024 &&& M = 1024) (h_s : Keep M s0 s) : Keep M s0 (takeAck d ack s) := by
  unfold takeAck
  try dsimp only
  repeat' first
    | (with_reducible first
      | assumption | apply keep_setDoor | apply keep_replay | refine Keep.ofPair (by assumption) ?_ | refine Keep.ofTriple (by assumption) ?_)
    | ((simp only [keep_mk]; apply Keep.upd) <;> try first | exact .inl (mask_bit hm rfl) | exact .inr rfl | exact fun h => h | exact rfl)
    | exact mask_sub hm rfl | exact rfl | split | intro _ _ _ | intro _ _

theorem keep_nextSerial {sub : Nat} {s : State} (hm : 1024 &&& M = 1024) (h_s : Keep M s0 s) : Keep M s0 (nextSerial sub s).2 := by
  unfold nextSerial
  try dsimp only
  repeat' first
    | (with_reducible first
      | assumption)
    | ((simp only [keep_mk]; apply Keep.upd) <;> try first | exact .inl (mask_bit hm rfl) | exact .inr rfl | exact fun h => h | exact rfl) | exact rfl

theorem keep_sendBulk {d : Nat} {sub : Nat} {serial : Nat} {item : Bytes} {s : State} (hm : 536871936 &&& M = 536871936) (h_s : Keep M s0 s) :
    Keep M s0 (sendBulk d sub serial item s) := by
  unfold sendBulk
  repeat' first
    | (with_reducible first
      | assumption | apply keep_setDoor | apply keep_sendMsg | apply Keep.foldl | apply Keep.foldlP)
    | ((simp only [keep_mk]; apply Keep.upd) <;> try first | exact .inl (mask_bit hm rfl) | exact .inr rfl | exact fun h => h | exact rfl)
    | exact mask_sub hm rfl | exact rfl | intro _ _ _ | intro _ _

theorem keep_moveItems {d : Nat} {s : State} (hm : 536871936 &&& M = 536871936) (h_s : Keep M s0 s) : Keep M s0 (moveItems d s) := by
  unfold moveItems
  try dsimp only
  repeat' first
    | (with_reducible first
      | assumption | apply Keep.ite | apply keep_setDoor | apply keep_sendMsg | apply Keep.foldl | apply Keep.foldlP)
    | ((simp only [keep_mk]; apply Keep.upd) <;> try first | exact .inl (mask_bit hm rfl) | exact .inr rfl | exact fun h => h | exact rfl)
    | exact mask_sub hm rfl | exact rfl | split | intro _ _ _ | intro _ _

theorem keep_sendDown {b : Bytes} {s : State} (hm : 536871936 &&& M = 536871936) (h_s : Keep M s0 s) : Keep M s0 (sendDown b s) := by
  unfold sendDown
  repeat' first
    | (with_reducible first
      | assumption | apply keep_sendMsg | apply Keep.foldl | apply Keep.foldlP)
    | exact mask_sub hm rfl | intro _ _ _ | intro _ _

theorem keep_onThrough {f : List (Msg × Nat) → List (Msg × Nat)} {s : State} (hm : 536871936 &&& M = 536871936) (h_s : Keep M s0 s) :
    Keep M s0 (onThrough f s) := by
  unfold onThrough
  try dsimp only
  repeat' first
    | (with_reducible first
      | assumption | apply Keep.ite | apply keep_setDoor | apply keep_pump | apply Keep.foldl | apply Keep.foldlP)
    | ((simp only [keep_mk]; apply Keep.upd) <;> try first | exact .inl (mask_bit hm rfl) | exact .inr rfl | exact fun h => h | exact rfl)
    | exact mask_sub hm rfl | exact rfl | split | intro _ _ _ | intro _ _

theorem keep_growDown {b : Bytes} {s : State} (hm : 536871936 &&& M = 536871936) (h_s : Keep M s0 s) : Keep M s0 (growDown b s) := by
  unfold growDown
  try dsimp only
  repeat' first
    | (with_reducible first
      | assumption | apply Keep.ite | apply keep_onThrough)
    | ((simp only [keep_mk]; apply Keep.upd) <;> try first | exact .inl (mask_bit hm rfl) | exact .inr rfl | exact fun h => h | exact rfl)
    | exact mask_sub hm rfl | exact rfl | split | intro _ _ _ | intro _ _

theorem keep_endDown {b : Bytes} {s : State} (hm : 536872448 &&& M = 536872448) (h_s : Keep M s0 s) : Keep M s0 (endDown b s) := by
  unfold endDown
  try dsimp only
  repeat' first
    | (with_reducible first
      | assumption | apply Keep.ite | apply keep_onThrough)
    | ((simp only [keep_mk]; apply Keep.upd) <;> try first | exact .inl (mask_bit hm rfl) | exact .inr rfl | exact fun h => h | exact rfl)
    | exact mask_sub hm rfl | exact rfl | split | intro _ _ _ | intro _ _

theorem keep_breakThrough {d : Nat} {s : State} (hm : 536872448 &&& M = 536872448) (h_s : Keep M s0 s) : Keep M s0 (breakThrough d s) := by
  unfold breakThrough
  try dsimp only
  repeat' first
    | (with_reducible first
      | assumption | apply Keep.ite | apply keep_sendDown | apply keep_onThrough | refine Keep.ofPair (by assumption) ?_
      | refine Keep.ofTriple (by assumption) ?_)
    | ((simp only [keep_mk]; apply Keep.upd) <;> try first | exact .inl (mask_bit hm rfl) | exact .inr rfl | exact fun h => h | exact rfl)
    | exact mask_sub hm rfl | exact rfl | split | intro _ _ _ | intro _ _

theorem keep_leaveLive {d : Nat} {s : State} (hm : 536872448 &&& M = 536872448) (h_s : Keep M s0 s) : Keep M s0 (leaveLive d s) := by
  unfold leaveLive
  repeat' first
    | (with_reducible first
      | assumption | apply Keep.ite | apply keep_moveItems | apply keep_breakThrough)
    | exact mask_sub hm rfl | split

theorem keep_sendHello {d : Nat} {s : State} (hm : 536871936 &&& M = 536871936) (h_s : Keep M s0 s) : Keep M s0 (sendHello d s) := by
  unfold sendHello
  try dsimp only
  repeat' first
    | (with_reducible first
      | assumption | apply keep_setDoor | apply keep_emitFlit)
    | ((simp only [keep_mk]; apply Keep.upd) <;> try first | exact .inl (mask_bit hm rfl) | exact .inr rfl | exact fun h => h | exact rfl)
    | exact mask_sub hm rfl | exact rfl | intro _ _ _ | intro _ _

theorem keep_train {d : Nat} {s : State} (hm : 536872448 &&& M = 536872448) (h_s : Keep M s0 s) : Keep M s0 (train d s) := by
  unfold train
  try dsimp only
  repeat' first
    | (with_reducible first
      | assumption | apply keep_emit | apply keep_setDoor | apply keep_leaveLive | apply keep_sendHello)
    | ((simp only [keep_mk]; apply Keep.upd) <;> try first | exact .inl (mask_bit hm rfl) | exact .inr rfl | exact fun h => h | exact rfl)
    | exact mask_sub hm rfl | exact rfl | intro _ _ _ | intro _ _

theorem keep_turnOff {d : Nat} {s : State} (hm : 536872448 &&& M = 536872448) (h_s : Keep M s0 s) : Keep M s0 (turnOff d s) := by
  unfold turnOff
  repeat' first
    | (with_reducible first
      | assumption | apply keep_emit | apply keep_setDoor | apply keep_leaveLive)
    | ((simp only [keep_mk]; apply Keep.upd) <;> try first | exact .inl (mask_bit hm rfl) | exact .inr rfl | exact fun h => h | exact rfl)
    | exact mask_sub hm rfl | exact rfl | intro _ _ _ | intro _ _

theorem keep_quarantine {d : Nat} {recent : Nat} {s : State} (hm : 806405632 &&& M = 806405632) (h_s : Keep M s0 s) :
    Keep M s0 (quarantine d recent s) := by
  unfold quarantine
  try dsimp only
  repeat' first
    | (with_reducible first
      | assumption | apply KeepO.next | apply KeepO.ite | apply keep_ownEntry | apply keep_raiseOwn | apply keep_setDoor | apply keep_cageCount
      | apply keep_doorLoss | apply keep_turnOff)
    | ((simp only [keep_mk]; apply Keep.upd) <;> try first | exact .inl (mask_bit hm rfl) | exact .inr rfl | exact fun h => h | exact rfl)
    | exact mask_sub hm rfl | exact rfl | intro _ _ _ | intro _ _

theorem keep_retrain {d : Nat} {s : State} (hm : 806405632 &&& M = 806405632) (h_s : Keep M s0 s) : Keep M s0 (retrain d s) := by
  unfold retrain
  try dsimp only
  repeat' first
    | (with_reducible first
      | assumption | apply Keep.ite | apply keep_ownEntry | apply keep_setDoor | apply keep_cageCount | apply keep_doorLoss | apply keep_train
      | apply keep_quarantine)
    | ((simp only [keep_mk]; apply Keep.upd) <;> try first | exact .inl (mask_bit hm rfl) | exact .inr rfl | exact fun h => h | exact rfl)
    | exact mask_sub hm rfl | exact rfl | split | intro _ _ _ | intro _ _

theorem keep_replay {d : Nat} {s : State} (hm : 806405632 &&& M = 806405632) (h_s : Keep M s0 s) : Keep M s0 (replay d s) := by
  unfold replay
  try dsimp only
  repeat' first
    | (with_reducible first
      | assumption | apply Keep.ite | apply keep_setDoor | apply keep_cageCount | apply keep_emitReplay | apply keep_retrain)
    | ((simp only [keep_mk]; apply Keep.upd) <;> try first | exact .inl (mask_bit hm rfl) | exact .inr rfl | exact fun h => h | exact rfl)
    | exact mask_sub hm rfl | exact rfl | split | intro _ _ _ | intro _ _

theorem keep_resumeLink {d : Nat} {peer : Bytes} {s : State} (hm : 536871936 &&& M = 536871936) (h_s : Keep M s0 s) :
    Keep M s0 (resumeLink d peer s) := by
  unfold resumeLink
  try dsimp only
  repeat' first
    | (with_reducible first
      | assumption | apply Keep.ite | apply keep_setDoor | apply keep_emitReplay | apply keep_pump | apply keep_takeAck | apply keep_replay)
    | ((simp only [keep_mk]; apply Keep.upd) <;> try first | exact .inl (mask_bit hm rfl) | exact .inr rfl | exact fun h => h | exact rfl)
    | exact mask_sub hm rfl | exact rfl | split | intro _ _ _ | intro _ _

end Sys2Proof.Machine
end

