-- ==== Sys2Proof/Laws/KeepRoute.lean ====
section
/-! SUPPORT. What the operations of Machine/Route.lean keep (`Keep`, Laws/Keep.lean): one lemma per operation. -/
namespace Sys2Proof.Machine

set_option linter.unusedSimpArgs false
set_option linter.unusedVariables false

variable {M : Nat} {s0 : State}

theorem keep_malformedOn {d : Nat} {s : State} (hm : 1024 &&& M = 1024) (h_s : Keep M s0 s) : Keep M s0 (malformedOn d s) := by
  unfold malformedOn
  repeat' first
    | (with_reducible first
      | assumption | apply keep_setDoor)
    | ((simp only [keep_mk]; apply Keep.upd) <;> try first | exact .inl (mask_bit hm rfl) | exact .inr rfl | exact fun h => h | exact rfl)
    | exact mask_sub hm rfl | exact rfl | intro _ _ _ | intro _ _

theorem keep_forwardMsg {m : Msg} {s : State} (hm : 536871936 &&& M = 536871936) (h_s : Keep M s0 s) : Keep M s0 (forwardMsg m s) := by
  unfold forwardMsg
  repeat' first
    | (with_reducible first
      | assumption | apply Keep.ite | apply keep_sendMsg | refine Keep.ofPair (by assumption) ?_ | refine Keep.ofTriple (by assumption) ?_)
    | ((simp only [keep_mk]; apply Keep.upd) <;> try first | exact .inl (mask_bit hm rfl) | exact .inr rfl | exact fun h => h | exact rfl)
    | exact mask_sub hm rfl | exact rfl | split

theorem keep_releaseHeld {s : State} (hm : 536871936 &&& M = 536871936) (h_s : Keep M s0 s) : Keep M s0 (releaseHeld s) := by
  unfold releaseHeld
  repeat' first
    | (with_reducible first
      | assumption | apply keep_forwardMsg | apply Keep.foldl | apply Keep.foldlP)
    | ((simp only [keep_mk]; apply Keep.upd) <;> try first | exact .inl (mask_bit hm rfl) | exact .inr rfl | exact fun h => h | exact rfl)
    | exact mask_sub hm rfl | exact rfl | intro _ _ _ | intro _ _

end Sys2Proof.Machine
end

