-- ==== Sys2Proof/Laws/KeepReply.lean ====
section
/-! SUPPORT. What the operations of Machine/Reply.lean keep (`Keep`, Laws/Keep.lean): one lemma per operation. -/
namespace Sys2Proof.Machine

set_option linter.unusedSimpArgs false
set_option linter.unusedVariables false

variable {M : Nat} {s0 : State}

theorem keep_deliver {path : Path} {pkt : Bytes} {s : State} (hm : 603980800 &&& M = 603980800) (h_s : Keep M s0 s) :
    Keep M s0 (deliver path pkt s) := by
  unfold deliver
  try dsimp only
  repeat' first
    | (with_reducible first
      | assumption | apply Keep.ite | apply keep_emit | apply keep_sendDatagram | apply keep_sendMsg | apply keep_forwardMsg
      | refine Keep.ofPair (by assumption) ?_ | refine Keep.ofTriple (by assumption) ?_)
    | ((simp only [keep_mk]; apply Keep.upd) <;> try first | exact .inl (mask_bit hm rfl) | exact .inr rfl | exact fun h => h | exact rfl)
    | exact mask_sub hm rfl | exact rfl | split

theorem keep_fillCache {session : Nat} {seq : Nat} {p : Reply} {s : State} (hm : 8388608 &&& M = 8388608) (h_s : Keep M s0 s) :
    Keep M s0 (fillCache session seq p s) := by
  unfold fillCache
  try dsimp only
  repeat' first
    | (with_reducible first
      | assumption | apply Keep.ite)
    | ((simp only [keep_mk]; apply Keep.upd) <;> try first | exact .inl (mask_bit hm rfl) | exact .inr rfl | exact fun h => h | exact rfl) | exact rfl
    | split

theorem keep_countRefusal {row : Nat} {path : Path} {s : State} (hm : 8388608 &&& M = 8388608) (h_s : Keep M s0 s) :
    Keep M s0 (countRefusal row path s) := by
  unfold countRefusal
  try dsimp only
  repeat' first
    | (with_reducible first
      | assumption | refine Keep.ofPair (by assumption) ?_ | refine Keep.ofTriple (by assumption) ?_)
    | ((simp only [keep_mk]; apply Keep.upd) <;> try first | exact .inl (mask_bit hm rfl) | exact .inr rfl | exact fun h => h | exact rfl) | exact rfl
    | split

theorem keep_answerPlain {key : Option Bytes} {code : Nat} {r : Request} {p : Reply} {s : State} (hm : 603980800 &&& M = 603980800) (h_s : Keep M s0 s) :
    Keep M s0 (answerPlain key code r p s) := by
  unfold answerPlain
  repeat' first | (with_reducible first | assumption | apply keep_emit | apply keep_deliver) | exact mask_sub hm rfl

theorem keep_answerWith {key : Option Bytes} {code : Nat} {r : Request} {p : Reply} {s : State} (hm : 612369408 &&& M = 612369408) (h_s : Keep M s0 s) :
    Keep M s0 (answerWith key code r p s) := by
  unfold answerWith
  try dsimp only
  repeat' first
    | (with_reducible first
      | assumption | apply Keep.ite | apply keep_fillCache | apply keep_countRefusal | apply keep_answerPlain)
    | exact mask_sub hm rfl | split

theorem keep_finish (hm : 612369408 &&& M = 612369408) {code : Nat} {r : Request} {x : Reply × State} (h : Keep M s0 x.2) : Keep M s0 (finish code r x) := by
  unfold finish
  exact keep_answerWith hm h

end Sys2Proof.Machine
end

