-- ==== Sys2Proof/Laws/KeepCodec.lean ====
section
/-! SUPPORT. What the operations of Machine/Codec.lean keep (`Keep`, Laws/Keep.lean): one lemma per operation. -/
namespace Sys2Proof.Machine

set_option linter.unusedSimpArgs false
set_option linter.unusedVariables false

variable {M : Nat} {s0 : State}

theorem keep_setCtx {k : Nat} {f : Ctx → Ctx} {s : State} (hm : 524288 &&& M = 524288) (h_s : Keep M s0 s) : Keep M s0 (setCtx k f s) := by
  unfold setCtx
  repeat' first
    | (with_reducible first
      | assumption)
    | ((simp only [keep_mk]; apply Keep.upd) <;> try first | exact .inl (mask_bit hm rfl) | exact .inr rfl | exact fun h => h | exact rfl) | exact rfl

/-- Laying a chain's descriptors keeps the memory's canonical form. -/
theorem layChain_wf : (bufs : List (Nat × Nat)) → (a : Nat) → (m : List Host.Cell) → Memory.wf m = true → Memory.wf (layChain a bufs m) = true
  | [], _, _, h => h
  | _ :: r, a, _, h => layChain_wf r (a + 16) _ (memWrite_wf _ _ h)

/-- Filling a chain's buffers keeps the memory's canonical form. -/
theorem fillChain_wf : (ds : List Desc) → (n : Nat) → (b : Bytes) → (m : List Host.Cell) → Memory.wf m = true → Memory.wf (fillChain ds n b m) = true
  | [], _, _, _, h => h
  | d :: r, n, b, m, h => by
    unfold fillChain
    split
    · exact fillChain_wf r _ _ _ h
    · exact fillChain_wf r _ _ _ (memWrite_wf _ _ h)

theorem keep_giveOutput {k : Nat} {bufs : List (Nat × Nat)} {s : State} (hm : 524288 &&& M = 524288) (h : Keep M s0 s) : Keep M s0 (giveOutput k bufs s) := by
  unfold giveOutput
  dsimp only
  refine keep_setCtx (mask_sub hm rfl) ?_
  simp only [keep_mk]; apply Keep.upd h <;> first | exact .inl (mask_bit hm rfl) | (with_reducible exact .inr rfl) | exact fun h => h | exact rfl | skip
  exact layChain_wf _ _ _

theorem keep_jobOn {k : Nat} {f : Ctx → Ctx} {s : State} (hm : 524288 &&& M = 524288) (h_s : Keep M s0 s) : Keep M s0 (jobOn k f s) := by
  unfold jobOn
  repeat' first | (with_reducible first | assumption | apply keep_setCtx | apply keep_giveOutput) | exact mask_sub hm rfl

theorem keep_loadInput {k : Nat} {s : State} (hm : 524288 &&& M = 524288) (h : Keep M s0 s) : Keep M s0 (loadInput k s) := by
  unfold loadInput
  dsimp only
  refine Keep.ite h (keep_setCtx (mask_sub hm rfl) ?_)
  simp only [keep_mk]; apply Keep.upd h <;> first | exact .inl (mask_bit hm rfl) | (with_reducible exact .inr rfl) | exact fun h => h | exact rfl | skip
  exact fun x => fillChain_wf _ _ _ _ (layChain_wf _ _ _ x)

theorem keep_renewOutputs {s : State} (hm : 524288 &&& M = 524288) (h_s : Keep M s0 s) : Keep M s0 (renewOutputs s) := by
  unfold renewOutputs
  repeat' first
    | (with_reducible first
      | assumption | apply Keep.ite | apply keep_giveOutput | apply Keep.foldl | apply Keep.foldlP)
    | exact mask_sub hm rfl | split | intro _ _ _ | intro _ _

theorem keep_blockOn {k : Nat} {s : State} (hm : 524288 &&& M = 524288) (h : Keep M s0 s) : Keep M s0 (blockOn k s).2 := by
  unfold blockOn
  dsimp only
  have hl : Keep M s0 (loadInput k s) := keep_loadInput (mask_sub hm rfl) h
  have hc := fun c => keep_setCtx (k := k) (f := fun _ => c) (mask_sub hm rfl) hl
  simp only [keep_mk]; apply Keep.upd (hc _) <;> first | exact .inl (mask_bit hm rfl) | (with_reducible exact .inr rfl) | exact fun h => h | exact rfl | skip
  exact fun x => fillChain_wf _ _ _ _ x

theorem keep_engineStep {s : State} (hm : 524288 &&& M = 524288) (h_s : Keep M s0 s) : Keep M s0 (engineStep s).2 := by
  unfold engineStep
  try dsimp only
  repeat' first
    | (with_reducible first
      | assumption | apply Keep.ite | apply keep_renewOutputs | apply keep_blockOn | refine Keep.ofPair (by assumption) ?_
      | refine Keep.ofTriple (by assumption) ?_)
    | ((simp only [keep_mk]; apply Keep.upd) <;> try first | exact .inl (mask_bit hm rfl) | exact .inr rfl | exact fun h => h | exact rfl)
    | exact mask_sub hm rfl | exact rfl | split

theorem keep_cdcGet {r : Request} {s : State} (hm : 0 &&& M = 0) (h_s : Keep M s0 s) : Keep M s0 (cdcGet r s).2 := by
  unfold cdcGet
  try dsimp only
  repeat' first
    | (with_reducible first
      | assumption | apply keep_command)
    | ((simp only [keep_mk]; apply Keep.upd) <;> try first | exact .inl (mask_bit hm rfl) | exact .inr rfl | exact fun h => h | exact rfl)
    | exact mask_sub hm rfl | exact rfl | intro _ _ _ | intro _ _

theorem keep_execCdcGet {r : Request} {s : State} (hm : 613418004 &&& M = 613418004) (h_s : Keep M s0 s) : KeepO M s0 (execCdcGet r s) := by
  unfold execCdcGet
  repeat' first
    | (with_reducible first
      | assumption | apply KeepO.next | apply KeepO.ite | apply keep_begin_ | apply keep_finish | apply keep_cdcGet)
    | exact mask_sub hm rfl

theorem keep_cdcTest {r : Request} {s : State} (hm : 17301504 &&& M = 17301504) (h_s : Keep M s0 s) : Keep M s0 (cdcTest r s).2 := by
  unfold cdcTest
  try dsimp only
  repeat' first
    | (with_reducible first
      | assumption | apply Keep.ite | apply keep_command | apply keep_jobOn | refine keep_takePiece_done (by assumption) ?_ ?_ ?_
      | refine keep_takePiece_whole (by assumption) ?_ ?_ ?_ | refine Keep.ofPair (by assumption) ?_ | refine Keep.ofTriple (by assumption) ?_)
    | ((simp only [keep_mk]; apply Keep.upd) <;> try first | exact .inl (mask_bit hm rfl) | exact .inr rfl | exact fun h => h | exact rfl)
    | exact mask_sub hm rfl | exact rfl | split | intro _ _ _ | intro _ _

theorem keep_execCdcTest {r : Request} {s : State} (hm : 630719508 &&& M = 630719508) (h_s : Keep M s0 s) : KeepO M s0 (execCdcTest r s) := by
  unfold execCdcTest
  repeat' first
    | (with_reducible first
      | assumption | apply KeepO.next | apply KeepO.ite | apply keep_begin_ | apply keep_finish | apply keep_cdcTest
      | refine Keep.ofPair (by assumption) ?_ | refine Keep.ofTriple (by assumption) ?_)
    | ((simp only [keep_mk]; apply Keep.upd) <;> try first | exact .inl (mask_bit hm rfl) | exact .inr rfl | exact fun h => h | exact rfl)
    | exact mask_sub hm rfl | split

theorem keep_testEnded {s : State} (hm : 612893696 &&& M = 612893696) (h_s : Keep M s0 s) : Keep M s0 (testEnded s) := by
  unfold testEnded
  try dsimp only
  repeat' first
    | (with_reducible first
      | assumption | apply Keep.ite | apply keep_finish | apply keep_setCtx | refine Keep.ofPair (by assumption) ?_
      | refine Keep.ofTriple (by assumption) ?_)
    | ((simp only [keep_mk]; apply Keep.upd) <;> try first | exact .inl (mask_bit hm rfl) | exact .inr rfl | exact fun h => h | exact rfl)
    | exact mask_sub hm rfl | exact rfl | split | intro _ _ _ | intro _ _

end Sys2Proof.Machine
end

