-- ==== Sys2Proof/Laws/KeepTrace.lean ====
section
/-! SUPPORT. What the operations of Machine/Trace.lean keep (`Keep`, Laws/Keep.lean): one lemma per operation. -/
namespace Sys2Proof.Machine

set_option linter.unusedSimpArgs false
set_option linter.unusedVariables false

variable {M : Nat} {s0 : State}

theorem keep_setSrc {i : Nat} {f : Source → Source} {s : State} (hm : 65536 &&& M = 65536) (h_s : Keep M s0 s) : Keep M s0 (setSrc i f s) := by
  unfold setSrc
  repeat' first
    | (with_reducible first
      | assumption)
    | ((simp only [keep_mk]; apply Keep.upd) <;> try first | exact .inl (mask_bit hm rfl) | exact .inr rfl | exact fun h => h | exact rfl) | exact rfl

theorem keep_addTraceDropped {n : Nat} {s : State} (hm : 512 &&& M = 512) (h_s : Keep M s0 s) : Keep M s0 (addTraceDropped n s) := by
  unfold addTraceDropped
  repeat' first
    | (with_reducible first
      | assumption)
    | ((simp only [keep_mk]; apply Keep.upd) <;> try first | exact .inl (mask_bit hm rfl) | exact .inr rfl | exact fun h => h | exact rfl) | exact rfl

theorem keep_appendHistory {stamp : Nat} {door : Nat} {body : Bytes} {s : State} (hm : 66048 &&& M = 66048) (h_s : Keep M s0 s) :
    Keep M s0 (appendHistory stamp door body s) := by
  unfold appendHistory
  try dsimp only
  repeat' first
    | (with_reducible first
      | assumption | apply Keep.ite | apply keep_addTraceDropped)
    | ((simp only [keep_mk]; apply Keep.upd) <;> try first | exact .inl (mask_bit hm rfl) | exact .inr rfl | exact fun h => h | exact rfl)
    | exact mask_sub hm rfl | exact rfl | split

theorem keep_closeChunk {i : Nat} {s : State} (hm : 65536 &&& M = 65536) (h_s : Keep M s0 s) : Keep M s0 (closeChunk i s) := by
  unfold closeChunk
  try dsimp only
  repeat' first
    | (with_reducible first
      | assumption | apply Keep.ite | apply keep_setSrc | refine Keep.ofPair (by assumption) ?_ | refine Keep.ofTriple (by assumption) ?_)
    | ((simp only [keep_mk]; apply Keep.upd) <;> try first | exact .inl (mask_bit hm rfl) | exact .inr rfl | exact fun h => h | exact rfl)
    | exact mask_sub hm rfl | exact rfl | split | intro _ _ _ | intro _ _

theorem keep_takeChunk {s t : State} {i : Nat} (e : takeChunk i s = some t) (hm : 65536 &&& M = 65536) (h : Keep M s0 s) : Keep M s0 t := by
  unfold takeChunk at e
  dsimp only at e
  (repeat' split at e) <;> first
    | (cases e; first | exact h | (simp only [keep_mk]; apply Keep.upd h <;>
        first | exact .inl (mask_bit hm rfl) | (with_reducible exact .inr rfl) | exact fun h => h | exact rfl))
    | cases e

theorem keep_losePacket {i : Nat} {s : State} (hm : 66048 &&& M = 66048) (h_s : Keep M s0 s) : Keep M s0 (losePacket i s) := by
  unfold losePacket
  try dsimp only
  repeat' first
    | (with_reducible first
      | assumption | apply Keep.ite | apply keep_setSrc | apply keep_addTraceDropped)
    | ((simp only [keep_mk]; apply Keep.upd) <;> try first | exact .inl (mask_bit hm rfl) | exact .inr rfl | exact fun h => h | exact rfl)
    | exact mask_sub hm rfl | exact rfl | split | intro _ _ _ | intro _ _

theorem keep_putPacket {i : Nat} {b : Bytes} {s : State} (hm : 66048 &&& M = 66048) (h_s : Keep M s0 s) : Keep M s0 (putPacket i b s) := by
  unfold putPacket
  try dsimp only
  repeat' first
    | (with_reducible first
      | assumption | apply Keep.ite | apply keep_setSrc | apply keep_closeChunk | refine keep_takeChunk (by assumption) ?_ ?_ | apply keep_losePacket
      | refine Keep.ofPair (by assumption) ?_ | refine Keep.ofTriple (by assumption) ?_)
    | ((simp only [keep_mk]; apply Keep.upd) <;> try first | exact .inl (mask_bit hm rfl) | exact .inr rfl | exact fun h => h | exact rfl)
    | exact mask_sub hm rfl | exact rfl | split | intro _ _ _ | intro _ _

theorem keep_presentCyc {i : Nat} {cycles : Nat} {s : State} (hm : 65536 &&& M = 65536) (h_s : Keep M s0 s) :
    Keep M s0 (presentCyc i cycles s) := by
  unfold presentCyc
  repeat' first
    | (with_reducible first
      | assumption | apply keep_setSrc)
    | ((simp only [keep_mk]; apply Keep.upd) <;> try first | exact .inl (mask_bit hm rfl) | exact .inr rfl | exact fun h => h | exact rfl)
    | exact mask_sub hm rfl | exact rfl | intro _ _ _ | intro _ _

theorem keep_edgeCyc {i : Nat} {s : State} (hm : 1073807360 &&& M = 1073807360) (h_s : Keep M s0 s) : Keep M s0 (edgeCyc i s) := by
  unfold edgeCyc
  repeat' first
    | (with_reducible first
      | assumption | apply Keep.ite | apply keep_presentCyc)
    | ((simp only [keep_mk]; apply Keep.upd) <;> try first | exact .inl (mask_bit hm rfl) | exact .inr rfl | exact fun h => h | exact rfl)
    | exact mask_sub hm rfl | exact rfl | split

theorem keep_writeSync {i : Nat} {reason : Nat} {addr : Word} {s : State} (hm : 1073807872 &&& M = 1073807872) (h_s : Keep M s0 s) :
    Keep M s0 (writeSync i reason addr s) := by
  unfold writeSync
  try dsimp only
  repeat' first
    | (with_reducible first
      | assumption | apply keep_setSrc | apply keep_putPacket | apply keep_edgeCyc)
    | ((simp only [keep_mk]; apply Keep.upd) <;> try first | exact .inl (mask_bit hm rfl) | exact .inr rfl | exact fun h => h | exact rfl)
    | exact mask_sub hm rfl | exact rfl | intro _ _ _ | intro _ _

theorem keep_ensureSync {i : Nat} {s : State} (hm : 1073807872 &&& M = 1073807872) (h_s : Keep M s0 s) : Keep M s0 (ensureSync i s) := by
  unfold ensureSync
  try dsimp only
  repeat' first
    | (with_reducible first
      | assumption | apply Keep.ite | apply keep_writeSync | refine Keep.ofPair (by assumption) ?_ | refine Keep.ofTriple (by assumption) ?_)
    | ((simp only [keep_mk]; apply Keep.upd) <;> try first | exact .inl (mask_bit hm rfl) | exact .inr rfl | exact fun h => h | exact rfl)
    | exact mask_sub hm rfl | split

theorem keep_countPacket {i : Nat} {b : Bytes} {s : State} (hm : 66048 &&& M = 66048) (h_s : Keep M s0 s) : Keep M s0 (countPacket i b s) := by
  unfold countPacket
  try dsimp only
  repeat' first
    | (with_reducible first
      | assumption | apply Keep.ite | apply keep_setSrc | apply keep_putPacket)
    | ((simp only [keep_mk]; apply Keep.upd) <;> try first | exact .inl (mask_bit hm rfl) | exact .inr rfl | exact fun h => h | exact rfl)
    | exact mask_sub hm rfl | exact rfl | split | intro _ _ _ | intro _ _

theorem keep_writePkt {i : Nat} {b : Bytes} {s : State} (hm : 1073807872 &&& M = 1073807872) (h_s : Keep M s0 s) :
    Keep M s0 (writePkt i b s) := by
  unfold writePkt
  repeat' first | (with_reducible first | assumption | apply keep_ensureSync | apply keep_countPacket) | exact mask_sub hm rfl

theorem keep_writeTime {i : Nat} {s : State} (hm : 1073807872 &&& M = 1073807872) (h_s : Keep M s0 s) : Keep M s0 (writeTime i s) := by
  unfold writeTime
  try dsimp only
  repeat' first
    | (with_reducible first
      | assumption | apply Keep.ite | apply keep_setSrc | apply keep_edgeCyc | apply keep_ensureSync | apply keep_countPacket)
    | ((simp only [keep_mk]; apply Keep.upd) <;> try first | exact .inl (mask_bit hm rfl) | exact .inr rfl | exact fun h => h | exact rfl)
    | exact mask_sub hm rfl | exact rfl | split | intro _ _ _ | intro _ _

theorem keep_checkTime {i : Nat} {s : State} (hm : 1073807872 &&& M = 1073807872) (h_s : Keep M s0 s) : Keep M s0 (checkTime i s) := by
  unfold checkTime
  repeat' first | (with_reducible first | assumption | apply Keep.ite | apply keep_writeTime) | exact mask_sub hm rfl | split

theorem keep_closeRun {i : Nat} {s : State} (hm : 66048 &&& M = 66048) (h_s : Keep M s0 s) : Keep M s0 (closeRun i s) := by
  unfold closeRun
  try dsimp only
  repeat' first
    | (with_reducible first
      | assumption | apply Keep.ite | apply keep_setSrc | apply keep_countPacket)
    | ((simp only [keep_mk]; apply Keep.upd) <;> try first | exact .inl (mask_bit hm rfl) | exact .inr rfl | exact fun h => h | exact rfl)
    | exact mask_sub hm rfl | exact rfl | split | intro _ _ _ | intro _ _

theorem keep_endRun {i : Nat} {s : State} (hm : 1073807872 &&& M = 1073807872) (h_s : Keep M s0 s) : Keep M s0 (endRun i s) := by
  unfold endRun
  repeat' first | (with_reducible first | assumption | apply Keep.ite | apply keep_checkTime | apply keep_closeRun) | exact mask_sub hm rfl | split

theorem keep_endDrop {i : Nat} {a : Word} {s : State} (hm : 1073807872 &&& M = 1073807872) (h_s : Keep M s0 s) :
    Keep M s0 (endDrop i a s) := by
  unfold endDrop
  try dsimp only
  repeat' first
    | (with_reducible first
      | assumption | apply Keep.ite | apply keep_setSrc | refine keep_takeChunk (by assumption) ?_ ?_ | apply keep_losePacket | apply keep_writeSync
      | refine Keep.ofPair (by assumption) ?_ | refine Keep.ofTriple (by assumption) ?_)
    | ((simp only [keep_mk]; apply Keep.upd) <;> try first | exact .inl (mask_bit hm rfl) | exact .inr rfl | exact fun h => h | exact rfl)
    | exact mask_sub hm rfl | exact rfl | split | intro _ _ _ | intro _ _

theorem keep_endDrops {s : State} (hm : 1073807872 &&& M = 1073807872) (h_s : Keep M s0 s) : Keep M s0 (endDrops s) := by
  unfold endDrops
  repeat' first
    | (with_reducible first
      | assumption | apply Keep.ite | apply keep_endDrop | apply Keep.foldl | apply Keep.foldlP)
    | exact mask_sub hm rfl | split | intro _ _ _ | intro _ _

theorem keep_jumpTo {i : Nat} {a : Word} {s : State} (hm : 1073807872 &&& M = 1073807872) (h_s : Keep M s0 s) : Keep M s0 (jumpTo i a s) := by
  unfold jumpTo
  try dsimp only
  repeat' first
    | (with_reducible first
      | assumption | apply Keep.ite | apply keep_setSrc | apply keep_writeSync | apply keep_countPacket | apply keep_checkTime | apply keep_closeRun
      | refine Keep.ofPair (by assumption) ?_ | refine Keep.ofTriple (by assumption) ?_)
    | ((simp only [keep_mk]; apply Keep.upd) <;> try first | exact .inl (mask_bit hm rfl) | exact .inr rfl | exact fun h => h | exact rfl)
    | exact mask_sub hm rfl | exact rfl | split | intro _ _ _ | intro _ _

theorem keep_bundle {i : Nat} {a : Word} {s : State} (hm : 1073807872 &&& M = 1073807872) (h_s : Keep M s0 s) : Keep M s0 (bundle i a s) := by
  unfold bundle
  try dsimp only
  repeat' first
    | (with_reducible first
      | assumption | apply Keep.ite | apply keep_setSrc | apply keep_writeSync | apply keep_closeRun | apply keep_endRun | apply keep_endDrop
      | apply keep_jumpTo | refine Keep.ofPair (by assumption) ?_ | refine Keep.ofTriple (by assumption) ?_)
    | ((simp only [keep_mk]; apply Keep.upd) <;> try first | exact .inl (mask_bit hm rfl) | exact .inr rfl | exact fun h => h | exact rfl)
    | exact mask_sub hm rfl | exact rfl | split | intro _ _ _ | intro _ _

theorem keep_execTraceBundle {source : Nat} {addrs : List Word} {cycles : Nat} {s : State} (hm : 1610678784 &&& M = 1610678784) (h_s : Keep M s0 s) :
    KeepO M s0 (execTraceBundle source addrs cycles s) := by
  unfold execTraceBundle
  try dsimp only
  repeat' first
    | (with_reducible first
      | assumption | apply Keep.ite | apply KeepO.next | apply KeepO.ite | apply keep_fresh | apply keep_presentCyc | apply keep_bundle
      | apply Keep.foldl | apply Keep.foldlP)
    | exact mask_sub hm rfl | split | intro _ _ _ | intro _ _

theorem keep_enterLow {i : Nat} {level : Nat} {s : State} (hm : 1073807872 &&& M = 1073807872) (h_s : Keep M s0 s) :
    Keep M s0 (enterLow i level s) := by
  unfold enterLow
  try dsimp only
  repeat' first
    | (with_reducible first
      | assumption | apply Keep.ite | apply keep_setSrc | apply keep_closeChunk | apply keep_edgeCyc | apply keep_ensureSync | apply keep_countPacket
      | apply keep_endRun)
    | ((simp only [keep_mk]; apply Keep.upd) <;> try first | exact .inl (mask_bit hm rfl) | exact .inr rfl | exact fun h => h | exact rfl)
    | exact mask_sub hm rfl | exact rfl | split | intro _ _ _ | intro _ _

theorem keep_exitLow {i : Nat} {addr : Word} {s : State} (hm : 1073807872 &&& M = 1073807872) (h_s : Keep M s0 s) :
    Keep M s0 (exitLow i addr s) := by
  unfold exitLow
  try dsimp only
  repeat' first
    | (with_reducible first
      | assumption | apply Keep.ite | apply keep_setSrc | apply keep_writeSync | apply keep_writePkt | apply keep_endDrop
      | refine Keep.ofPair (by assumption) ?_ | refine Keep.ofTriple (by assumption) ?_)
    | ((simp only [keep_mk]; apply Keep.upd) <;> try first | exact .inl (mask_bit hm rfl) | exact .inr rfl | exact fun h => h | exact rfl)
    | exact mask_sub hm rfl | exact rfl | split | intro _ _ _ | intro _ _

theorem keep_execLowPowerEntry {source : Nat} {level : Nat} {cycles : Nat} {s : State} (hm : 1610678784 &&& M = 1610678784) (h_s : Keep M s0 s) :
    KeepO M s0 (execLowPowerEntry source level cycles s) := by
  unfold execLowPowerEntry
  try dsimp only
  repeat' first
    | (with_reducible first
      | assumption | apply Keep.ite | apply KeepO.next | apply KeepO.ite | apply keep_fresh | apply keep_presentCyc | apply keep_enterLow)
    | exact mask_sub hm rfl | split

theorem keep_execLowPowerExit {source : Nat} {addr : Word} {cycles : Nat} {s : State} (hm : 1610678784 &&& M = 1610678784) (h_s : Keep M s0 s) :
    KeepO M s0 (execLowPowerExit source addr cycles s) := by
  unfold execLowPowerExit
  try dsimp only
  repeat' first
    | (with_reducible first
      | assumption | apply Keep.ite | apply KeepO.next | apply KeepO.ite | apply keep_fresh | apply keep_presentCyc | apply keep_exitLow)
    | exact mask_sub hm rfl | split

theorem keep_clockStops {region : Nat} {s : State} (hm : 1073807872 &&& M = 1073807872) (h_s : Keep M s0 s) :
    Keep M s0 (clockStops region s) := by
  unfold clockStops
  repeat' first
    | (with_reducible first
      | assumption | apply keep_enterLow | apply Keep.foldl | apply Keep.foldlP)
    | exact mask_sub hm rfl | intro _ _ _ | intro _ _

theorem keep_clockStarts {region : Nat} {s : State} (hm : 1073807872 &&& M = 1073807872) (h_s : Keep M s0 s) :
    Keep M s0 (clockStarts region s) := by
  unfold clockStarts
  try dsimp only
  repeat' first
    | (with_reducible first
      | assumption | apply Keep.ite | apply keep_presentCyc | apply keep_exitLow | apply keep_resume | apply Keep.foldl | apply Keep.foldlP)
    | exact mask_sub hm rfl | split | intro _ _ _ | intro _ _

theorem keep_clockEdge {code : Nat} {region : Nat} {s : State} (hm : 1073807872 &&& M = 1073807872) (h_s : Keep M s0 s) :
    Keep M s0 (clockEdge code region s) := by
  unfold clockEdge
  repeat' first
    | (with_reducible first
      | assumption | apply Keep.ite | apply keep_clockStops | apply keep_clockStarts)
    | exact mask_sub hm rfl | split

theorem keep_execTimeIntervalElapse {source : Nat} {cycles : Nat} {s : State} (hm : 1611727380 &&& M = 1611727380) (h_s : Keep M s0 s) :
    KeepO M s0 (execTimeIntervalElapse source cycles s) := by
  unfold execTimeIntervalElapse
  try dsimp only
  repeat' first
    | (with_reducible first
      | assumption | apply Keep.ite | apply KeepO.next | apply KeepO.ite | apply keep_fresh | apply keep_advanceTo | apply keep_presentCyc
      | apply keep_writeTime | apply keep_closeRun)
    | exact mask_sub hm rfl | split

theorem keep_execChunkFlushTime {source : Nat} {s : State} (hm : 537985044 &&& M = 537985044) (h_s : Keep M s0 s) :
    KeepO M s0 (execChunkFlushTime source s) := by
  unfold execChunkFlushTime
  try dsimp only
  repeat' first
    | (with_reducible first
      | assumption | apply Keep.ite | apply KeepO.next | apply KeepO.ite | apply keep_fresh | apply keep_advanceTo | apply keep_closeChunk
      | refine Keep.ofPair (by assumption) ?_ | refine Keep.ofTriple (by assumption) ?_)
    | ((simp only [keep_mk]; apply Keep.upd) <;> try first | exact .inl (mask_bit hm rfl) | exact .inr rfl | exact fun h => h | exact rfl)
    | exact mask_sub hm rfl | split

theorem keep_closeAll {s : State} (hm : 1073807872 &&& M = 1073807872) (h_s : Keep M s0 s) : Keep M s0 (closeAll s) := by
  unfold closeAll
  repeat' first
    | (with_reducible first
      | assumption | apply Keep.ite | apply keep_closeChunk | apply keep_endRun | apply Keep.foldl | apply Keep.foldlP)
    | exact mask_sub hm rfl | split | intro _ _ _ | intro _ _

theorem keep_syncAll {reason : Nat} {s : State} (hm : 65536 &&& M = 65536) (h_s : Keep M s0 s) : Keep M s0 (syncAll reason s) := by
  unfold syncAll
  repeat' first
    | (with_reducible first
      | assumption | apply Keep.ite | apply keep_setSrc | apply Keep.foldl | apply Keep.foldlP)
    | ((simp only [keep_mk]; apply Keep.upd) <;> try first | exact .inl (mask_bit hm rfl) | exact .inr rfl | exact fun h => h | exact rfl)
    | exact mask_sub hm rfl | exact rfl | split | intro _ _ _ | intro _ _

theorem keep_traceBeforeStep {s : State} (hm : 1073807872 &&& M = 1073807872) (h_s : Keep M s0 s) : Keep M s0 (traceBeforeStep s) := by
  unfold traceBeforeStep
  repeat' first
    | (with_reducible first
      | assumption | apply Keep.ite | apply keep_endRun | apply Keep.foldl | apply Keep.foldlP)
    | exact mask_sub hm rfl | split | intro _ _ _ | intro _ _

theorem keep_execTraceChunkSend {s : State} (hm : 536937472 &&& M = 536937472) (h_s : Keep M s0 s) : KeepO M s0 (execTraceChunkSend s) := by
  unfold execTraceChunkSend
  try dsimp only
  repeat' first
    | (with_reducible first
      | assumption | apply Keep.ite | apply KeepO.next | apply KeepO.ite | apply keep_fresh | apply keep_sendMsg
      | refine Keep.ofPair (by assumption) ?_ | refine Keep.ofTriple (by assumption) ?_)
    | ((simp only [keep_mk]; apply Keep.upd) <;> try first | exact .inl (mask_bit hm rfl) | exact .inr rfl | exact fun h => h | exact rfl)
    | exact mask_sub hm rfl | exact rfl | split | intro _ _ _ | intro _ _

theorem keep_nextTrigger {s : State} (hm : 65536 &&& M = 65536) (h_s : Keep M s0 s) : Keep M s0 (nextTrigger s).2 := by
  unfold nextTrigger
  repeat' first
    | (with_reducible first
      | assumption)
    | ((simp only [keep_mk]; apply Keep.upd) <;> try first | exact .inl (mask_bit hm rfl) | exact .inr rfl | exact fun h => h | exact rfl) | exact rfl

theorem keep_mergeTrigger {kind : Nat} {index : Nat} {old : Nat × Nat × Nat} {s : State} (hm : 65536 &&& M = 65536) (h_s : Keep M s0 s) :
    Keep M s0 (mergeTrigger kind index old s) := by
  unfold mergeTrigger
  try dsimp only
  repeat' first
    | (with_reducible first
      | assumption | apply Keep.ite | refine Keep.ofPair (by assumption) ?_ | refine Keep.ofTriple (by assumption) ?_)
    | ((simp only [keep_mk]; apply Keep.upd) <;> try first | exact .inl (mask_bit hm rfl) | exact .inr rfl | exact fun h => h | exact rfl) | exact rfl
    | split | intro _ _ _ | intro _ _

theorem keep_newTrigger {kind : Nat} {index : Nat} {s : State} (hm : 1073807872 &&& M = 1073807872) (h_s : Keep M s0 s) :
    Keep M s0 (newTrigger kind index s) := by
  unfold newTrigger
  try dsimp only
  repeat' first
    | (with_reducible first
      | assumption | apply Keep.ite | apply keep_writePkt | apply keep_endRun | apply keep_nextTrigger | apply Keep.foldl | apply Keep.foldlP
      | refine Keep.ofPair (by assumption) ?_ | refine Keep.ofTriple (by assumption) ?_)
    | ((simp only [keep_mk]; apply Keep.upd) <;> try first | exact .inl (mask_bit hm rfl) | exact .inr rfl | exact fun h => h | exact rfl)
    | exact mask_sub hm rfl | exact rfl | split | intro _ _ _ | intro _ _

theorem keep_takeTrigger {kind : Nat} {index : Nat} {s : State} (hm : 1073807872 &&& M = 1073807872) (h_s : Keep M s0 s) :
    Keep M s0 (takeTrigger kind index s) := by
  unfold takeTrigger
  repeat' first
    | (with_reducible first
      | assumption | apply Keep.ite | apply keep_mergeTrigger | apply keep_newTrigger | refine Keep.ofPair (by assumption) ?_
      | refine Keep.ofTriple (by assumption) ?_)
    | ((simp only [keep_mk]; apply Keep.upd) <;> try first | exact .inl (mask_bit hm rfl) | exact .inr rfl | exact fun h => h | exact rfl)
    | exact mask_sub hm rfl | split

theorem keep_hubTrigger {die : Nat} {kind : Nat} {index : Nat} {serial : Nat} {stamp : Nat} {delay : Nat} {s : State} (hm : 65536 &&& M = 65536) (h_s : Keep M s0 s) :
    Keep M s0 (hubTrigger die kind index serial stamp delay s) := by
  unfold hubTrigger
  try dsimp only
  repeat' first
    | (with_reducible first
      | assumption | apply Keep.ite)
    | ((simp only [keep_mk]; apply Keep.upd) <;> try first | exact .inl (mask_bit hm rfl) | exact .inr rfl | exact fun h => h | exact rfl) | exact rfl
    | split

theorem keep_trayTrigger {delay : Nat} {s : State} (hm : 65536 &&& M = 65536) (h_s : Keep M s0 s) : Keep M s0 (trayTrigger delay s) := by
  unfold trayTrigger
  try dsimp only
  repeat' first
    | (with_reducible first
      | assumption | apply keep_nextTrigger | apply keep_hubTrigger | refine Keep.ofPair (by assumption) ?_ | refine Keep.ofTriple (by assumption) ?_)
    | exact mask_sub hm rfl | split

theorem keep_execTriggerNoticeArrival {after : Nat} {door : Nat} {body : Bytes} {s : State} (hm : 537986068 &&& M = 537986068) (h_s : Keep M s0 s) :
    KeepO M s0 (execTriggerNoticeArrival after door body s) := by
  unfold execTriggerNoticeArrival
  try dsimp only
  repeat' first
    | (with_reducible first
      | assumption | apply Keep.ite | apply KeepO.next | apply KeepO.ite | apply keep_begin_ | apply keep_malformedOn | apply keep_hubTrigger)
    | exact mask_sub hm rfl | split

theorem keep_execStopInstant {s : State} (hm : 1611727380 &&& M = 1611727380) (h_s : Keep M s0 s) : KeepO M s0 (execStopInstant s) := by
  unfold execStopInstant
  try dsimp only
  repeat' first
    | (with_reducible first
      | assumption | apply Keep.ite | apply KeepO.next | apply KeepO.ite | apply keep_fresh | apply keep_advanceTo | apply keep_closeAll
      | refine Keep.ofPair (by assumption) ?_ | refine Keep.ofTriple (by assumption) ?_)
    | ((simp only [keep_mk]; apply Keep.upd) <;> try first | exact .inl (mask_bit hm rfl) | exact .inr rfl | exact fun h => h | exact rfl)
    | exact mask_sub hm rfl | exact rfl | split

theorem keep_execTrayTriggerAtTime {s : State} (hm : 537985044 &&& M = 537985044) (h_s : Keep M s0 s) :
    KeepO M s0 (execTrayTriggerAtTime s) := by
  unfold execTrayTriggerAtTime
  try dsimp only
  repeat' first
    | (with_reducible first
      | assumption | apply Keep.ite | apply KeepO.next | apply KeepO.ite | apply keep_fresh | apply keep_advanceTo | apply keep_trayTrigger
      | refine Keep.ofPair (by assumption) ?_ | refine Keep.ofTriple (by assumption) ?_)
    | ((simp only [keep_mk]; apply Keep.upd) <;> try first | exact .inl (mask_bit hm rfl) | exact .inr rfl | exact fun h => h | exact rfl)
    | exact mask_sub hm rfl | exact rfl | split

theorem keep_setIngress {d : Nat} {f : Ingress → Ingress} {s : State} (hm : 65536 &&& M = 65536) (h_s : Keep M s0 s) :
    Keep M s0 (setIngress d f s) := by
  unfold setIngress
  repeat' first
    | (with_reducible first
      | assumption)
    | ((simp only [keep_mk]; apply Keep.upd) <;> try first | exact .inl (mask_bit hm rfl) | exact .inr rfl | exact fun h => h | exact rfl) | exact rfl

theorem keep_drainIngress {s : State} (hm : 1073807872 &&& M = 1073807872) (h_s : Keep M s0 s) : Keep M s0 (drainIngress s) := by
  unfold drainIngress
  try dsimp only
  repeat' first
    | (with_reducible first
      | assumption | apply Keep.ite | apply keep_appendHistory | apply keep_endDrops | apply keep_setIngress | refine Keep.ofPair (by assumption) ?_
      | refine Keep.ofTriple (by assumption) ?_)
    | ((simp only [keep_mk]; apply Keep.upd) <;> try first | exact .inl (mask_bit hm rfl) | exact .inr rfl | exact fun h => h | exact rfl | exact fun h => PendDistinct.filter h _)
    | exact mask_sub hm rfl | exact rfl | split | intro _ _ _ | intro _ _

theorem keep_discardTrace {d : Nat} {src : Nat} {n : Nat} {s : State} (hm : 67072 &&& M = 67072) (h_s : Keep M s0 s) :
    Keep M s0 (discardTrace d src n s) := by
  unfold discardTrace
  try dsimp only
  repeat' first
    | (with_reducible first
      | assumption | apply keep_setDoor | apply keep_addTraceDropped | apply keep_setIngress)
    | ((simp only [keep_mk]; apply Keep.upd) <;> try first | exact .inl (mask_bit hm rfl) | exact .inr rfl | exact fun h => h | exact rfl)
    | exact mask_sub hm rfl | exact rfl | intro _ _ _ | intro _ _

theorem keep_discardMessage {d : Nat} {src : Nat} {n : Nat} {s : State} (hm : 67072 &&& M = 67072) (h_s : Keep M s0 s) :
    Keep M s0 (discardMessage d src n s) := by
  unfold discardMessage
  repeat' first
    | (with_reducible first
      | assumption | apply keep_setIngress | apply keep_discardTrace)
    | ((simp only [keep_mk]; apply Keep.upd) <;> try first | exact .inl (mask_bit hm rfl) | exact .inr rfl | exact fun h => h | exact rfl)
    | exact mask_sub hm rfl | exact rfl | intro _ _ _ | intro _ _

theorem keep_admitTrace {d : Nat} {body : Bytes} {s : State} (hm : 67072 &&& M = 67072) (h_s : Keep M s0 s) :
    Keep M s0 (admitTrace d body s) := by
  unfold admitTrace
  try dsimp only
  repeat' first
    | (with_reducible first
      | assumption | apply Keep.ite | apply keep_setIngress | apply keep_discardTrace | apply keep_discardMessage
      | refine Keep.ofPair (by assumption) ?_ | refine Keep.ofTriple (by assumption) ?_)
    | ((simp only [keep_mk]; apply Keep.upd) <;> try first | exact .inl (mask_bit hm rfl) | exact .inr rfl | exact fun h => h | exact rfl)
    | exact mask_sub hm rfl | exact rfl | split | intro _ _ _ | intro _ _

theorem keep_execTraceMessageArrival {after : Nat} {door : Nat} {body : Bytes} {s : State} (hm : 537986580 &&& M = 537986580) (h_s : Keep M s0 s) :
    KeepO M s0 (execTraceMessageArrival after door body s) := by
  unfold execTraceMessageArrival
  try dsimp only
  repeat' first
    | (with_reducible first
      | assumption | apply Keep.ite | apply KeepO.next | apply KeepO.ite | apply keep_begin_ | apply keep_malformedOn | apply keep_setIngress
      | apply keep_admitTrace)
    | ((simp only [keep_mk]; apply Keep.upd) <;> try first | exact .inl (mask_bit hm rfl) | exact .inr rfl | exact fun h => h | exact rfl)
    | exact mask_sub hm rfl | exact rfl | split | intro _ _ _ | intro _ _

theorem keep_execTraceReadoutArrival {door : Nat} {item : Bytes} {s : State} (hm : 536936448 &&& M = 536936448) (h_s : Keep M s0 s) :
    KeepO M s0 (execTraceReadoutArrival door item s) := by
  unfold execTraceReadoutArrival
  try dsimp only
  repeat' first
    | (with_reducible first
      | assumption | apply Keep.ite | apply KeepO.next | apply KeepO.ite | apply keep_fresh)
    | ((simp only [keep_mk]; apply Keep.upd) <;> try first | exact .inl (mask_bit hm rfl) | exact .inr rfl | exact fun h => h | exact rfl)
    | exact mask_sub hm rfl | exact rfl | split

theorem keep_applyTrace {t : TraceSet} {s : State} (hm : 1073807872 &&& M = 1073807872) (h_s : Keep M s0 s) : Keep M s0 (applyTrace t s) := by
  unfold applyTrace
  try dsimp only
  repeat' first
    | (with_reducible first
      | assumption | apply Keep.ite | apply keep_setSrc | apply keep_closeChunk | apply keep_endRun | apply keep_endDrops | apply Keep.foldl
      | apply Keep.foldlP)
    | ((simp only [keep_mk]; apply Keep.upd) <;> try first | exact .inl (mask_bit hm rfl) | exact .inr rfl | exact fun h => h | exact rfl)
    | exact mask_sub hm rfl | exact rfl | split | intro _ _ _ | intro _ _

theorem keep_trcSet {r : Request} {s : State} (hm : 134217728 &&& M = 134217728) (h_s : Keep M s0 s) : Keep M s0 (trcSet r s).2 := by
  unfold trcSet
  try dsimp only
  repeat' first
    | (with_reducible first
      | assumption | apply Keep.ite | apply keep_command | apply keep_defer)
    | ((simp only [keep_mk]; apply Keep.upd) <;> try first | exact .inl (mask_bit hm rfl) | exact .inr rfl | exact fun h => h | exact rfl)
    | exact mask_sub hm rfl | exact rfl | split | intro _ _ _ | intro _ _

theorem keep_execTrcSet {r : Request} {s : State} (hm : 747635732 &&& M = 747635732) (h_s : Keep M s0 s) : KeepO M s0 (execTrcSet r s) := by
  unfold execTrcSet
  repeat' first
    | (with_reducible first
      | assumption | apply KeepO.next | apply KeepO.ite | apply keep_begin_ | apply keep_finish | apply keep_trcSet)
    | exact mask_sub hm rfl

theorem keep_trcGet {r : Request} {s : State} (hm : 0 &&& M = 0) (h_s : Keep M s0 s) : Keep M s0 (trcGet r s).2 := by
  unfold trcGet
  try dsimp only
  repeat' first
    | (with_reducible first
      | assumption | apply keep_command | apply keep_trcSet | refine Keep.ofPair (by assumption) ?_ | refine Keep.ofTriple (by assumption) ?_)
    | ((simp only [keep_mk]; apply Keep.upd) <;> try first | exact .inl (mask_bit hm rfl) | exact .inr rfl | exact fun h => h | exact rfl | exact fun h => PendDistinct.filter h _)
    | exact mask_sub hm rfl | exact rfl | split | intro _ _ _ | intro _ _

theorem keep_execTrcGet {r : Request} {s : State} (hm : 613418004 &&& M = 613418004) (h_s : Keep M s0 s) : KeepO M s0 (execTrcGet r s) := by
  unfold execTrcGet
  repeat' first
    | (with_reducible first
      | assumption | apply KeepO.next | apply KeepO.ite | apply keep_begin_ | apply keep_finish | apply keep_trcGet)
    | exact mask_sub hm rfl

theorem keep_trcTrigger {r : Request} {s : State} (hm : 1073807872 &&& M = 1073807872) (h_s : Keep M s0 s) : Keep M s0 (trcTrigger r s).2 := by
  unfold trcTrigger
  repeat' first
    | (with_reducible first
      | assumption | apply Keep.ite | apply keep_command | apply keep_takeTrigger | apply keep_trayTrigger | refine Keep.ofPair (by assumption) ?_
      | refine Keep.ofTriple (by assumption) ?_)
    | ((simp only [keep_mk]; apply Keep.upd) <;> try first | exact .inl (mask_bit hm rfl) | exact .inr rfl | exact fun h => h | exact rfl)
    | exact mask_sub hm rfl | exact rfl | split | intro _ _ _ | intro _ _

theorem keep_execTrcTrigger {r : Request} {s : State} (hm : 1687225876 &&& M = 1687225876) (h_s : Keep M s0 s) :
    KeepO M s0 (execTrcTrigger r s) := by
  unfold execTrcTrigger
  repeat' first
    | (with_reducible first
      | assumption | apply KeepO.next | apply KeepO.ite | apply keep_begin_ | apply keep_finish | apply keep_trcTrigger)
    | exact mask_sub hm rfl

theorem keep_trcArm {r : Request} {s : State} (hm : 1073938944 &&& M = 1073938944) (h_s : Keep M s0 s) : Keep M s0 (trcArm r s).2 := by
  unfold trcArm
  try dsimp only
  repeat' first
    | (with_reducible first
      | assumption | apply Keep.ite | apply keep_command | apply keep_syncAll | apply keep_traceBeforeStep)
    | ((simp only [keep_mk]; apply Keep.upd) <;> try first | exact .inl (mask_bit hm rfl) | exact .inr rfl | exact fun h => h | exact rfl)
    | exact mask_sub hm rfl | exact rfl | split | intro _ _ _ | intro _ _

theorem keep_execTrcArm {r : Request} {s : State} (hm : 1687356948 &&& M = 1687356948) (h_s : Keep M s0 s) : KeepO M s0 (execTrcArm r s) := by
  unfold execTrcArm
  repeat' first
    | (with_reducible first
      | assumption | apply KeepO.next | apply KeepO.ite | apply keep_begin_ | apply keep_finish | apply keep_trcArm)
    | exact mask_sub hm rfl

theorem keep_trcGetTriggers {r : Request} {s : State} (hm : 0 &&& M = 0) (h_s : Keep M s0 s) : Keep M s0 (trcGetTriggers r s).2 := by
  unfold trcGetTriggers
  try dsimp only
  repeat' first
    | (with_reducible first
      | assumption | apply keep_command)
    | ((simp only [keep_mk]; apply Keep.upd) <;> try first | exact .inl (mask_bit hm rfl) | exact .inr rfl | exact fun h => h | exact rfl)
    | exact mask_sub hm rfl | exact rfl | intro _ _ _ | intro _ _

theorem keep_execTrcGetTriggers {r : Request} {s : State} (hm : 613418004 &&& M = 613418004) (h_s : Keep M s0 s) :
    KeepO M s0 (execTrcGetTriggers r s) := by
  unfold execTrcGetTriggers
  repeat' first
    | (with_reducible first
      | assumption | apply KeepO.next | apply KeepO.ite | apply keep_begin_ | apply keep_finish | apply keep_trcGetTriggers)
    | exact mask_sub hm rfl

theorem keep_trcRead {r : Request} {s : State} (hm : 0 &&& M = 0) (h_s : Keep M s0 s) : Keep M s0 (trcRead r s).2 := by
  unfold trcRead
  repeat' first
    | (with_reducible first
      | assumption | apply Keep.ite | apply keep_command)
    | ((simp only [keep_mk]; apply Keep.upd) <;> try first | exact .inl (mask_bit hm rfl) | exact .inr rfl | exact fun h => h | exact rfl)
    | exact mask_sub hm rfl | exact rfl | split | intro _ _ _ | intro _ _

theorem keep_execTrcRead {r : Request} {s : State} (hm : 613418004 &&& M = 613418004) (h_s : Keep M s0 s) : KeepO M s0 (execTrcRead r s) := by
  unfold execTrcRead
  repeat' first
    | (with_reducible first
      | assumption | apply KeepO.next | apply KeepO.ite | apply keep_begin_ | apply keep_finish | apply keep_trcRead)
    | exact mask_sub hm rfl

theorem keep_trcReadHistory {r : Request} {s : State} (hm : 0 &&& M = 0) (h_s : Keep M s0 s) : Keep M s0 (trcReadHistory r s).2 := by
  unfold trcReadHistory
  try dsimp only
  repeat' first
    | (with_reducible first
      | assumption | apply Keep.ite | apply keep_command | refine Keep.ofPair (by assumption) ?_ | refine Keep.ofTriple (by assumption) ?_)
    | ((simp only [keep_mk]; apply Keep.upd) <;> try first | exact .inl (mask_bit hm rfl) | exact .inr rfl | exact fun h => h | exact rfl)
    | exact mask_sub hm rfl | exact rfl | split | intro _ _ _ | intro _ _

theorem keep_execTrcReadHistory {r : Request} {s : State} (hm : 613418004 &&& M = 613418004) (h_s : Keep M s0 s) :
    KeepO M s0 (execTrcReadHistory r s) := by
  unfold execTrcReadHistory
  repeat' first
    | (with_reducible first
      | assumption | apply KeepO.next | apply KeepO.ite | apply keep_begin_ | apply keep_finish | apply keep_trcReadHistory)
    | exact mask_sub hm rfl

theorem keep_trcSetHistory {r : Request} {s : State} (hm : 134217728 &&& M = 134217728) (h_s : Keep M s0 s) :
    Keep M s0 (trcSetHistory r s).2 := by
  unfold trcSetHistory
  try dsimp only
  repeat' first
    | (with_reducible first
      | assumption | apply Keep.ite | apply keep_command | apply keep_defer)
    | ((simp only [keep_mk]; apply Keep.upd) <;> try first | exact .inl (mask_bit hm rfl) | exact .inr rfl | exact fun h => h | exact rfl)
    | exact mask_sub hm rfl | exact rfl | split | intro _ _ _ | intro _ _

theorem keep_execTrcSetHistory {r : Request} {s : State} (hm : 747635732 &&& M = 747635732) (h_s : Keep M s0 s) :
    KeepO M s0 (execTrcSetHistory r s) := by
  unfold execTrcSetHistory
  repeat' first
    | (with_reducible first
      | assumption | apply KeepO.next | apply KeepO.ite | apply keep_begin_ | apply keep_finish | apply keep_trcSetHistory)
    | exact mask_sub hm rfl

theorem keep_trcGetStats {r : Request} {s : State} (hm : 0 &&& M = 0) (h_s : Keep M s0 s) : Keep M s0 (trcGetStats r s).2 := by
  unfold trcGetStats
  try dsimp only
  repeat' first
    | (with_reducible first
      | assumption | apply keep_command | refine Keep.ofPair (by assumption) ?_ | refine Keep.ofTriple (by assumption) ?_)
    | ((simp only [keep_mk]; apply Keep.upd) <;> try first | exact .inl (mask_bit hm rfl) | exact .inr rfl | exact fun h => h | exact rfl | exact fun h => PendDistinct.filter h _)
    | exact mask_sub hm rfl | exact rfl | split | intro _ _ _ | intro _ _

theorem keep_execTrcGetStats {r : Request} {s : State} (hm : 613418004 &&& M = 613418004) (h_s : Keep M s0 s) :
    KeepO M s0 (execTrcGetStats r s) := by
  unfold execTrcGetStats
  repeat' first
    | (with_reducible first
      | assumption | apply KeepO.next | apply KeepO.ite | apply keep_begin_ | apply keep_finish | apply keep_trcGetStats)
    | exact mask_sub hm rfl

end Sys2Proof.Machine
end

