-- ==== Sys2Proof/Laws/KeepWindows.lean ====
section
/-! SUPPORT. What the operations of Machine/Windows.lean keep (`Keep`, Laws/Keep.lean): one lemma per operation. -/
namespace Sys2Proof.Machine

set_option linter.unusedSimpArgs false
set_option linter.unusedVariables false

variable {M : Nat} {s0 : State}

theorem keep_setPort {p : Nat} {f : Port → Port} {s : State} (hm : 32 &&& M = 32) (h_s : Keep M s0 s) : Keep M s0 (setPort p f s) := by
  unfold setPort
  repeat' first
    | (with_reducible first
      | assumption)
    | ((simp only [keep_mk]; apply Keep.upd) <;> try first | exact .inl (mask_bit hm rfl) | exact .inr rfl | exact fun h => h | exact rfl) | exact rfl

theorem keep_setCtr {i : Nat} {f : Ctr → Ctr} {s : State} (hm : 32 &&& M = 32) (h_s : Keep M s0 s) : Keep M s0 (setCtr i f s) := by
  unfold setCtr
  repeat' first
    | (with_reducible first
      | assumption)
    | ((simp only [keep_mk]; apply Keep.upd) <;> try first | exact .inl (mask_bit hm rfl) | exact .inr rfl | exact fun h => h | exact rfl) | exact rfl

theorem keep_readDecls {decls : List (Nat × List Bytes)} {s : State} (hm : 536921120 &&& M = 536921120) (h_s : Keep M s0 s) :
    Keep M s0 (readDecls decls s) := by
  unfold readDecls
  try dsimp only
  repeat' first
    | (with_reducible first
      | assumption | apply Keep.ite | apply keep_raiseOwn | apply keep_setPort | apply keep_setCtr | apply Keep.foldl | apply Keep.foldlP
      | refine Keep.ofPair (by assumption) ?_ | refine Keep.ofTriple (by assumption) ?_)
    | ((simp only [keep_mk]; apply Keep.upd) <;> try first | exact .inl (mask_bit hm rfl) | exact .inr rfl | exact fun h => h | exact rfl)
    | exact mask_sub hm rfl | exact rfl | split | intro _ _ _ | intro _ _

theorem keep_addDerived {kind : Nat} {entity : Nat} {n : Nat} {s : State} (hm : 1048608 &&& M = 1048608) (h_s : Keep M s0 s) :
    Keep M s0 (addDerived kind entity n s) := by
  unfold addDerived
  repeat' first
    | (with_reducible first
      | assumption | apply keep_addCtr | apply Keep.foldl | apply Keep.foldlP)
    | exact mask_sub hm rfl | intro _ _ _ | intro _ _

theorem keep_addWord {p : Nat} {w : IncWord} {s : State} (hm : 1048608 &&& M = 1048608) (h_s : Keep M s0 s) : Keep M s0 (addWord p w s) := by
  unfold addWord
  repeat' first
    | (with_reducible first
      | assumption | apply Keep.ite | apply keep_addCtr | apply keep_setPort | refine Keep.ofPair (by assumption) ?_
      | refine Keep.ofTriple (by assumption) ?_)
    | ((simp only [keep_mk]; apply Keep.upd) <;> try first | exact .inl (mask_bit hm rfl) | exact .inr rfl | exact fun h => h | exact rfl)
    | exact mask_sub hm rfl | exact rfl | split | intro _ _ _ | intro _ _

theorem keep_execIncrementWord {port : Nat} {words : List IncWord} {s : State} (hm : 537919520 &&& M = 537919520) (h_s : Keep M s0 s) :
    KeepO M s0 (execIncrementWord port words s) := by
  unfold execIncrementWord
  try dsimp only
  repeat' first
    | (with_reducible first
      | assumption | apply Keep.ite | apply KeepO.next | apply KeepO.ite | apply keep_fresh | apply keep_addWord | apply Keep.foldl
      | apply Keep.foldlP)
    | exact mask_sub hm rfl | split | intro _ _ _ | intro _ _

theorem keep_takeSample {i : Nat} {w : Nat} {v : Nat} {s : State} (hm : 1048608 &&& M = 1048608) (h_s : Keep M s0 s) :
    Keep M s0 (takeSample i w v s) := by
  unfold takeSample
  try dsimp only
  repeat' first
    | (with_reducible first
      | assumption | apply Keep.ite | apply keep_addCtr)
    | ((simp only [keep_mk]; apply Keep.upd) <;> try first | exact .inl (mask_bit hm rfl) | exact .inr rfl | exact fun h => h | exact rfl)
    | exact mask_sub hm rfl | exact rfl | split

theorem keep_execSampledValue {port : Nat} {value : BitVec 64} {s : State} (hm : 537919528 &&& M = 537919528) (h_s : Keep M s0 s) :
    KeepO M s0 (execSampledValue port value s) := by
  unfold execSampledValue
  try dsimp only
  repeat' first
    | (with_reducible first
      | assumption | apply Keep.ite | apply KeepO.next | apply KeepO.ite | apply keep_fresh | apply keep_setPort | apply keep_takeSample
      | apply Keep.foldl | apply Keep.foldlP)
    | ((simp only [keep_mk]; apply Keep.upd) <;> try first | exact .inl (mask_bit hm rfl) | exact .inr rfl | exact fun h => h | exact rfl)
    | exact mask_sub hm rfl | exact rfl | split | intro _ _ _ | intro _ _

theorem keep_missSample {i : Nat} {s : State} (hm : 32 &&& M = 32) (h_s : Keep M s0 s) : Keep M s0 (missSample i s) := by
  unfold missSample
  repeat' first
    | (with_reducible first
      | assumption | apply keep_setCtr)
    | ((simp only [keep_mk]; apply Keep.upd) <;> try first | exact .inl (mask_bit hm rfl) | exact .inr rfl | exact fun h => h | exact rfl)
    | exact mask_sub hm rfl | exact rfl | intro _ _ _ | intro _ _

theorem keep_execSampleLate {port : Nat} {s : State} (hm : 537919548 &&& M = 537919548) (h_s : Keep M s0 s) :
    KeepO M s0 (execSampleLate port s) := by
  unfold execSampleLate
  try dsimp only
  repeat' first
    | (with_reducible first
      | assumption | apply Keep.ite | apply KeepO.next | apply KeepO.ite | apply keep_fresh | apply keep_advanceTo | apply keep_ownEntry
      | apply keep_setPort | apply keep_missSample | apply Keep.foldl | apply Keep.foldlP)
    | ((simp only [keep_mk]; apply Keep.upd) <;> try first | exact .inl (mask_bit hm rfl) | exact .inr rfl | exact fun h => h | exact rfl)
    | exact mask_sub hm rfl | exact rfl | split | intro _ _ _ | intro _ _

theorem keep_snapshot {s : State} (hm : 536870944 &&& M = 536870944) (h_s : Keep M s0 s) : Keep M s0 (snapshot s) := by
  unfold snapshot
  try dsimp only
  repeat' first
    | (with_reducible first
      | assumption | apply Keep.ite | apply keep_emit | apply keep_setPort | apply keep_missSample | apply Keep.foldl | apply Keep.foldlP)
    | ((simp only [keep_mk]; apply Keep.upd) <;> try first | exact .inl (mask_bit hm rfl) | exact .inr rfl | exact fun h => h | exact rfl)
    | exact mask_sub hm rfl | exact rfl | split | intro _ _ _ | intro _ _

theorem keep_clearCounters {rs : List (Nat × Nat)} {s : State} (hm : 32 &&& M = 32) (h_s : Keep M s0 s) : Keep M s0 (clearCounters rs s) := by
  unfold clearCounters
  try dsimp only
  repeat' first
    | (with_reducible first
      | assumption | apply Keep.ite)
    | ((simp only [keep_mk]; apply Keep.upd) <;> try first | exact .inl (mask_bit hm rfl) | exact .inr rfl | exact fun h => h | exact rfl) | exact rfl
    | split | intro _ _ _ | intro _ _

theorem keep_eventTrigger {code : Nat} {s : State} (hm : 1073807872 &&& M = 1073807872) (h_s : Keep M s0 s) :
    Keep M s0 (eventTrigger code s) := by
  unfold eventTrigger
  repeat' first
    | (with_reducible first
      | assumption | apply keep_takeTrigger | refine Keep.ofPair (by assumption) ?_ | refine Keep.ofTriple (by assumption) ?_)
    | ((simp only [keep_mk]; apply Keep.upd) <;> try first | exact .inl (mask_bit hm rfl) | exact .inr rfl | exact fun h => h | exact rfl)
    | exact mask_sub hm rfl | split | intro _ _ _ | intro _ _

theorem keep_alignClock {e : QEvent} {s : State} (hm : 32 &&& M = 32) (h_s : Keep M s0 s) : Keep M s0 (alignClock e s).2 := by
  unfold alignClock
  try dsimp only
  repeat' first
    | (with_reducible first
      | assumption | apply Keep.ite | refine Keep.ofPair (by assumption) ?_ | refine Keep.ofTriple (by assumption) ?_)
    | ((simp only [keep_mk]; apply Keep.upd) <;> try first | exact .inl (mask_bit hm rfl) | exact .inr rfl | exact fun h => h | exact rfl) | exact rfl
    | split | intro _ _ _ | intro _ _

theorem keep_queueEvent {e : QEvent} {cls : Nat} {s : State} (hm : 1074856480 &&& M = 1074856480) (h_s : Keep M s0 s) :
    Keep M s0 (queueEvent e cls s) := by
  unfold queueEvent
  try dsimp only
  repeat' first
    | (with_reducible first
      | assumption | apply Keep.ite | apply keep_addCtr | apply keep_clockEdge | apply keep_setPort | apply keep_eventTrigger | apply keep_alignClock
      | refine Keep.ofPair (by assumption) ?_ | refine Keep.ofTriple (by assumption) ?_)
    | ((simp only [keep_mk]; apply Keep.upd) <;> try first | exact .inl (mask_bit hm rfl) | exact .inr rfl | exact fun h => h | exact rfl)
    | exact mask_sub hm rfl | exact rfl | split | intro _ _ _ | intro _ _

theorem keep_execWindowEvent {after : Nat} {port : Nat} {ev : WinEvent} {s : State} (hm : 1611727412 &&& M = 1611727412) (h_s : Keep M s0 s) :
    KeepO M s0 (execWindowEvent after port ev s) := by
  unfold execWindowEvent
  try dsimp only
  repeat' first
    | (with_reducible first
      | assumption | apply Keep.ite | apply KeepO.next | apply KeepO.ite | apply keep_begin_ | apply keep_setPort | apply keep_queueEvent
      | refine Keep.ofPair (by assumption) ?_ | refine Keep.ofTriple (by assumption) ?_)
    | ((simp only [keep_mk]; apply Keep.upd) <;> try first | exact .inl (mask_bit hm rfl) | exact .inr rfl | exact fun h => h | exact rfl)
    | exact mask_sub hm rfl | exact rfl | split | intro _ _ _ | intro _ _

theorem keep_execStretchEpisodeEnd {after : Nat} {port : Nat} {cycles : Nat} {s : State} (hm : 1611727412 &&& M = 1611727412) (h_s : Keep M s0 s) :
    KeepO M s0 (execStretchEpisodeEnd after port cycles s) := by
  unfold execStretchEpisodeEnd
  try dsimp only
  repeat' first
    | (with_reducible first
      | assumption | apply Keep.ite | apply KeepO.next | apply KeepO.ite | apply keep_begin_ | apply keep_addCtr | apply keep_queueEvent)
    | ((simp only [keep_mk]; apply Keep.upd) <;> try first | exact .inl (mask_bit hm rfl) | exact .inr rfl | exact fun h => h | exact rfl)
    | exact mask_sub hm rfl | exact rfl | split

theorem keep_setStream {e : Nat} {st : Stream} {s : State} (hm : 32 &&& M = 32) (h_s : Keep M s0 s) : Keep M s0 (setStream e st s) := by
  unfold setStream
  repeat' first
    | (with_reducible first
      | assumption)
    | ((simp only [keep_mk]; apply Keep.upd) <;> try first | exact .inl (mask_bit hm rfl) | exact .inr rfl | exact fun h => h | exact rfl) | exact rfl

theorem keep_accrue {e : Nat} {t : Nat} {s : State} (hm : 1048608 &&& M = 1048608) (h_s : Keep M s0 s) : Keep M s0 (accrue e t s) := by
  unfold accrue
  try dsimp only
  repeat' first
    | (with_reducible first
      | assumption | apply Keep.ite | apply keep_addDerived | apply keep_setStream)
    | ((simp only [keep_mk]; apply Keep.upd) <;> try first | exact .inl (mask_bit hm rfl) | exact .inr rfl | exact fun h => h | exact rfl)
    | exact mask_sub hm rfl | exact rfl | split

theorem keep_stallStart {e : Nat} {port : Nat} {stamp : Nat} {pos : Bytes} {s : State} (hm : 1048608 &&& M = 1048608) (h_s : Keep M s0 s) :
    Keep M s0 (stallStart e port stamp pos s) := by
  unfold stallStart
  try dsimp only
  repeat' first
    | (with_reducible first
      | assumption | apply keep_addDerived | apply keep_setStream | apply keep_accrue)
    | ((simp only [keep_mk]; apply Keep.upd) <;> try first | exact .inl (mask_bit hm rfl) | exact .inr rfl | exact fun h => h | exact rfl)
    | exact mask_sub hm rfl | exact rfl

theorem keep_stallEnd {e : Nat} {stamp : Nat} {pos : Bytes} {s : State} (hm : 1048608 &&& M = 1048608) (h_s : Keep M s0 s) :
    Keep M s0 (stallEnd e stamp pos s) := by
  unfold stallEnd
  try dsimp only
  repeat' first
    | (with_reducible first
      | assumption | apply Keep.ite | apply keep_setStream | apply keep_accrue)
    | ((simp only [keep_mk]; apply Keep.upd) <;> try first | exact .inl (mask_bit hm rfl) | exact .inr rfl | exact fun h => h | exact rfl)
    | exact mask_sub hm rfl | exact rfl | split

theorem keep_streamsAtTick {s : State} (hm : 1048608 &&& M = 1048608) (h_s : Keep M s0 s) : Keep M s0 (streamsAtTick s) := by
  unfold streamsAtTick
  try dsimp only
  repeat' first
    | (with_reducible first
      | assumption | apply keep_accrue | apply Keep.foldl | apply Keep.foldlP)
    | ((simp only [keep_mk]; apply Keep.upd) <;> try first | exact .inl (mask_bit hm rfl) | exact .inr rfl | exact fun h => h | exact rfl)
    | exact mask_sub hm rfl | exact rfl | intro _ _ _ | intro _ _

theorem keep_closeStalls {port : Nat} {s : State} (hm : 1048608 &&& M = 1048608) (h_s : Keep M s0 s) : Keep M s0 (closeStalls port s) := by
  unfold closeStalls
  try dsimp only
  repeat' first
    | (with_reducible first
      | assumption | apply keep_setStream | apply keep_accrue | apply Keep.foldl | apply Keep.foldlP)
    | ((simp only [keep_mk]; apply Keep.upd) <;> try first | exact .inl (mask_bit hm rfl) | exact .inr rfl | exact fun h => h | exact rfl)
    | exact mask_sub hm rfl | exact rfl | intro _ _ _ | intro _ _

theorem keep_setEnable {port : Nat} {on : Bool} {s : State} (hm : 1048608 &&& M = 1048608) (h_s : Keep M s0 s) :
    Keep M s0 (setEnable port on s) := by
  unfold setEnable
  try dsimp only
  repeat' first
    | (with_reducible first
      | assumption | apply Keep.ite | apply keep_setPort | apply keep_setCtr | apply keep_closeStalls | apply Keep.foldl | apply Keep.foldlP)
    | ((simp only [keep_mk]; apply Keep.upd) <;> try first | exact .inl (mask_bit hm rfl) | exact .inr rfl | exact fun h => h | exact rfl)
    | exact mask_sub hm rfl | exact rfl | split | intro _ _ _ | intro _ _

theorem keep_errorEvent {q : QEvent} {s : State} (hm : 537969696 &&& M = 537969696) (h_s : Keep M s0 s) : Keep M s0 (errorEvent q s) := by
  unfold errorEvent
  try dsimp only
  repeat' first
    | (with_reducible first
      | assumption | apply Keep.ite | apply keep_addCtr | apply keep_raise | refine Keep.ofPair (by assumption) ?_
      | refine Keep.ofTriple (by assumption) ?_)
    | ((simp only [keep_mk]; apply Keep.upd) <;> try first | exact .inl (mask_bit hm rfl) | exact .inr rfl | exact fun h => h | exact rfl)
    | exact mask_sub hm rfl | exact rfl | split

theorem keep_recordEvent {q : QEvent} {origin : Nat} {s : State} (hm : 1048576 &&& M = 1048576) (h_s : Keep M s0 s) :
    Keep M s0 (recordEvent q origin s) := by
  unfold recordEvent
  repeat' first
    | (with_reducible first
      | assumption | apply keep_enqueueEvr)
    | ((simp only [keep_mk]; apply Keep.upd) <;> try first | exact .inl (mask_bit hm rfl) | exact .inr rfl | exact fun h => h | exact rfl)
    | exact mask_sub hm rfl | exact rfl

theorem keep_applyEvent {q : QEvent} {s : State} (hm : 537969696 &&& M = 537969696) (h_s : Keep M s0 s) : Keep M s0 (applyEvent q s) := by
  unfold applyEvent
  try dsimp only
  repeat' first
    | (with_reducible first
      | assumption | apply Keep.ite | apply keep_setPort | apply keep_addDerived | apply keep_setStream | apply keep_stallStart | apply keep_stallEnd
      | apply keep_errorEvent | apply keep_recordEvent | refine Keep.ofPair (by assumption) ?_ | refine Keep.ofTriple (by assumption) ?_)
    | ((simp only [keep_mk]; apply Keep.upd) <;> try first | exact .inl (mask_bit hm rfl) | exact .inr rfl | exact fun h => h | exact rfl)
    | exact mask_sub hm rfl | exact rfl | split | intro _ _ _ | intro _ _

theorem keep_servePort {p : Nat} {s : State} (hm : 537969696 &&& M = 537969696) (h_s : Keep M s0 s) : Keep M s0 (servePort p s) := by
  unfold servePort
  try dsimp only
  repeat' first
    | (with_reducible first
      | assumption | apply Keep.ite | apply keep_setPort | apply keep_applyEvent | refine Keep.ofPair (by assumption) ?_
      | refine Keep.ofTriple (by assumption) ?_)
    | ((simp only [keep_mk]; apply Keep.upd) <;> try first | exact .inl (mask_bit hm rfl) | exact .inr rfl | exact fun h => h | exact rfl)
    | exact mask_sub hm rfl | exact rfl | split | intro _ _ _ | intro _ _

theorem keep_execEventService {s : State} (hm : 537969716 &&& M = 537969716) (h_s : Keep M s0 s) : KeepO M s0 (execEventService s) := by
  unfold execEventService
  try dsimp only
  repeat' first
    | (with_reducible first
      | assumption | apply KeepO.next | apply KeepO.ite | apply keep_fresh | apply keep_advance | apply keep_servePort
      | refine Keep.ofPair (by assumption) ?_ | refine Keep.ofTriple (by assumption) ?_)
    | ((simp only [keep_mk]; apply Keep.upd) <;> try first | exact .inl (mask_bit hm rfl) | exact .inr rfl | exact fun h => h | exact rfl)
    | exact mask_sub hm rfl | split

theorem keep_serveEvents {n : Nat} {s : State} (hm : 537969696 &&& M = 537969696) (h_s : Keep M s0 s) : Keep M s0 (serveEvents n s) := by
  induction n generalizing s with
  | zero => exact h_s
  | succ n ih =>
    unfold serveEvents
    split
    · exact h_s
    · exact ih (keep_servePort (mask_sub hm rfl) h_s)

theorem keep_drainEvents {s : State} (hm : 537969696 &&& M = 537969696) (h_s : Keep M s0 s) : Keep M s0 (drainEvents s) := keep_serveEvents (mask_sub hm rfl) h_s

theorem keep_execSensorConversionRequest {channel : Nat} {s : State} (hm : 536870944 &&& M = 536870944) (h_s : Keep M s0 s) : KeepO M s0 (execSensorConversionRequest channel s) := by
  unfold execSensorConversionRequest
  have hf : Keep M s0 s.fresh := keep_fresh (mask_sub hm rfl) h_s
  dsimp only
  split
  · exact KeepO.next hf
  · rename_i hn
    simp only [Bool.or_eq_true, decide_eq_true_eq, not_or] at hn
    refine KeepO.next (keep_emit (mask_sub hm rfl) ⟨hf.build, hf.pending, hf.window, hf.recorder, hf.pend, fun _ => ?_, hf.chain, ?_⟩)
    · simp only [List.length_append, List.length_singleton]
      omega
    · exact { hf.same with win := .inl (mask_bit hm rfl) }

theorem keep_sensorAnswer {channel code : Nat} {s : State} (hm : 32 &&& M = 32) (h_s : Keep M s0 s) : Keep M s0 (sensorAnswer channel code s).1 := by
  unfold sensorAnswer
  split
  · rename_i c r hr
    split
    · exact h_s
    · refine ⟨h_s.build, h_s.pending, h_s.window, h_s.recorder, h_s.pend, fun x => ?_, h_s.chain, { h_s.same with win := .inl (mask_bit hm rfl) }⟩
      have := h_s.requests x
      rw [hr] at this
      exact Nat.le_of_succ_le this
  · exact h_s

theorem keep_execSensorRequestTimeout {channel : Nat} {s : State} (hm : 536870944 &&& M = 536870944) (h_s : Keep M s0 s) : KeepO M s0 (execSensorRequestTimeout channel s) := by
  unfold execSensorRequestTimeout
  have hf : Keep M s0 s.fresh := keep_fresh (mask_sub hm rfl) h_s
  dsimp only
  split
  · exact KeepO.next hf
  · refine KeepO.next ⟨hf.build, hf.pending, hf.window, hf.recorder, hf.pend, fun x => ?_, hf.chain, { hf.same with win := .inl (mask_bit hm rfl) }⟩
    exact Nat.le_trans (List.length_erase_le ..) (hf.requests x)

theorem keep_sensorsAtTick {s : State} (hm : 32 &&& M = 32) (h_s : Keep M s0 s) : Keep M s0 (sensorsAtTick s) := by
  unfold sensorsAtTick
  try dsimp only
  repeat' first
    | (with_reducible first
      | assumption)
    | ((simp only [keep_mk]; apply Keep.upd) <;> try first | exact .inl (mask_bit hm rfl) | exact .inr rfl | exact fun h => h | exact rfl) | exact rfl
    | intro _ _ _ | intro _ _

theorem keep_stageTrim {img : Bytes} {s : State} (hm : 32 &&& M = 32) (h_s : Keep M s0 s) : Keep M s0 (stageTrim img s).2 := by
  unfold stageTrim
  try dsimp only
  repeat' first
    | (with_reducible first
      | assumption | apply Keep.ite | refine Keep.ofPair (by assumption) ?_ | refine Keep.ofTriple (by assumption) ?_)
    | ((simp only [keep_mk]; apply Keep.upd) <;> try first | exact .inl (mask_bit hm rfl) | exact .inr rfl | exact fun h => h | exact rfl) | exact rfl
    | split | intro _ _ _ | intro _ _

theorem keep_activateTrim {s : State} (hm : 1048608 &&& M = 1048608) (h_s : Keep M s0 s) : Keep M s0 (activateTrim s) := by
  unfold activateTrim
  try dsimp only
  repeat' first
    | (with_reducible first
      | assumption | apply keep_ownEntry | apply Keep.foldl | apply Keep.foldlP | refine Keep.ofPair (by assumption) ?_
      | refine Keep.ofTriple (by assumption) ?_)
    | ((simp only [keep_mk]; apply Keep.upd) <;> try first | exact .inl (mask_bit hm rfl) | exact .inr rfl | exact fun h => h | exact rfl)
    | exact mask_sub hm rfl | exact rfl | split | intro _ _ _ | intro _ _

theorem keep_winGet {r : Request} {s : State} (hm : 0 &&& M = 0) (h_s : Keep M s0 s) : Keep M s0 (winGet r s).2 := by
  unfold winGet
  try dsimp only
  repeat' first
    | (with_reducible first
      | assumption | apply Keep.ite | apply keep_command | refine Keep.ofPair (by assumption) ?_ | refine Keep.ofTriple (by assumption) ?_)
    | ((simp only [keep_mk]; apply Keep.upd) <;> try first | exact .inl (mask_bit hm rfl) | exact .inr rfl | exact fun h => h | exact rfl | exact fun h => PendDistinct.filter h _)
    | exact mask_sub hm rfl | exact rfl | split | intro _ _ _ | intro _ _

theorem keep_execWinGet {r : Request} {s : State} (hm : 613418004 &&& M = 613418004) (h_s : Keep M s0 s) : KeepO M s0 (execWinGet r s) := by
  unfold execWinGet
  repeat' first
    | (with_reducible first
      | assumption | apply KeepO.next | apply KeepO.ite | apply keep_begin_ | apply keep_finish | apply keep_winGet)
    | exact mask_sub hm rfl

theorem keep_winSetEnable {r : Request} {s : State} (hm : 134217728 &&& M = 134217728) (h_s : Keep M s0 s) :
    Keep M s0 (winSetEnable r s).2 := by
  unfold winSetEnable
  try dsimp only
  repeat' first
    | (with_reducible first
      | assumption | apply Keep.ite | apply keep_command | apply keep_defer)
    | ((simp only [keep_mk]; apply Keep.upd) <;> try first | exact .inl (mask_bit hm rfl) | exact .inr rfl | exact fun h => h | exact rfl)
    | exact mask_sub hm rfl | exact rfl | split | intro _ _ _ | intro _ _

theorem keep_execWinSetEnable {r : Request} {s : State} (hm : 747635732 &&& M = 747635732) (h_s : Keep M s0 s) :
    KeepO M s0 (execWinSetEnable r s) := by
  unfold execWinSetEnable
  repeat' first
    | (with_reducible first
      | assumption | apply KeepO.next | apply KeepO.ite | apply keep_begin_ | apply keep_finish | apply keep_winSetEnable)
    | exact mask_sub hm rfl

theorem keep_winGetStream {r : Request} {s : State} (hm : 0 &&& M = 0) (h_s : Keep M s0 s) : Keep M s0 (winGetStream r s).2 := by
  unfold winGetStream
  try dsimp only
  repeat' first
    | (with_reducible first
      | assumption | apply Keep.ite | apply keep_command)
    | ((simp only [keep_mk]; apply Keep.upd) <;> try first | exact .inl (mask_bit hm rfl) | exact .inr rfl | exact fun h => h | exact rfl)
    | exact mask_sub hm rfl | exact rfl | split | intro _ _ _ | intro _ _

theorem keep_execWinGetStream {r : Request} {s : State} (hm : 613418004 &&& M = 613418004) (h_s : Keep M s0 s) :
    KeepO M s0 (execWinGetStream r s) := by
  unfold execWinGetStream
  repeat' first
    | (with_reducible first
      | assumption | apply KeepO.next | apply KeepO.ite | apply keep_begin_ | apply keep_finish | apply keep_winGetStream)
    | exact mask_sub hm rfl

theorem keep_ctrRead {r : Request} {s : State} (hm : 0 &&& M = 0) (h_s : Keep M s0 s) : Keep M s0 (ctrRead r s).2 := by
  unfold ctrRead
  try dsimp only
  repeat' first
    | (with_reducible first
      | assumption | apply Keep.ite | apply keep_command)
    | ((simp only [keep_mk]; apply Keep.upd) <;> try first | exact .inl (mask_bit hm rfl) | exact .inr rfl | exact fun h => h | exact rfl)
    | exact mask_sub hm rfl | exact rfl | split | intro _ _ _ | intro _ _

theorem keep_execCtrRead {r : Request} {s : State} (hm : 613418004 &&& M = 613418004) (h_s : Keep M s0 s) : KeepO M s0 (execCtrRead r s) := by
  unfold execCtrRead
  repeat' first
    | (with_reducible first
      | assumption | apply KeepO.next | apply KeepO.ite | apply keep_begin_ | apply keep_finish | apply keep_ctrRead)
    | exact mask_sub hm rfl

theorem keep_ctrClear {r : Request} {s : State} (hm : 134217728 &&& M = 134217728) (h_s : Keep M s0 s) : Keep M s0 (ctrClear r s).2 := by
  unfold ctrClear
  try dsimp only
  repeat' first
    | (with_reducible first
      | assumption | apply Keep.ite | apply keep_command | apply keep_defer)
    | ((simp only [keep_mk]; apply Keep.upd) <;> try first | exact .inl (mask_bit hm rfl) | exact .inr rfl | exact fun h => h | exact rfl)
    | exact mask_sub hm rfl | exact rfl | split | intro _ _ _ | intro _ _

theorem keep_execCtrClear {r : Request} {s : State} (hm : 747635732 &&& M = 747635732) (h_s : Keep M s0 s) :
    KeepO M s0 (execCtrClear r s) := by
  unfold execCtrClear
  repeat' first
    | (with_reducible first
      | assumption | apply KeepO.next | apply KeepO.ite | apply keep_begin_ | apply keep_finish | apply keep_ctrClear)
    | exact mask_sub hm rfl

theorem keep_ctrGetMap {r : Request} {s : State} (hm : 0 &&& M = 0) (h_s : Keep M s0 s) : Keep M s0 (ctrGetMap r s).2 := by
  unfold ctrGetMap
  try dsimp only
  repeat' first
    | (with_reducible first
      | assumption | apply Keep.ite | apply keep_command | refine Keep.ofPair (by assumption) ?_ | refine Keep.ofTriple (by assumption) ?_)
    | ((simp only [keep_mk]; apply Keep.upd) <;> try first | exact .inl (mask_bit hm rfl) | exact .inr rfl | exact fun h => h | exact rfl)
    | exact mask_sub hm rfl | exact rfl | split | intro _ _ _ | intro _ _

theorem keep_execCtrGetMap {r : Request} {s : State} (hm : 613418004 &&& M = 613418004) (h_s : Keep M s0 s) :
    KeepO M s0 (execCtrGetMap r s) := by
  unfold execCtrGetMap
  repeat' first
    | (with_reducible first
      | assumption | apply KeepO.next | apply KeepO.ite | apply keep_begin_ | apply keep_finish | apply keep_ctrGetMap)
    | exact mask_sub hm rfl

theorem keep_senRead {r : Request} {s : State} (hm : 0 &&& M = 0) (h_s : Keep M s0 s) : Keep M s0 (senRead r s).2 := by
  unfold senRead
  try dsimp only
  repeat' first
    | (with_reducible first
      | assumption | apply Keep.ite | apply keep_command | refine Keep.ofPair (by assumption) ?_ | refine Keep.ofTriple (by assumption) ?_)
    | ((simp only [keep_mk]; apply Keep.upd) <;> try first | exact .inl (mask_bit hm rfl) | exact .inr rfl | exact fun h => h | exact rfl)
    | exact mask_sub hm rfl | exact rfl | split | intro _ _ _ | intro _ _

theorem keep_execSenRead {r : Request} {s : State} (hm : 613418004 &&& M = 613418004) (h_s : Keep M s0 s) : KeepO M s0 (execSenRead r s) := by
  unfold execSenRead
  repeat' first
    | (with_reducible first
      | assumption | apply KeepO.next | apply KeepO.ite | apply keep_begin_ | apply keep_finish | apply keep_senRead)
    | exact mask_sub hm rfl

theorem keep_senGet {r : Request} {s : State} (hm : 0 &&& M = 0) (h_s : Keep M s0 s) : Keep M s0 (senGet r s).2 := by
  unfold senGet
  try dsimp only
  repeat' first
    | (with_reducible first
      | assumption | apply keep_command | refine Keep.ofPair (by assumption) ?_ | refine Keep.ofTriple (by assumption) ?_)
    | ((simp only [keep_mk]; apply Keep.upd) <;> try first | exact .inl (mask_bit hm rfl) | exact .inr rfl | exact fun h => h | exact rfl | exact fun h => PendDistinct.filter h _)
    | exact mask_sub hm rfl | exact rfl | split | intro _ _ _ | intro _ _

theorem keep_execSenGet {r : Request} {s : State} (hm : 613418004 &&& M = 613418004) (h_s : Keep M s0 s) : KeepO M s0 (execSenGet r s) := by
  unfold execSenGet
  repeat' first
    | (with_reducible first
      | assumption | apply KeepO.next | apply KeepO.ite | apply keep_begin_ | apply keep_finish | apply keep_senGet)
    | exact mask_sub hm rfl

theorem keep_senStageTrim {r : Request} {s : State} (hm : 16777248 &&& M = 16777248) (h_s : Keep M s0 s) : Keep M s0 (senStageTrim r s).2 := by
  unfold senStageTrim
  try dsimp only
  repeat' first
    | (with_reducible first
      | assumption | apply keep_command | apply keep_stageTrim | refine keep_takePiece_done (by assumption) ?_ ?_ ?_
      | refine keep_takePiece_whole (by assumption) ?_ ?_ ?_ | refine Keep.ofPair (by assumption) ?_ | refine Keep.ofTriple (by assumption) ?_)
    | ((simp only [keep_mk]; apply Keep.upd) <;> try first | exact .inl (mask_bit hm rfl) | exact .inr rfl | exact fun h => h | exact rfl | exact fun h => PendDistinct.filter h _)
    | exact mask_sub hm rfl | exact rfl | split | intro _ _ _ | intro _ _

theorem keep_execSenStageTrim {r : Request} {s : State} (hm : 630195252 &&& M = 630195252) (h_s : Keep M s0 s) :
    KeepO M s0 (execSenStageTrim r s) := by
  unfold execSenStageTrim
  repeat' first
    | (with_reducible first
      | assumption | apply KeepO.next | apply KeepO.ite | apply keep_begin_ | apply keep_finish | apply keep_senStageTrim)
    | exact mask_sub hm rfl

theorem keep_senActivateTrim {r : Request} {s : State} (hm : 134217728 &&& M = 134217728) (h_s : Keep M s0 s) :
    Keep M s0 (senActivateTrim r s).2 := by
  unfold senActivateTrim
  repeat' first
    | (with_reducible first
      | assumption | apply Keep.ite | apply keep_command | apply keep_defer)
    | ((simp only [keep_mk]; apply Keep.upd) <;> try first | exact .inl (mask_bit hm rfl) | exact .inr rfl | exact fun h => h | exact rfl)
    | exact mask_sub hm rfl | exact rfl | split | intro _ _ _ | intro _ _

theorem keep_execSenActivateTrim {r : Request} {s : State} (hm : 747635732 &&& M = 747635732) (h_s : Keep M s0 s) :
    KeepO M s0 (execSenActivateTrim r s) := by
  unfold execSenActivateTrim
  repeat' first
    | (with_reducible first
      | assumption | apply KeepO.next | apply KeepO.ite | apply keep_begin_ | apply keep_finish | apply keep_senActivateTrim)
    | exact mask_sub hm rfl

end Sys2Proof.Machine
end

