-- ==== Sys2Proof/Laws/KeepShutter.lean ====
section
/-! SUPPORT. What the operations of Machine/Shutter.lean keep (`Keep`, Laws/Keep.lean): one lemma per operation. -/
namespace Sys2Proof.Machine

set_option linter.unusedSimpArgs false
set_option linter.unusedVariables false

variable {M : Nat} {s0 : State}

theorem keep_setSht {f : Shutter → Shutter} {s : State} (hm : 262144 &&& M = 262144) (h_s : Keep M s0 s) : Keep M s0 (setSht f s) := by
  unfold setSht
  repeat' first
    | (with_reducible first
      | assumption)
    | ((simp only [keep_mk]; apply Keep.upd) <;> try first | exact .inl (mask_bit hm rfl) | exact .inr rfl | exact fun h => h | exact rfl) | exact rfl

theorem keep_setRegion {i : Nat} {f : Region → Region} {s : State} (hm : 262144 &&& M = 262144) (h_s : Keep M s0 s) :
    Keep M s0 (setRegion i f s) := by
  unfold setRegion
  repeat' first
    | (with_reducible first
      | assumption | apply Keep.ite | apply keep_setSht)
    | ((simp only [keep_mk]; apply Keep.upd) <;> try first | exact .inl (mask_bit hm rfl) | exact .inr rfl | exact fun h => h | exact rfl)
    | exact mask_sub hm rfl | exact rfl | split | intro _ _ _ | intro _ _

theorem keep_reportOutcome {serial : Word} {code : Nat} {s : State} (hm : 537134080 &&& M = 537134080) (h_s : Keep M s0 s) :
    Keep M s0 (reportOutcome serial code s) := by
  unfold reportOutcome
  repeat' first
    | (with_reducible first
      | assumption | apply Keep.ite | apply keep_sendMsg | apply keep_setSht)
    | ((simp only [keep_mk]; apply Keep.upd) <;> try first | exact .inl (mask_bit hm rfl) | exact .inr rfl | exact fun h => h | exact rfl)
    | exact mask_sub hm rfl | exact rfl | split | intro _ _ _ | intro _ _

theorem keep_sendOutcomeDue {s : State} (hm : 537134080 &&& M = 537134080) (h_s : Keep M s0 s) : Keep M s0 (sendOutcomeDue s) := by
  unfold sendOutcomeDue
  repeat' first
    | (with_reducible first
      | assumption | apply Keep.ite | apply keep_sendMsg | apply keep_setSht | apply keep_reportOutcome | refine Keep.ofPair (by assumption) ?_
      | refine Keep.ofTriple (by assumption) ?_)
    | ((simp only [keep_mk]; apply Keep.upd) <;> try first | exact .inl (mask_bit hm rfl) | exact .inr rfl | exact fun h => h | exact rfl)
    | exact mask_sub hm rfl | exact rfl | split | intro _ _ _ | intro _ _

theorem keep_shiftScan {s : State} (hm : 537133056 &&& M = 537133056) (h_s : Keep M s0 s) : Keep M s0 (shiftScan s) := by
  unfold shiftScan
  try dsimp only
  repeat' first
    | (with_reducible first
      | assumption | apply keep_emit | apply keep_setSht | apply keep_hostRead)
    | ((simp only [keep_mk]; apply Keep.upd) <;> try first | exact .inl (mask_bit hm rfl) | exact .inr rfl | exact fun h => h | exact rfl)
    | exact mask_sub hm rfl | exact rfl | intro _ _ _ | intro _ _

theorem keep_beginScan {mode : Nat} {s : State} (hm : 537134080 &&& M = 537134080) (h_s : Keep M s0 s) : Keep M s0 (beginScan mode s) := by
  unfold beginScan
  try dsimp only
  repeat' first
    | (with_reducible first
      | assumption | apply Keep.ite | apply keep_nextSerial | apply keep_sendBulk | apply keep_setSht | apply keep_shiftScan
      | refine Keep.ofPair (by assumption) ?_ | refine Keep.ofTriple (by assumption) ?_)
    | ((simp only [keep_mk]; apply Keep.upd) <;> try first | exact .inl (mask_bit hm rfl) | exact .inr rfl | exact fun h => h | exact rfl)
    | exact mask_sub hm rfl | exact rfl | split | intro _ _ _ | intro _ _

theorem keep_release {t : Option Nat} {s : State} (hm : 537137152 &&& M = 537137152) (h_s : Keep M s0 s) : Keep M s0 (release t s) := by
  unfold release
  try dsimp only
  repeat' first
    | (with_reducible first
      | assumption | apply Keep.ite | apply keep_emits | apply keep_setSht | refine Keep.ofPair (by assumption) ?_
      | refine Keep.ofTriple (by assumption) ?_)
    | ((simp only [keep_mk]; apply Keep.upd) <;> try first | exact .inl (mask_bit hm rfl) | exact .inr rfl | exact fun h => h | exact rfl)
    | exact mask_sub hm rfl | exact rfl | split | intro _ _ _ | intro _ _

theorem keep_resume {t : Option Nat} {s : State} (hm : 537137152 &&& M = 537137152) (h_s : Keep M s0 s) : Keep M s0 (resume t s) := by
  unfold resume
  repeat' first
    | (with_reducible first
      | assumption | apply keep_setSht | apply keep_release | refine Keep.ofPair (by assumption) ?_ | refine Keep.ofTriple (by assumption) ?_)
    | ((simp only [keep_mk]; apply Keep.upd) <;> try first | exact .inl (mask_bit hm rfl) | exact .inr rfl | exact fun h => h | exact rfl)
    | exact mask_sub hm rfl | exact rfl | split | intro _ _ _ | intro _ _

theorem keep_afterScan {s : State} (hm : 537137152 &&& M = 537137152) (h_s : Keep M s0 s) : Keep M s0 (afterScan s) := by
  unfold afterScan
  repeat' first | (with_reducible first | assumption | apply Keep.ite | apply keep_resume) | exact mask_sub hm rfl | split

theorem keep_stopProgress {s : State} (hm : 537138176 &&& M = 537138176) (h_s : Keep M s0 s) : Keep M s0 (stopProgress s) := by
  unfold stopProgress
  try dsimp only
  repeat' first
    | (with_reducible first
      | assumption | apply Keep.ite | apply keep_setSht | apply keep_beginScan | apply keep_afterScan)
    | ((simp only [keep_mk]; apply Keep.upd) <;> try first | exact .inl (mask_bit hm rfl) | exact .inr rfl | exact fun h => h | exact rfl)
    | exact mask_sub hm rfl | exact rfl | split | intro _ _ _ | intro _ _

theorem keep_dropRuns {s : State} (hm : 536879104 &&& M = 536879104) (h_s : Keep M s0 s) : Keep M s0 (dropRuns s) := by
  unfold dropRuns
  try dsimp only
  repeat' first
    | (with_reducible first
      | assumption | apply Keep.ite | apply keep_emits)
    | ((simp only [keep_mk]; apply Keep.upd) <;> try first | exact .inl (mask_bit hm rfl) | exact .inr rfl | exact fun h => h | exact rfl)
    | exact mask_sub hm rfl | exact rfl | split

theorem keep_requestRegion {r : Region} {s : State} (hm : 536870912 &&& M = 536870912) (h_s : Keep M s0 s) :
    Keep M s0 (requestRegion r s) := by
  unfold requestRegion
  repeat' first | (with_reducible first | assumption | apply Keep.ite | apply keep_emit) | exact mask_sub hm rfl | split

theorem keep_startStop {cause : Nat} {cut : Word} {ref : Nat} {mode : Nat} {resume_ : Option Nat} {stepped : Bool} {s : State} (hm : 1610954240 &&& M = 1610954240) (h_s : Keep M s0 s) :
    Keep M s0 (startStop cause cut ref mode resume_ stepped s) := by
  unfold startStop
  try dsimp only
  repeat' first
    | (with_reducible first
      | assumption | apply Keep.ite | apply keep_closeAll | apply keep_setSht | apply keep_resume | apply keep_stopProgress | apply keep_dropRuns
      | apply keep_requestRegion | apply Keep.foldl | apply Keep.foldlP)
    | ((simp only [keep_mk]; apply Keep.upd) <;> try first | exact .inl (mask_bit hm rfl) | exact .inr rfl | exact fun h => h | exact rfl)
    | exact mask_sub hm rfl | exact rfl | split | intro _ _ _ | intro _ _

theorem keep_joinStop {cause : Nat} {mode : Nat} {s : State} (hm : 537134080 &&& M = 537134080) (h_s : Keep M s0 s) :
    Keep M s0 (joinStop cause mode s) := by
  unfold joinStop
  try dsimp only
  repeat' first
    | (with_reducible first
      | assumption | apply Keep.ite | apply keep_setSht | apply keep_reportOutcome)
    | ((simp only [keep_mk]; apply Keep.upd) <;> try first | exact .inl (mask_bit hm rfl) | exact .inr rfl | exact fun h => h | exact rfl)
    | exact mask_sub hm rfl | exact rfl | split | intro _ _ _ | intro _ _

theorem keep_immediateStop {cause : Nat} {mode : Nat} {s : State} (hm : 1610954240 &&& M = 1610954240) (h_s : Keep M s0 s) :
    Keep M s0 (immediateStop cause mode s).2 := by
  unfold immediateStop
  try dsimp only
  repeat' first
    | (with_reducible first
      | assumption | apply Keep.ite | apply keep_reportOutcome | apply keep_startStop | apply keep_joinStop | refine Keep.ofPair (by assumption) ?_
      | refine Keep.ofTriple (by assumption) ?_)
    | ((simp only [keep_mk]; apply Keep.upd) <;> try first | exact .inl (mask_bit hm rfl) | exact .inr rfl | exact fun h => h | exact rfl)
    | exact mask_sub hm rfl | split

theorem keep_shutterStep {s : State} (hm : 1610954240 &&& M = 1610954240) (h_s : Keep M s0 s) : Keep M s0 (shutterStep s) := by
  unfold shutterStep
  repeat' first
    | (with_reducible first
      | assumption | apply Keep.ite | apply keep_reportOutcome | apply keep_resume | apply keep_startStop | refine Keep.ofPair (by assumption) ?_
      | refine Keep.ofTriple (by assumption) ?_)
    | ((simp only [keep_mk]; apply Keep.upd) <;> try first | exact .inl (mask_bit hm rfl) | exact .inr rfl | exact fun h => h | exact rfl)
    | exact mask_sub hm rfl | split

theorem keep_execTimedStopInstant {s : State} (hm : 1612002836 &&& M = 1612002836) (h_s : Keep M s0 s) :
    KeepO M s0 (execTimedStopInstant s) := by
  unfold execTimedStopInstant
  try dsimp only
  repeat' first
    | (with_reducible first
      | assumption | apply Keep.ite | apply KeepO.next | apply KeepO.ite | apply keep_fresh | apply keep_advanceTo | apply keep_reportOutcome
      | apply keep_resume | apply keep_startStop | refine Keep.ofPair (by assumption) ?_ | refine Keep.ofTriple (by assumption) ?_)
    | ((simp only [keep_mk]; apply Keep.upd) <;> try first | exact .inl (mask_bit hm rfl) | exact .inr rfl | exact fun h => h | exact rfl)
    | exact mask_sub hm rfl | split

theorem keep_execRegionStopAck {region : Nat} {n : Nat} {stopCycle : Nat} {clock : Nat} {offset : Int} {s : State} (hm : 537138176 &&& M = 537138176) (h_s : Keep M s0 s) :
    KeepO M s0 (execRegionStopAck region n stopCycle clock offset s) := by
  unfold execRegionStopAck
  try dsimp only
  repeat' first
    | (with_reducible first
      | assumption | apply Keep.ite | apply KeepO.next | apply KeepO.ite | apply keep_fresh | apply keep_setRegion | apply keep_stopProgress
      | refine Keep.ofPair (by assumption) ?_ | refine Keep.ofTriple (by assumption) ?_)
    | ((simp only [keep_mk]; apply Keep.upd) <;> try first | exact .inl (mask_bit hm rfl) | exact .inr rfl | exact fun h => h | exact rfl)
    | exact mask_sub hm rfl | exact rfl | split | intro _ _ _ | intro _ _

theorem keep_execRegionAckTimeout {region : Nat} {s : State} (hm : 538186772 &&& M = 538186772) (h_s : Keep M s0 s) :
    KeepO M s0 (execRegionAckTimeout region s) := by
  unfold execRegionAckTimeout
  try dsimp only
  repeat' first
    | (with_reducible first
      | assumption | apply Keep.ite | apply KeepO.next | apply KeepO.ite | apply keep_fresh | apply keep_advanceTo | apply keep_setRegion
      | apply keep_stopProgress | refine Keep.ofPair (by assumption) ?_ | refine Keep.ofTriple (by assumption) ?_)
    | ((simp only [keep_mk]; apply Keep.upd) <;> try first | exact .inl (mask_bit hm rfl) | exact .inr rfl | exact fun h => h | exact rfl)
    | exact mask_sub hm rfl | exact rfl | split | intro _ _ _ | intro _ _

theorem keep_execChannelClosed {channel : Nat} {status : Nat} {flits : Nat} {offset : Int} {s : State} (hm : 537138176 &&& M = 537138176) (h_s : Keep M s0 s) :
    KeepO M s0 (execChannelClosed channel status flits offset s) := by
  unfold execChannelClosed
  try dsimp only
  repeat' first
    | (with_reducible first
      | assumption | apply Keep.ite | apply KeepO.next | apply KeepO.ite | apply keep_fresh | apply keep_setSht | apply keep_stopProgress
      | refine Keep.ofPair (by assumption) ?_ | refine Keep.ofTriple (by assumption) ?_)
    | ((simp only [keep_mk]; apply Keep.upd) <;> try first | exact .inl (mask_bit hm rfl) | exact .inr rfl | exact fun h => h | exact rfl)
    | exact mask_sub hm rfl | exact rfl | split | intro _ _ _ | intro _ _

theorem keep_imageFailed {status : Nat} {s : State} (hm : 262144 &&& M = 262144) (h_s : Keep M s0 s) : Keep M s0 (imageFailed status s) := by
  unfold imageFailed
  repeat' first
    | (with_reducible first
      | assumption | apply keep_setSht)
    | ((simp only [keep_mk]; apply Keep.upd) <;> try first | exact .inl (mask_bit hm rfl) | exact .inr rfl | exact fun h => h | exact rfl)
    | exact mask_sub hm rfl | exact rfl | intro _ _ _ | intro _ _

theorem keep_sendImage {sub : Nat} {head : Bytes} {entries : Bytes} {payload : Bytes} {s : State} (hm : 536871936 &&& M = 536871936) (h_s : Keep M s0 s) :
    Keep M s0 (sendImage sub head entries payload s) := by
  unfold sendImage
  try dsimp only
  repeat' first
    | (with_reducible first
      | assumption | apply keep_nextSerial | apply keep_sendBulk | refine Keep.ofPair (by assumption) ?_ | refine Keep.ofTriple (by assumption) ?_)
    | exact mask_sub hm rfl | split

theorem keep_scanStreamEnded {s : State} (hm : 537134080 &&& M = 537134080) (h_s : Keep M s0 s) : Keep M s0 (scanStreamEnded s) := by
  unfold scanStreamEnded
  repeat' first
    | (with_reducible first
      | assumption | apply Keep.ite | apply keep_setSht | apply keep_imageFailed | apply keep_sendImage | refine Keep.ofPair (by assumption) ?_
      | refine Keep.ofTriple (by assumption) ?_)
    | ((simp only [keep_mk]; apply Keep.upd) <;> try first | exact .inl (mask_bit hm rfl) | exact .inr rfl | exact fun h => h | exact rfl)
    | exact mask_sub hm rfl | exact rfl | split | intro _ _ _ | intro _ _

theorem keep_openStream {s : State} (hm : 786432 &&& M = 786432) (h_s : Keep M s0 s) : Keep M s0 (openStream s) := by
  unfold openStream
  try dsimp only
  repeat' first
    | (with_reducible first
      | assumption | apply Keep.ite | apply keep_setCtx | apply keep_giveOutput | apply keep_jobOn | apply keep_setSht)
    | ((simp only [keep_mk]; apply Keep.upd) <;> try first | exact .inl (mask_bit hm rfl) | exact .inr rfl | exact fun h => h | exact rfl)
    | exact mask_sub hm rfl | exact rfl | split | intro _ _ _ | intro _ _

theorem keep_takeScan {b : Bytes} {s : State} (hm : 786432 &&& M = 786432) (h_s : Keep M s0 s) : Keep M s0 (takeScan b s) := by
  unfold takeScan
  repeat' first
    | (with_reducible first
      | assumption | apply Keep.ite | apply keep_setCtx | apply keep_setSht)
    | ((simp only [keep_mk]; apply Keep.upd) <;> try first | exact .inl (mask_bit hm rfl) | exact .inr rfl | exact fun h => h | exact rfl)
    | exact mask_sub hm rfl | exact rfl | split | intro _ _ _ | intro _ _

theorem keep_scanDone {s : State} (hm : 537662464 &&& M = 537662464) (h_s : Keep M s0 s) : Keep M s0 (scanDone s) := by
  unfold scanDone
  try dsimp only
  repeat' first
    | (with_reducible first
      | assumption | apply Keep.ite | apply keep_setCtx | apply keep_setSht | apply keep_afterScan | apply keep_imageFailed | apply keep_sendImage)
    | ((simp only [keep_mk]; apply Keep.upd) <;> try first | exact .inl (mask_bit hm rfl) | exact .inr rfl | exact fun h => h | exact rfl)
    | exact mask_sub hm rfl | exact rfl | split | intro _ _ _ | intro _ _

theorem keep_scanOn {output : List Bytes} {s : State} (hm : 537662464 &&& M = 537662464) (h_s : Keep M s0 s) :
    Keep M s0 (scanOn output s) := by
  unfold scanOn
  try dsimp only
  repeat' first
    | (with_reducible first
      | assumption | apply Keep.ite | apply keep_emits | apply keep_setSht | apply keep_openStream | apply keep_takeScan | apply keep_scanDone)
    | ((simp only [keep_mk]; apply Keep.upd) <;> try first | exact .inl (mask_bit hm rfl) | exact .inr rfl | exact fun h => h | exact rfl)
    | exact mask_sub hm rfl | exact rfl | split | intro _ _ _ | intro _ _

theorem keep_execReserveReplyArrival {item : Bytes} {s : State} (hm : 537138176 &&& M = 537138176) (h_s : Keep M s0 s) :
    KeepO M s0 (execReserveReplyArrival item s) := by
  unfold execReserveReplyArrival
  try dsimp only
  repeat' first
    | (with_reducible first
      | assumption | apply Keep.ite | apply KeepO.next | apply KeepO.ite | apply keep_fresh | apply keep_malformedOn | apply keep_setSht
      | apply keep_shiftScan | apply keep_afterScan | apply keep_imageFailed)
    | ((simp only [keep_mk]; apply Keep.upd) <;> try first | exact .inl (mask_bit hm rfl) | exact .inr rfl | exact fun h => h | exact rfl)
    | exact mask_sub hm rfl | exact rfl | split | intro _ _ _ | intro _ _

theorem keep_imageFresh {s : State} (hm : 263168 &&& M = 263168) (h_s : Keep M s0 s) : Keep M s0 (imageFresh s) := by
  unfold imageFresh
  try dsimp only
  repeat' first
    | (with_reducible first
      | assumption | apply Keep.ite | apply keep_setDoor | apply keep_setSht | apply keep_imageFailed)
    | ((simp only [keep_mk]; apply Keep.upd) <;> try first | exact .inl (mask_bit hm rfl) | exact .inr rfl | exact fun h => h | exact rfl)
    | exact mask_sub hm rfl | exact rfl | split | intro _ _ _ | intro _ _

theorem keep_execResumeInstant {s : State} (hm : 538185748 &&& M = 538185748) (h_s : Keep M s0 s) : KeepO M s0 (execResumeInstant s) := by
  unfold execResumeInstant
  try dsimp only
  repeat' first
    | (with_reducible first
      | assumption | apply Keep.ite | apply KeepO.next | apply KeepO.ite | apply keep_fresh | apply keep_advanceTo | apply keep_release
      | refine Keep.ofPair (by assumption) ?_ | refine Keep.ofTriple (by assumption) ?_)
    | ((simp only [keep_mk]; apply Keep.upd) <;> try first | exact .inl (mask_bit hm rfl) | exact .inr rfl | exact fun h => h | exact rfl)
    | exact mask_sub hm rfl | split

theorem keep_execRegionReleased {region : Nat} {s : State} (hm : 537133056 &&& M = 537133056) (h_s : Keep M s0 s) :
    KeepO M s0 (execRegionReleased region s) := by
  unfold execRegionReleased
  try dsimp only
  repeat' first
    | (with_reducible first
      | assumption | apply Keep.ite | apply KeepO.next | apply KeepO.ite | apply keep_fresh | apply keep_setSht | apply keep_setRegion)
    | ((simp only [keep_mk]; apply Keep.upd) <;> try first | exact .inl (mask_bit hm rfl) | exact .inr rfl | exact fun h => h | exact rfl)
    | exact mask_sub hm rfl | exact rfl | split | intro _ _ _ | intro _ _

theorem keep_execRegionResetPulse {region : Nat} {s : State} (hm : 537133056 &&& M = 537133056) (h_s : Keep M s0 s) :
    KeepO M s0 (execRegionResetPulse region s) := by
  unfold execRegionResetPulse
  try dsimp only
  repeat' first
    | (with_reducible first
      | assumption | apply Keep.ite | apply KeepO.next | apply KeepO.ite | apply keep_fresh | apply keep_setSht | apply keep_setRegion)
    | ((simp only [keep_mk]; apply Keep.upd) <;> try first | exact .inl (mask_bit hm rfl) | exact .inr rfl | exact fun h => h | exact rfl)
    | exact mask_sub hm rfl | exact rfl | split | intro _ _ _ | intro _ _

theorem keep_dieCut {c : CutArm} {s : State} (hm : 537138176 &&& M = 537138176) (h_s : Keep M s0 s) : Keep M s0 (dieCut c s) := by
  unfold dieCut
  try dsimp only
  repeat' first
    | (with_reducible first
      | assumption | apply Keep.ite | apply keep_setSht | apply keep_reportOutcome | apply keep_resume | refine Keep.ofPair (by assumption) ?_
      | refine Keep.ofTriple (by assumption) ?_)
    | ((simp only [keep_mk]; apply Keep.upd) <;> try first | exact .inl (mask_bit hm rfl) | exact .inr rfl | exact fun h => h | exact rfl)
    | exact mask_sub hm rfl | exact rfl | split | intro _ _ _ | intro _ _

theorem keep_forwardCut {c : CutArm} {doors : List Nat} {s : State} (hm : 536871936 &&& M = 536871936) (h_s : Keep M s0 s) :
    Keep M s0 (forwardCut c doors s) := by
  unfold forwardCut
  repeat' first
    | (with_reducible first
      | assumption | apply keep_sendMsg | apply Keep.foldl | apply Keep.foldlP)
    | ((simp only [keep_mk]; apply Keep.upd) <;> try first | exact .inl (mask_bit hm rfl) | exact .inr rfl | exact fun h => h | exact rfl)
    | exact mask_sub hm rfl | exact rfl | intro _ _ _ | intro _ _

theorem keep_hubArm {c : CutArm} {t : Nat} {slots : Option (List Nat)} {via : List Nat} {s : State} (hm : 537134080 &&& M = 537134080) (h_s : Keep M s0 s) :
    Keep M s0 (hubArm c t slots via s).2 := by
  unfold hubArm
  try dsimp only
  repeat' first
    | (with_reducible first
      | assumption | apply Keep.ite | apply keep_setSht | apply keep_forwardCut)
    | ((simp only [keep_mk]; apply Keep.upd) <;> try first | exact .inl (mask_bit hm rfl) | exact .inr rfl | exact fun h => h | exact rfl)
    | exact mask_sub hm rfl | exact rfl | split | intro _ _ _ | intro _ _

theorem keep_sendCounts {serial : Word} {s : State} (hm : 536871936 &&& M = 536871936) (h_s : Keep M s0 s) :
    Keep M s0 (sendCounts serial s) := by
  unfold sendCounts
  try dsimp only
  repeat' first
    | (with_reducible first
      | assumption | apply Keep.ite | apply keep_sendMsg | apply Keep.foldl | apply Keep.foldlP | refine Keep.ofPair (by assumption) ?_
      | refine Keep.ofTriple (by assumption) ?_)
    | ((simp only [keep_mk]; apply Keep.upd) <;> try first | exact .inl (mask_bit hm rfl) | exact .inr rfl | exact fun h => h | exact rfl)
    | exact mask_sub hm rfl | split | intro _ _ _ | intro _ _

theorem keep_takeCut {door : Nat} {c : CutArm} {s : State} (hm : 537138176 &&& M = 537138176) (h_s : Keep M s0 s) :
    Keep M s0 (takeCut door c s) := by
  unfold takeCut
  try dsimp only
  repeat' first
    | (with_reducible first
      | assumption | apply Keep.ite | apply keep_setSht | apply keep_dieCut | apply keep_forwardCut | apply keep_hubArm | apply keep_sendCounts)
    | ((simp only [keep_mk]; apply Keep.upd) <;> try first | exact .inl (mask_bit hm rfl) | exact .inr rfl | exact fun h => h | exact rfl)
    | exact mask_sub hm rfl | exact rfl | split | intro _ _ _ | intro _ _

theorem keep_execCutArrival {after : Nat} {door : Nat} {cut : CutArm} {s : State} (hm : 538186772 &&& M = 538186772) (h_s : Keep M s0 s) :
    KeepO M s0 (execCutArrival after door cut s) := by
  unfold execCutArrival
  try dsimp only
  repeat' first
    | (with_reducible first
      | assumption | apply Keep.ite | apply KeepO.next | apply KeepO.ite | apply keep_begin_ | apply keep_takeCut)
    | exact mask_sub hm rfl | split

theorem keep_takeReport {door : Nat} {serial : Word} {counts : List Nat} {s : State} (hm : 537134080 &&& M = 537134080) (h_s : Keep M s0 s) :
    Keep M s0 (takeReport door serial counts s) := by
  unfold takeReport
  try dsimp only
  repeat' first
    | (with_reducible first
      | assumption | apply Keep.ite | apply keep_setSht | apply keep_sendCounts | apply Keep.foldl | apply Keep.foldlP)
    | ((simp only [keep_mk]; apply Keep.upd) <;> try first | exact .inl (mask_bit hm rfl) | exact .inr rfl | exact fun h => h | exact rfl)
    | exact mask_sub hm rfl | exact rfl | split | intro _ _ _ | intro _ _

theorem keep_execCutOutcomeReport {door : Nat} {serial : Word} {counts : List Nat} {s : State} (hm : 537134080 &&& M = 537134080) (h_s : Keep M s0 s) :
    KeepO M s0 (execCutOutcomeReport door serial counts s) := by
  unfold execCutOutcomeReport
  try dsimp only
  repeat' first
    | (with_reducible first
      | assumption | apply Keep.ite | apply KeepO.next | apply KeepO.ite | apply keep_fresh | apply keep_malformedOn | apply keep_takeReport)
    | exact mask_sub hm rfl | split

theorem keep_execReserveArrival {door : Nat} {item : Bytes} {s : State} (hm : 537134080 &&& M = 537134080) (h_s : Keep M s0 s) :
    KeepO M s0 (execReserveArrival door item s) := by
  unfold execReserveArrival
  try dsimp only
  repeat' first
    | (with_reducible first
      | assumption | apply Keep.ite | apply KeepO.next | apply KeepO.ite | apply keep_fresh | apply keep_nextSerial | apply keep_sendBulk
      | apply keep_malformedOn | apply keep_setSht | refine Keep.ofPair (by assumption) ?_ | refine Keep.ofTriple (by assumption) ?_)
    | ((simp only [keep_mk]; apply Keep.upd) <;> try first | exact .inl (mask_bit hm rfl) | exact .inr rfl | exact fun h => h | exact rfl)
    | exact mask_sub hm rfl | exact rfl | split | intro _ _ _ | intro _ _

theorem keep_storeImage {door : Nat} {kind : Nat} {item : Bytes} {s : State} (hm : 263168 &&& M = 263168) (h_s : Keep M s0 s) :
    Keep M s0 (storeImage door kind item s) := by
  unfold storeImage
  try dsimp only
  repeat' first
    | (with_reducible first
      | assumption | apply Keep.ite | apply keep_malformedOn | apply keep_setSht)
    | ((simp only [keep_mk]; apply Keep.upd) <;> try first | exact .inl (mask_bit hm rfl) | exact .inr rfl | exact fun h => h | exact rfl)
    | exact mask_sub hm rfl | exact rfl | split | intro _ _ _ | intro _ _

theorem keep_execScanImageArrival {door : Nat} {_serial : Nat} {item : Bytes} {s : State} (hm : 537134080 &&& M = 537134080) (h_s : Keep M s0 s) :
    KeepO M s0 (execScanImageArrival door _serial item s) := by
  unfold execScanImageArrival
  try dsimp only
  repeat' first
    | (with_reducible first
      | assumption | apply Keep.ite | apply KeepO.next | apply KeepO.ite | apply keep_fresh | apply keep_storeImage)
    | exact mask_sub hm rfl | split

theorem keep_execHangDumpArrival {door : Nat} {_serial : Nat} {item : Bytes} {s : State} (hm : 537134080 &&& M = 537134080) (h_s : Keep M s0 s) :
    KeepO M s0 (execHangDumpArrival door _serial item s) := by
  unfold execHangDumpArrival
  try dsimp only
  repeat' first
    | (with_reducible first
      | assumption | apply Keep.ite | apply KeepO.next | apply KeepO.ite | apply keep_fresh | apply keep_storeImage)
    | exact mask_sub hm rfl | split

theorem keep_shutterStageProgram {r : Request} {s : State} (hm : 17039360 &&& M = 17039360) (h_s : Keep M s0 s) :
    Keep M s0 (shutterStageProgram r s).2 := by
  unfold shutterStageProgram
  try dsimp only
  repeat' first
    | (with_reducible first
      | assumption | apply Keep.ite | apply keep_command | apply keep_setSht | refine keep_takePiece_done (by assumption) ?_ ?_ ?_
      | refine keep_takePiece_whole (by assumption) ?_ ?_ ?_ | refine Keep.ofPair (by assumption) ?_ | refine Keep.ofTriple (by assumption) ?_)
    | ((simp only [keep_mk]; apply Keep.upd) <;> try first | exact .inl (mask_bit hm rfl) | exact .inr rfl | exact fun h => h | exact rfl | exact fun h => PendDistinct.filter h _)
    | exact mask_sub hm rfl | exact rfl | split | intro _ _ _ | intro _ _

theorem keep_execShutterStageProgram {r : Request} {s : State} (hm : 630457364 &&& M = 630457364) (h_s : Keep M s0 s) :
    KeepO M s0 (execShutterStageProgram r s) := by
  unfold execShutterStageProgram
  repeat' first
    | (with_reducible first
      | assumption | apply KeepO.next | apply KeepO.ite | apply keep_begin_ | apply keep_finish | apply keep_shutterStageProgram)
    | exact mask_sub hm rfl

theorem keep_shutterActivateProgram {r : Request} {s : State} (hm : 134217728 &&& M = 134217728) (h_s : Keep M s0 s) :
    Keep M s0 (shutterActivateProgram r s).2 := by
  unfold shutterActivateProgram
  repeat' first
    | (with_reducible first
      | assumption | apply Keep.ite | apply keep_command | apply keep_defer)
    | ((simp only [keep_mk]; apply Keep.upd) <;> try first | exact .inl (mask_bit hm rfl) | exact .inr rfl | exact fun h => h | exact rfl)
    | exact mask_sub hm rfl | exact rfl | split | intro _ _ _ | intro _ _

theorem keep_execShutterActivateProgram {r : Request} {s : State} (hm : 747635732 &&& M = 747635732) (h_s : Keep M s0 s) :
    KeepO M s0 (execShutterActivateProgram r s) := by
  unfold execShutterActivateProgram
  repeat' first
    | (with_reducible first
      | assumption | apply KeepO.next | apply KeepO.ite | apply keep_begin_ | apply keep_finish | apply keep_shutterActivateProgram)
    | exact mask_sub hm rfl

theorem keep_shutterSet {r : Request} {s : State} (hm : 134217728 &&& M = 134217728) (h_s : Keep M s0 s) : Keep M s0 (shutterSet r s).2 := by
  unfold shutterSet
  repeat' first
    | (with_reducible first
      | assumption | apply Keep.ite | apply keep_command | apply keep_defer)
    | ((simp only [keep_mk]; apply Keep.upd) <;> try first | exact .inl (mask_bit hm rfl) | exact .inr rfl | exact fun h => h | exact rfl)
    | exact mask_sub hm rfl | exact rfl | split | intro _ _ _ | intro _ _

theorem keep_execShutterSet {r : Request} {s : State} (hm : 747635732 &&& M = 747635732) (h_s : Keep M s0 s) :
    KeepO M s0 (execShutterSet r s) := by
  unfold execShutterSet
  repeat' first
    | (with_reducible first
      | assumption | apply KeepO.next | apply KeepO.ite | apply keep_begin_ | apply keep_finish | apply keep_shutterSet)
    | exact mask_sub hm rfl

theorem keep_shutterStop {r : Request} {s : State} (hm : 1610954240 &&& M = 1610954240) (h_s : Keep M s0 s) :
    Keep M s0 (shutterStop r s).2 := by
  unfold shutterStop
  repeat' first
    | (with_reducible first
      | assumption | apply Keep.ite | apply keep_command | apply keep_immediateStop | refine Keep.ofPair (by assumption) ?_
      | refine Keep.ofTriple (by assumption) ?_)
    | ((simp only [keep_mk]; apply Keep.upd) <;> try first | exact .inl (mask_bit hm rfl) | exact .inr rfl | exact fun h => h | exact rfl)
    | exact mask_sub hm rfl | exact rfl | split | intro _ _ _ | intro _ _

theorem keep_execShutterStop {r : Request} {s : State} (hm : 1687500308 &&& M = 1687500308) (h_s : Keep M s0 s) :
    KeepO M s0 (execShutterStop r s) := by
  unfold execShutterStop
  repeat' first
    | (with_reducible first
      | assumption | apply KeepO.next | apply KeepO.ite | apply keep_begin_ | apply keep_finish | apply keep_shutterStop)
    | exact mask_sub hm rfl

theorem keep_shutterArmTimed {r : Request} {s : State} (hm : 537134080 &&& M = 537134080) (h_s : Keep M s0 s) :
    Keep M s0 (shutterArmTimed r s).2 := by
  unfold shutterArmTimed
  try dsimp only
  repeat' first
    | (with_reducible first
      | assumption | apply Keep.ite | apply keep_command | apply keep_setSht | apply keep_resume | apply keep_hubArm
      | refine Keep.ofPair (by assumption) ?_ | refine Keep.ofTriple (by assumption) ?_)
    | ((simp only [keep_mk]; apply Keep.upd) <;> try first | exact .inl (mask_bit hm rfl) | exact .inr rfl | exact fun h => h | exact rfl)
    | exact mask_sub hm rfl | exact rfl | split | intro _ _ _ | intro _ _

theorem keep_execShutterArmTimed {r : Request} {s : State} (hm : 613680148 &&& M = 613680148) (h_s : Keep M s0 s) :
    KeepO M s0 (execShutterArmTimed r s) := by
  unfold execShutterArmTimed
  repeat' first
    | (with_reducible first
      | assumption | apply KeepO.next | apply KeepO.ite | apply keep_begin_ | apply keep_finish | apply keep_shutterArmTimed)
    | exact mask_sub hm rfl

theorem keep_shutterCancelTimed {r : Request} {s : State} (hm : 537134080 &&& M = 537134080) (h_s : Keep M s0 s) :
    Keep M s0 (shutterCancelTimed r s).2 := by
  unfold shutterCancelTimed
  try dsimp only
  repeat' first
    | (with_reducible first
      | assumption | apply Keep.ite | apply keep_command | apply keep_setSht | apply keep_reportOutcome | apply keep_resume | apply keep_forwardCut
      | refine Keep.ofPair (by assumption) ?_ | refine Keep.ofTriple (by assumption) ?_)
    | ((simp only [keep_mk]; apply Keep.upd) <;> try first | exact .inl (mask_bit hm rfl) | exact .inr rfl | exact fun h => h | exact rfl)
    | exact mask_sub hm rfl | exact rfl | split | intro _ _ _ | intro _ _

theorem keep_execShutterCancelTimed {r : Request} {s : State} (hm : 613680148 &&& M = 613680148) (h_s : Keep M s0 s) :
    KeepO M s0 (execShutterCancelTimed r s) := by
  unfold execShutterCancelTimed
  repeat' first
    | (with_reducible first
      | assumption | apply KeepO.next | apply KeepO.ite | apply keep_begin_ | apply keep_finish | apply keep_shutterCancelTimed)
    | exact mask_sub hm rfl

theorem keep_shutterScan {r : Request} {s : State} (hm : 537134080 &&& M = 537134080) (h_s : Keep M s0 s) : Keep M s0 (shutterScan r s).2 := by
  unfold shutterScan
  repeat' first
    | (with_reducible first
      | assumption | apply Keep.ite | apply keep_command | apply keep_beginScan | apply keep_resume)
    | ((simp only [keep_mk]; apply Keep.upd) <;> try first | exact .inl (mask_bit hm rfl) | exact .inr rfl | exact fun h => h | exact rfl)
    | exact mask_sub hm rfl | exact rfl | split | intro _ _ _ | intro _ _

theorem keep_execShutterScan {r : Request} {s : State} (hm : 613680148 &&& M = 613680148) (h_s : Keep M s0 s) :
    KeepO M s0 (execShutterScan r s) := by
  unfold execShutterScan
  repeat' first
    | (with_reducible first
      | assumption | apply KeepO.next | apply KeepO.ite | apply keep_begin_ | apply keep_finish | apply keep_shutterScan)
    | exact mask_sub hm rfl

theorem keep_shutterAbortScan {r : Request} {s : State} (hm : 262144 &&& M = 262144) (h_s : Keep M s0 s) :
    Keep M s0 (shutterAbortScan r s).2 := by
  unfold shutterAbortScan
  repeat' first
    | (with_reducible first
      | assumption | apply Keep.ite | apply keep_command | apply keep_setSht)
    | ((simp only [keep_mk]; apply Keep.upd) <;> try first | exact .inl (mask_bit hm rfl) | exact .inr rfl | exact fun h => h | exact rfl)
    | exact mask_sub hm rfl | exact rfl | split | intro _ _ _ | intro _ _

theorem keep_execShutterAbortScan {r : Request} {s : State} (hm : 613680148 &&& M = 613680148) (h_s : Keep M s0 s) :
    KeepO M s0 (execShutterAbortScan r s) := by
  unfold execShutterAbortScan
  repeat' first
    | (with_reducible first
      | assumption | apply KeepO.next | apply KeepO.ite | apply keep_begin_ | apply keep_finish | apply keep_shutterAbortScan)
    | exact mask_sub hm rfl

theorem keep_shutterResume {r : Request} {s : State} (hm : 537138176 &&& M = 537138176) (h_s : Keep M s0 s) :
    Keep M s0 (shutterResume r s).2 := by
  unfold shutterResume
  try dsimp only
  repeat' first
    | (with_reducible first
      | assumption | apply Keep.ite | apply keep_command | apply keep_resume | apply keep_forwardCut | refine Keep.ofPair (by assumption) ?_
      | refine Keep.ofTriple (by assumption) ?_)
    | ((simp only [keep_mk]; apply Keep.upd) <;> try first | exact .inl (mask_bit hm rfl) | exact .inr rfl | exact fun h => h | exact rfl)
    | exact mask_sub hm rfl | exact rfl | split | intro _ _ _ | intro _ _

theorem keep_execShutterResume {r : Request} {s : State} (hm : 613684244 &&& M = 613684244) (h_s : Keep M s0 s) :
    KeepO M s0 (execShutterResume r s) := by
  unfold execShutterResume
  repeat' first
    | (with_reducible first
      | assumption | apply KeepO.next | apply KeepO.ite | apply keep_begin_ | apply keep_finish | apply keep_shutterResume)
    | exact mask_sub hm rfl

theorem keep_shutterSetHang {r : Request} {s : State} (hm : 134217728 &&& M = 134217728) (h_s : Keep M s0 s) :
    Keep M s0 (shutterSetHang r s).2 := by
  unfold shutterSetHang
  try dsimp only
  repeat' first
    | (with_reducible first
      | assumption | apply Keep.ite | apply keep_command | apply keep_defer)
    | ((simp only [keep_mk]; apply Keep.upd) <;> try first | exact .inl (mask_bit hm rfl) | exact .inr rfl | exact fun h => h | exact rfl)
    | exact mask_sub hm rfl | exact rfl | split | intro _ _ _ | intro _ _

theorem keep_execShutterSetHang {r : Request} {s : State} (hm : 747635732 &&& M = 747635732) (h_s : Keep M s0 s) :
    KeepO M s0 (execShutterSetHang r s) := by
  unfold execShutterSetHang
  repeat' first
    | (with_reducible first
      | assumption | apply KeepO.next | apply KeepO.ite | apply keep_begin_ | apply keep_finish | apply keep_shutterSetHang)
    | exact mask_sub hm rfl

theorem keep_shutterGet {r : Request} {s : State} (hm : 0 &&& M = 0) (h_s : Keep M s0 s) : Keep M s0 (shutterGet r s).2 := by
  unfold shutterGet
  try dsimp only
  repeat' first
    | (with_reducible first
      | assumption | apply keep_command | apply keep_resume | apply keep_hangCount | refine Keep.ofPair (by assumption) ?_
      | refine Keep.ofTriple (by assumption) ?_)
    | ((simp only [keep_mk]; apply Keep.upd) <;> try first | exact .inl (mask_bit hm rfl) | exact .inr rfl | exact fun h => h | exact rfl | exact fun h => PendDistinct.filter h _)
    | exact mask_sub hm rfl | exact rfl | split | intro _ _ _ | intro _ _

theorem keep_execShutterGet {r : Request} {s : State} (hm : 613418004 &&& M = 613418004) (h_s : Keep M s0 s) :
    KeepO M s0 (execShutterGet r s) := by
  unfold execShutterGet
  repeat' first
    | (with_reducible first
      | assumption | apply KeepO.next | apply KeepO.ite | apply keep_begin_ | apply keep_finish | apply keep_shutterGet)
    | exact mask_sub hm rfl

theorem keep_shutterGetCut {r : Request} {s : State} (hm : 0 &&& M = 0) (h_s : Keep M s0 s) : Keep M s0 (shutterGetCut r s).2 := by
  unfold shutterGetCut
  try dsimp only
  repeat' first
    | (with_reducible first
      | assumption | apply Keep.ite | apply keep_command | refine Keep.ofPair (by assumption) ?_ | refine Keep.ofTriple (by assumption) ?_)
    | ((simp only [keep_mk]; apply Keep.upd) <;> try first | exact .inl (mask_bit hm rfl) | exact .inr rfl | exact fun h => h | exact rfl)
    | exact mask_sub hm rfl | exact rfl | split | intro _ _ _ | intro _ _

theorem keep_execShutterGetCut {r : Request} {s : State} (hm : 613418004 &&& M = 613418004) (h_s : Keep M s0 s) :
    KeepO M s0 (execShutterGetCut r s) := by
  unfold execShutterGetCut
  repeat' first
    | (with_reducible first
      | assumption | apply KeepO.next | apply KeepO.ite | apply keep_begin_ | apply keep_finish | apply keep_shutterGetCut)
    | exact mask_sub hm rfl

theorem keep_shutterSetArea {r : Request} {s : State} (hm : 134217728 &&& M = 134217728) (h_s : Keep M s0 s) :
    Keep M s0 (shutterSetArea r s).2 := by
  unfold shutterSetArea
  try dsimp only
  repeat' first
    | (with_reducible first
      | assumption | apply Keep.ite | apply keep_command | apply keep_defer)
    | ((simp only [keep_mk]; apply Keep.upd) <;> try first | exact .inl (mask_bit hm rfl) | exact .inr rfl | exact fun h => h | exact rfl)
    | exact mask_sub hm rfl | exact rfl | split | intro _ _ _ | intro _ _

theorem keep_execShutterSetArea {r : Request} {s : State} (hm : 747635732 &&& M = 747635732) (h_s : Keep M s0 s) :
    KeepO M s0 (execShutterSetArea r s) := by
  unfold execShutterSetArea
  repeat' first
    | (with_reducible first
      | assumption | apply KeepO.next | apply KeepO.ite | apply keep_begin_ | apply keep_finish | apply keep_shutterSetArea)
    | exact mask_sub hm rfl

theorem keep_shutterListImages {r : Request} {s : State} (hm : 0 &&& M = 0) (h_s : Keep M s0 s) : Keep M s0 (shutterListImages r s).2 := by
  unfold shutterListImages
  try dsimp only
  repeat' first
    | (with_reducible first
      | assumption | apply Keep.ite | apply keep_command | refine Keep.ofPair (by assumption) ?_ | refine Keep.ofTriple (by assumption) ?_)
    | ((simp only [keep_mk]; apply Keep.upd) <;> try first | exact .inl (mask_bit hm rfl) | exact .inr rfl | exact fun h => h | exact rfl | exact fun h => PendDistinct.filter h _)
    | exact mask_sub hm rfl | exact rfl | split | intro _ _ _ | intro _ _

theorem keep_execShutterListImages {r : Request} {s : State} (hm : 613418004 &&& M = 613418004) (h_s : Keep M s0 s) :
    KeepO M s0 (execShutterListImages r s) := by
  unfold execShutterListImages
  repeat' first
    | (with_reducible first
      | assumption | apply KeepO.next | apply KeepO.ite | apply keep_begin_ | apply keep_finish | apply keep_shutterListImages)
    | exact mask_sub hm rfl

theorem keep_shutterReadImage {r : Request} {s : State} (hm : 0 &&& M = 0) (h_s : Keep M s0 s) : Keep M s0 (shutterReadImage r s).2 := by
  unfold shutterReadImage
  repeat' first
    | (with_reducible first
      | assumption | apply Keep.ite | apply keep_command | refine Keep.ofPair (by assumption) ?_ | refine Keep.ofTriple (by assumption) ?_)
    | ((simp only [keep_mk]; apply Keep.upd) <;> try first | exact .inl (mask_bit hm rfl) | exact .inr rfl | exact fun h => h | exact rfl)
    | exact mask_sub hm rfl | exact rfl | split | intro _ _ _ | intro _ _

theorem keep_execShutterReadImage {r : Request} {s : State} (hm : 613418004 &&& M = 613418004) (h_s : Keep M s0 s) :
    KeepO M s0 (execShutterReadImage r s) := by
  unfold execShutterReadImage
  repeat' first
    | (with_reducible first
      | assumption | apply KeepO.next | apply KeepO.ite | apply keep_begin_ | apply keep_finish | apply keep_shutterReadImage)
    | exact mask_sub hm rfl

theorem keep_shutterReleaseImage {r : Request} {s : State} (hm : 262144 &&& M = 262144) (h_s : Keep M s0 s) :
    Keep M s0 (shutterReleaseImage r s).2 := by
  unfold shutterReleaseImage
  repeat' first
    | (with_reducible first
      | assumption | apply Keep.ite | apply keep_command | apply keep_setSht | refine Keep.ofPair (by assumption) ?_
      | refine Keep.ofTriple (by assumption) ?_)
    | ((simp only [keep_mk]; apply Keep.upd) <;> try first | exact .inl (mask_bit hm rfl) | exact .inr rfl | exact fun h => h | exact rfl)
    | exact mask_sub hm rfl | exact rfl | split | intro _ _ _ | intro _ _

theorem keep_execShutterReleaseImage {r : Request} {s : State} (hm : 613680148 &&& M = 613680148) (h_s : Keep M s0 s) :
    KeepO M s0 (execShutterReleaseImage r s) := by
  unfold execShutterReleaseImage
  repeat' first
    | (with_reducible first
      | assumption | apply KeepO.next | apply KeepO.ite | apply keep_begin_ | apply keep_finish | apply keep_shutterReleaseImage)
    | exact mask_sub hm rfl

theorem keep_formHead {s : State} (hm : 1074003968 &&& M = 1074003968) (h_s : Keep M s0 s) : Keep M s0 (formHead s) := by
  unfold formHead
  try dsimp only
  repeat' first
    | (with_reducible first
      | assumption | apply Keep.ite | apply keep_setSht)
    | ((simp only [keep_mk]; apply Keep.upd) <;> try first | exact .inl (mask_bit hm rfl) | exact .inr rfl | exact fun h => h | exact rfl)
    | exact mask_sub hm rfl | exact rfl | split | intro _ _ _ | intro _ _

theorem keep_hostRoom {s : State} (hm : 524288 &&& M = 524288) (h_s : Keep M s0 s) : Keep M s0 (hostRoom s) := by
  unfold hostRoom
  try dsimp only
  repeat' first | (with_reducible first | assumption | apply Keep.ite | apply keep_giveOutput) | exact mask_sub hm rfl | split

theorem keep_shutterReadScan {r : Request} {s : State} (hm : 1074528256 &&& M = 1074528256) (h_s : Keep M s0 s) :
    Keep M s0 (shutterReadScan r s).2 := by
  unfold shutterReadScan
  try dsimp only
  repeat' first
    | (with_reducible first
      | assumption | apply Keep.ite | apply keep_command | apply keep_setSht | apply keep_formHead | apply keep_hostRoom | apply keep_hostRead)
    | ((simp only [keep_mk]; apply Keep.upd) <;> try first | exact .inl (mask_bit hm rfl) | exact .inr rfl | exact fun h => h | exact rfl)
    | exact mask_sub hm rfl | exact rfl | split | intro _ _ _ | intro _ _

theorem keep_execShutterReadScan {r : Request} {s : State} (hm : 1687946260 &&& M = 1687946260) (h_s : Keep M s0 s) :
    KeepO M s0 (execShutterReadScan r s) := by
  unfold execShutterReadScan
  repeat' first
    | (with_reducible first
      | assumption | apply KeepO.next | apply KeepO.ite | apply keep_begin_ | apply keep_finish | apply keep_shutterReadScan)
    | exact mask_sub hm rfl

end Sys2Proof.Machine
end

