-- ==== Sys2Proof/Laws/KeepReduce.lean ====
section
/-! SUPPORT. What the operations of Machine/Reduce.lean keep (`Keep`, Laws/Keep.lean): one lemma per operation. -/
namespace Sys2Proof.Machine

set_option linter.unusedSimpArgs false
set_option linter.unusedVariables false

variable {M : Nat} {s0 : State}

theorem keep_stageCatalogue {img : Bytes} {s : State} (hm : 128 &&& M = 128) (h_s : Keep M s0 s) : Keep M s0 (stageCatalogue img s).2 := by
  unfold stageCatalogue
  try dsimp only
  repeat' first
    | (with_reducible first
      | assumption | apply Keep.ite)
    | ((simp only [keep_mk]; apply Keep.upd) <;> try first | exact .inl (mask_bit hm rfl) | exact .inr rfl | exact fun h => h | exact rfl) | exact rfl
    | split | intro _ _ _ | intro _ _

theorem keep_activateCatalogue {key : Nat} {s : State} (hm : 192 &&& M = 192) (h_s : Keep M s0 s) : Keep M s0 (activateCatalogue key s) := by
  unfold activateCatalogue
  try dsimp only
  repeat' first
    | (with_reducible first
      | assumption | refine Keep.ofPair (by assumption) ?_ | refine Keep.ofTriple (by assumption) ?_)
    | ((simp only [keep_mk]; apply Keep.upd) <;> try first | exact .inl (mask_bit hm rfl) | exact .inr rfl | exact fun h => h | exact rfl) | exact rfl
    | split

end Sys2Proof.Machine
end

