-- ==== Sys2Proof/Laws/KeepFeatures.lean ====
section
/-! SUPPORT. What the operations of Machine/Features.lean keep (`Keep`, Laws/Keep.lean): one lemma per operation. -/
namespace Sys2Proof.Machine

set_option linter.unusedSimpArgs false
set_option linter.unusedVariables false

variable {M : Nat} {s0 : State}

theorem keep_stageTable {img : Bytes} {s : State} (hm : 2048 &&& M = 2048) (h_s : Keep M s0 s) : Keep M s0 (stageTable img s).2 := by
  unfold stageTable
  try dsimp only
  repeat' first
    | (with_reducible first
      | assumption | apply Keep.ite)
    | ((simp only [keep_mk]; apply Keep.upd) <;> try first | exact .inl (mask_bit hm rfl) | exact .inr rfl | exact fun h => h | exact rfl) | exact rfl
    | split

theorem keep_countAlarm {t : Tracker} {s : State} (hm : 1050656 &&& M = 1050656) (h_s : Keep M s0 s) : Keep M s0 (countAlarm t s) := by
  unfold countAlarm
  try dsimp only
  repeat' first
    | (with_reducible first
      | assumption | apply Keep.ite | apply keep_addCtr)
    | ((simp only [keep_mk]; apply Keep.upd) <;> try first | exact .inl (mask_bit hm rfl) | exact .inr rfl | exact fun h => h | exact rfl)
    | exact mask_sub hm rfl | exact rfl | split

theorem keep_updateTrackers {s : State} (hm : 1050656 &&& M = 1050656) (h_s : Keep M s0 s) : Keep M s0 (updateTrackers s) := by
  unfold updateTrackers
  try dsimp only
  repeat' first
    | (with_reducible first
      | assumption | apply keep_countAlarm | apply Keep.foldl | apply Keep.foldlP | refine Keep.ofPair (by assumption) ?_
      | refine Keep.ofTriple (by assumption) ?_)
    | ((simp only [keep_mk]; apply Keep.upd) <;> try first | exact .inl (mask_bit hm rfl) | exact .inr rfl | exact fun h => h | exact rfl)
    | exact mask_sub hm rfl | exact rfl | split | intro _ _ _ | intro _ _

theorem keep_resetTrackers {metric : Option Nat} {s : State} (hm : 2048 &&& M = 2048) (h_s : Keep M s0 s) :
    Keep M s0 (resetTrackers metric s) := by
  unfold resetTrackers
  try dsimp only
  repeat' first
    | (with_reducible first
      | assumption | apply Keep.ite | refine Keep.ofPair (by assumption) ?_ | refine Keep.ofTriple (by assumption) ?_)
    | ((simp only [keep_mk]; apply Keep.upd) <;> try first | exact .inl (mask_bit hm rfl) | exact .inr rfl | exact fun h => h | exact rfl) | exact rfl
    | split | intro _ _ _ | intro _ _

theorem keep_activateTable {s : State} (hm : 2048 &&& M = 2048) (h_s : Keep M s0 s) : Keep M s0 (activateTable s) := by
  unfold activateTable
  repeat' first
    | (with_reducible first
      | assumption | refine Keep.ofPair (by assumption) ?_ | refine Keep.ofTriple (by assumption) ?_)
    | ((simp only [keep_mk]; apply Keep.upd) <;> try first | exact .inl (mask_bit hm rfl) | exact .inr rfl | exact fun h => h | exact rfl) | exact rfl
    | split

theorem keep_hangCount {s : State} (hm : 1310720 &&& M = 1310720) (h_s : Keep M s0 s) : Keep M s0 (hangCount s) := by
  unfold hangCount
  try dsimp only
  repeat' first
    | (with_reducible first
      | assumption | apply Keep.ite | apply keep_ownEntry | apply keep_setSht)
    | ((simp only [keep_mk]; apply Keep.upd) <;> try first | exact .inl (mask_bit hm rfl) | exact .inr rfl | exact fun h => h | exact rfl)
    | exact mask_sub hm rfl | exact rfl | split | intro _ _ _ | intro _ _

theorem keep_swapSnapshot {s : State} (hm : 134219816 &&& M = 134219816) (h_s : Keep M s0 s) : Keep M s0 (swapSnapshot s) := by
  unfold swapSnapshot
  try dsimp only
  repeat' first
    | (with_reducible first
      | assumption | apply keep_resetTrackers | apply keep_plnReset | apply Keep.foldl | apply Keep.foldlP | refine Keep.ofPair (by assumption) ?_
      | refine Keep.ofTriple (by assumption) ?_)
    | ((simp only [keep_mk]; apply Keep.upd) <;> try first | exact .inl (mask_bit hm rfl) | exact .inr rfl | exact fun h => h | exact rfl | exact fun h => PendDistinct.filter h _)
    | exact mask_sub hm rfl | exact rfl | split | intro _ _ _ | intro _ _

theorem keep_execSnapshotSwap {s : State} (hm : 672401468 &&& M = 672401468) (h_s : Keep M s0 s) : KeepO M s0 (execSnapshotSwap s) := by
  unfold execSnapshotSwap
  try dsimp only
  repeat' first
    | (with_reducible first
      | assumption | apply Keep.ite | apply KeepO.next | apply KeepO.ite | apply keep_fresh | apply keep_advanceCycles | apply keep_snapshot
      | apply keep_updateTrackers | apply keep_hangCount | apply keep_swapSnapshot)
    | exact mask_sub hm rfl | split

theorem keep_stepFour {s : State} (hm : 135268392 &&& M = 135268392) (h_s : Keep M s0 s) : Keep M s0 (stepFour s) := by
  unfold stepFour
  dsimp only
  refine Keep.ite h_s (keep_updateTrackers (mask_sub hm rfl) (keep_swapSnapshot (mask_sub hm rfl) (Keep.foldl _ h_s fun u p hu => Keep.foldl _ hu fun v e hv => ?_)))
  exact keep_missSample (mask_sub hm rfl) hv

theorem keep_feaStageTable {r : Request} {s : State} (hm : 16779264 &&& M = 16779264) (h_s : Keep M s0 s) :
    Keep M s0 (feaStageTable r s).2 := by
  unfold feaStageTable
  try dsimp only
  repeat' first
    | (with_reducible first
      | assumption | apply keep_command | apply keep_stageTable | refine keep_takePiece_done (by assumption) ?_ ?_ ?_
      | refine keep_takePiece_whole (by assumption) ?_ ?_ ?_ | refine Keep.ofPair (by assumption) ?_ | refine Keep.ofTriple (by assumption) ?_)
    | ((simp only [keep_mk]; apply Keep.upd) <;> try first | exact .inl (mask_bit hm rfl) | exact .inr rfl | exact fun h => h | exact rfl | exact fun h => PendDistinct.filter h _)
    | exact mask_sub hm rfl | exact rfl | split | intro _ _ _ | intro _ _

theorem keep_execFeaStageTable {r : Request} {s : State} (hm : 630197268 &&& M = 630197268) (h_s : Keep M s0 s) :
    KeepO M s0 (execFeaStageTable r s) := by
  unfold execFeaStageTable
  repeat' first
    | (with_reducible first
      | assumption | apply KeepO.next | apply KeepO.ite | apply keep_begin_ | apply keep_finish | apply keep_feaStageTable)
    | exact mask_sub hm rfl

theorem keep_feaActivateTable {r : Request} {s : State} (hm : 134217728 &&& M = 134217728) (h_s : Keep M s0 s) :
    Keep M s0 (feaActivateTable r s).2 := by
  unfold feaActivateTable
  repeat' first
    | (with_reducible first
      | assumption | apply Keep.ite | apply keep_command | apply keep_defer)
    | ((simp only [keep_mk]; apply Keep.upd) <;> try first | exact .inl (mask_bit hm rfl) | exact .inr rfl | exact fun h => h | exact rfl)
    | exact mask_sub hm rfl | exact rfl | split | intro _ _ _ | intro _ _

theorem keep_execFeaActivateTable {r : Request} {s : State} (hm : 747635732 &&& M = 747635732) (h_s : Keep M s0 s) :
    KeepO M s0 (execFeaActivateTable r s) := by
  unfold execFeaActivateTable
  repeat' first
    | (with_reducible first
      | assumption | apply KeepO.next | apply KeepO.ite | apply keep_begin_ | apply keep_finish | apply keep_feaActivateTable)
    | exact mask_sub hm rfl

theorem keep_feaGetTable {r : Request} {s : State} (hm : 0 &&& M = 0) (h_s : Keep M s0 s) : Keep M s0 (feaGetTable r s).2 := by
  unfold feaGetTable
  try dsimp only
  repeat' first
    | (with_reducible first
      | assumption | apply Keep.ite | apply keep_command)
    | ((simp only [keep_mk]; apply Keep.upd) <;> try first | exact .inl (mask_bit hm rfl) | exact .inr rfl | exact fun h => h | exact rfl | exact fun h => PendDistinct.filter h _)
    | exact mask_sub hm rfl | exact rfl | split | intro _ _ _ | intro _ _

theorem keep_execFeaGetTable {r : Request} {s : State} (hm : 613418004 &&& M = 613418004) (h_s : Keep M s0 s) :
    KeepO M s0 (execFeaGetTable r s) := by
  unfold execFeaGetTable
  repeat' first
    | (with_reducible first
      | assumption | apply KeepO.next | apply KeepO.ite | apply keep_begin_ | apply keep_finish | apply keep_feaGetTable)
    | exact mask_sub hm rfl

theorem keep_feaGetVector {r : Request} {s : State} (hm : 135268392 &&& M = 135268392) (h_s : Keep M s0 s) :
    Keep M s0 (feaGetVector r s).2 := by
  unfold feaGetVector
  try dsimp only
  repeat' first
    | (with_reducible first
      | assumption | apply Keep.ite | apply keep_command | apply keep_stepFour)
    | ((simp only [keep_mk]; apply Keep.upd) <;> try first | exact .inl (mask_bit hm rfl) | exact .inr rfl | exact fun h => h | exact rfl)
    | exact mask_sub hm rfl | exact rfl | split | intro _ _ _ | intro _ _

theorem keep_execFeaGetVector {r : Request} {s : State} (hm : 747637820 &&& M = 747637820) (h_s : Keep M s0 s) :
    KeepO M s0 (execFeaGetVector r s) := by
  unfold execFeaGetVector
  repeat' first
    | (with_reducible first
      | assumption | apply KeepO.next | apply KeepO.ite | apply keep_begin_ | apply keep_finish | apply keep_feaGetVector)
    | exact mask_sub hm rfl

theorem keep_plnRead {r : Request} {s : State} (hm : 0 &&& M = 0) (h_s : Keep M s0 s) : Keep M s0 (plnRead r s).2 := by
  unfold plnRead
  try dsimp only
  repeat' first
    | (with_reducible first
      | assumption | apply Keep.ite | apply keep_command)
    | ((simp only [keep_mk]; apply Keep.upd) <;> try first | exact .inl (mask_bit hm rfl) | exact .inr rfl | exact fun h => h | exact rfl)
    | exact mask_sub hm rfl | exact rfl | split | intro _ _ _ | intro _ _

theorem keep_execPlnRead {r : Request} {s : State} (hm : 613418004 &&& M = 613418004) (h_s : Keep M s0 s) : KeepO M s0 (execPlnRead r s) := by
  unfold execPlnRead
  repeat' first
    | (with_reducible first
      | assumption | apply KeepO.next | apply KeepO.ite | apply keep_begin_ | apply keep_finish | apply keep_plnRead)
    | exact mask_sub hm rfl

theorem keep_plnReset {r : Request} {s : State} (hm : 134217728 &&& M = 134217728) (h_s : Keep M s0 s) : Keep M s0 (plnReset r s).2 := by
  unfold plnReset
  try dsimp only
  repeat' first
    | (with_reducible first
      | assumption | apply Keep.ite | apply keep_command | apply keep_defer)
    | ((simp only [keep_mk]; apply Keep.upd) <;> try first | exact .inl (mask_bit hm rfl) | exact .inr rfl | exact fun h => h | exact rfl)
    | exact mask_sub hm rfl | exact rfl | split | intro _ _ _ | intro _ _

theorem keep_execPlnReset {r : Request} {s : State} (hm : 747635732 &&& M = 747635732) (h_s : Keep M s0 s) :
    KeepO M s0 (execPlnReset r s) := by
  unfold execPlnReset
  repeat' first
    | (with_reducible first
      | assumption | apply KeepO.next | apply KeepO.ite | apply keep_begin_ | apply keep_finish | apply keep_plnReset)
    | exact mask_sub hm rfl

theorem keep_plnGetAlarms {r : Request} {s : State} (hm : 0 &&& M = 0) (h_s : Keep M s0 s) : Keep M s0 (plnGetAlarms r s).2 := by
  unfold plnGetAlarms
  try dsimp only
  repeat' first
    | (with_reducible first
      | assumption | apply Keep.ite | apply keep_command)
    | ((simp only [keep_mk]; apply Keep.upd) <;> try first | exact .inl (mask_bit hm rfl) | exact .inr rfl | exact fun h => h | exact rfl)
    | exact mask_sub hm rfl | exact rfl | split | intro _ _ _ | intro _ _

theorem keep_execPlnGetAlarms {r : Request} {s : State} (hm : 613418004 &&& M = 613418004) (h_s : Keep M s0 s) :
    KeepO M s0 (execPlnGetAlarms r s) := by
  unfold execPlnGetAlarms
  repeat' first
    | (with_reducible first
      | assumption | apply KeepO.next | apply KeepO.ite | apply keep_begin_ | apply keep_finish | apply keep_plnGetAlarms)
    | exact mask_sub hm rfl

end Sys2Proof.Machine
end

