-- ==== Sys2Proof/Laws/KeepRecorder.lean ====
section
/-! SUPPORT. What the operations of Machine/Recorder.lean keep (`Keep`, Laws/Keep.lean): one lemma per operation. -/
namespace Sys2Proof.Machine

set_option linter.unusedSimpArgs false
set_option linter.unusedVariables false

variable {M : Nat} {s0 : State}

theorem keep_writeEvr {e : EvrEntry} {s : State} (hm : 1048576 &&& M = 1048576) (hf : evrFull s = false) (h : Keep M s0 s) : Keep M s0 (writeEvr e s) := by
  unfold writeEvr
  simp only [keep_mk]; apply Keep.upd h <;> first | exact .inl (mask_bit hm rfl) | exact .inr rfl | exact fun h => h | exact rfl | skip
  intro x
  have := x.order
  have hs := x.slots
  unfold evrFull at hf
  simp at hf
  refine ⟨x.queue, by dsimp only; omega, ?_, by dsimp only; omega⟩
  simp only [List.length_append, List.length_take, List.length_singleton]
  omega

theorem keep_tearWrite {stage : Nat} {e : EvrEntry} {s : State} (hm : 1048576 &&& M = 1048576) (h_s : Keep M s0 s) :
    Keep M s0 (tearWrite stage e s) := by
  unfold tearWrite
  try dsimp only
  repeat' first
    | (with_reducible first
      | assumption | apply Keep.ite)
    | ((simp only [keep_mk]; apply Keep.upd) <;> try first | exact .inl (mask_bit hm rfl) | exact .inr rfl | exact fun h => h | exact rfl | exact fun h => ⟨h.1, h.2, h.3, h.4⟩)
    | exact rfl | split

theorem keep_recorderReset {s : State} (hm : 1074790400 &&& M = 1074790400) (h_s : Keep M s0 s) : Keep M s0 (recorderReset s) := by
  unfold recorderReset
  split
  · simp only [keep_mk]; apply Keep.upd h_s <;> first | exact .inl (mask_bit hm rfl) | (with_reducible exact .inr rfl) | exact fun h => h | exact rfl | skip
    exact fun x => ⟨x.queue, x.order, by simpa using x.slots, x.room⟩
  · split
    · exact h_s
    · refine Keep.ite h_s (keep_tearWrite (mask_sub hm rfl) ?_)
      simp only [keep_mk]; apply Keep.upd h_s <;> first | exact .inl (mask_bit hm rfl) | (with_reducible exact .inr rfl) | exact fun h => h | exact rfl | skip

theorem keep_recoverTorn {s : State} (hm : 1048576 &&& M = 1048576) (h_s : Keep M s0 s) : Keep M s0 (recoverTorn s) := by
  unfold recoverTorn
  dsimp only
  split
  · exact h_s
  · rename_i hn
    simp only [keep_mk]; apply Keep.upd h_s <;> first | exact .inl (mask_bit hm rfl) | (with_reducible exact .inr rfl) | exact fun h => h | exact rfl | skip
    intro x
    have := x.order
    have hs := x.slots
    simp only [evrFull, Bool.or_eq_true, decide_eq_true_eq, not_or] at hn
    refine ⟨x.queue, by dsimp only; omega, ?_, by dsimp only; omega⟩
    simp only [List.length_append, List.length_take, List.length_singleton]
    omega

theorem keep_issueLog {key : Nat} {s : State} (hm : 538968064 &&& M = 538968064) (h_s : Keep M s0 s) : Keep M s0 (issueLog key s) := by
  unfold issueLog
  try dsimp only
  repeat' first
    | (with_reducible first
      | assumption | apply Keep.ite | apply keep_emit | refine Keep.ofPair (by assumption) ?_ | refine Keep.ofTriple (by assumption) ?_)
    | ((simp only [keep_mk]; apply Keep.upd) <;> try first | exact .inl (mask_bit hm rfl) | exact .inr rfl | exact fun h => h | exact rfl)
    | exact mask_sub hm rfl | exact rfl | split | intro _ _ _ | intro _ _

theorem keep_mirrorAppend {key : Nat} {b : Bytes} {s : State} (hm : 538968064 &&& M = 538968064) (h_s : Keep M s0 s) :
    Keep M s0 (mirrorAppend key b s) := by
  unfold mirrorAppend
  try dsimp only
  repeat' first
    | (with_reducible first
      | assumption | apply Keep.ite | apply keep_issueLog)
    | ((simp only [keep_mk]; apply Keep.upd) <;> try first | exact .inl (mask_bit hm rfl) | exact .inr rfl | exact fun h => h | exact rfl)
    | exact mask_sub hm rfl | exact rfl | split

theorem keep_mirrorOwn {s : State} (hm : 540016640 &&& M = 540016640) (h_s : Keep M s0 s) : Keep M s0 (mirrorOwn s) := by
  unfold mirrorOwn
  try dsimp only
  repeat' first
    | (with_reducible first
      | assumption | apply Keep.ite | apply keep_mirrorAppend | apply Keep.foldl | apply Keep.foldlP)
    | ((simp only [keep_mk]; apply Keep.upd) <;> try first | exact .inl (mask_bit hm rfl) | exact .inr rfl | exact fun h => h | exact rfl | exact fun h => PendDistinct.filter h _ | exact fun h => ⟨h.1, h.2, h.3, h.4⟩)
    | exact mask_sub hm rfl | exact rfl | split | intro _ _ _ | intro _ _

theorem keep_mirrorTake {die : Nat} {item : Bytes} {s : State} (hm : 538968064 &&& M = 538968064) (h_s : Keep M s0 s) :
    Keep M s0 (mirrorTake die item s) := by
  unfold mirrorTake
  repeat' first
    | (with_reducible first
      | assumption | apply Keep.ite | apply keep_mirrorAppend | apply Keep.foldl | apply Keep.foldlP)
    | ((simp only [keep_mk]; apply Keep.upd) <;> try first | exact .inl (mask_bit hm rfl) | exact .inr rfl | exact fun h => h | exact rfl | exact fun h => PendDistinct.filter h _)
    | exact mask_sub hm rfl | exact rfl | split | intro _ _ _ | intro _ _

theorem keep_mirrorReady {s : State} (hm : 538968064 &&& M = 538968064) (h_s : Keep M s0 s) : Keep M s0 (mirrorReady s) := by
  unfold mirrorReady
  try dsimp only
  repeat' first
    | (with_reducible first
      | assumption | apply Keep.ite | apply keep_mirrorTake | apply Keep.foldl | apply Keep.foldlP)
    | ((simp only [keep_mk]; apply Keep.upd) <;> try first | exact .inl (mask_bit hm rfl) | exact .inr rfl | exact fun h => h | exact rfl)
    | exact mask_sub hm rfl | exact rfl | split | intro _ _ _ | intro _ _

theorem keep_execRecorderWrite (hm : 540016660 &&& M = 540016660) {s : State} (h_s : Keep M s0 s) : KeepO M s0 (execRecorderWrite s) := by
  unfold execRecorderWrite
  have hf : Keep M s0 s.fresh := keep_fresh (mask_sub hm rfl) h_s
  dsimp only
  split
  · rename_i e q hq
    split
    · exact KeepO.next hf
    · have ht : Keep M s0 { s.fresh with evr := { s.fresh.evr with queue := q } } := by
        simp only [keep_mk]; apply Keep.upd hf <;> first | exact .inl (mask_bit hm rfl) | exact .inr rfl | exact fun h => h | exact rfl | skip
        refine fun x => ⟨?_, x.2, x.3, x.4⟩
        have := x.queue
        rw [hq] at this
        exact Nat.le_of_succ_le this
      have ha := keep_advance (k := 4) (mask_sub hm rfl) ht
      refine KeepO.next ?_
      split
      · ((simp only [keep_mk]; apply Keep.upd) <;> try first | exact .inl (mask_bit hm rfl) | (with_reducible exact .inr rfl) | exact fun h => h | (with_reducible exact rfl) | exact fun h => PendDistinct.filter h _ | exact fun h => ⟨h.1, h.2, h.3, h.4⟩) <;> assumption
      · rename_i hn
        exact keep_mirrorOwn (mask_sub hm rfl) (keep_writeEvr (mask_sub hm rfl) (by simpa using hn) ha)
  · exact KeepO.next hf

theorem keep_execRecorderClearDone (hm : 540016660 &&& M = 540016660) {s : State} (h_s : Keep M s0 s) : KeepO M s0 (execRecorderClearDone s) := by
  unfold execRecorderClearDone
  have hf : Keep M s0 s.fresh := keep_fresh (mask_sub hm rfl) h_s
  dsimp only
  split
  · exact KeepO.next hf
  · refine KeepO.next (keep_mirrorOwn (mask_sub hm rfl) (keep_writeEvr (mask_sub hm rfl) ?_ ?_))
    · simp [evrFull]
    · simp only [keep_mk]; apply Keep.upd (keep_advanceCycles (mask_sub hm rfl) hf) <;> first | exact .inl (mask_bit hm rfl) | (with_reducible exact .inr rfl) | exact fun h => h | exact rfl | skip
      exact fun x => ⟨x.queue, Nat.le_refl _, by simp, by simp⟩

theorem keep_execHourCounterExpiry {s : State} (hm : 537919508 &&& M = 537919508) (h_s : Keep M s0 s) :
    KeepO M s0 (execHourCounterExpiry s) := by
  unfold execHourCounterExpiry
  try dsimp only
  repeat' first
    | (with_reducible first
      | assumption | apply Keep.ite | apply KeepO.next | apply KeepO.ite | apply keep_fresh | apply keep_emit | apply keep_advance)
    | ((simp only [keep_mk]; apply Keep.upd) <;> try first | exact .inl (mask_bit hm rfl) | exact .inr rfl | exact fun h => h | exact rfl | exact fun h => ⟨h.1, h.2, h.3, h.4⟩)
    | exact mask_sub hm rfl | exact rfl | split

theorem keep_execPartialLogFlush {s : State} (hm : 540016640 &&& M = 540016640) (h_s : Keep M s0 s) : KeepO M s0 (execPartialLogFlush s) := by
  unfold execPartialLogFlush
  try dsimp only
  repeat' first
    | (with_reducible first
      | assumption | apply KeepO.next | apply KeepO.ite | apply keep_fresh | apply keep_issueLog | apply keep_mirrorOwn | apply Keep.foldl
      | apply Keep.foldlP)
    | exact mask_sub hm rfl | intro _ _ _ | intro _ _

theorem keep_execStorageCompletion {tag : Nat} {status : Nat} {s : State} (hm : 538968064 &&& M = 538968064) (h_s : Keep M s0 s) :
    KeepO M s0 (execStorageCompletion tag status s) := by
  unfold execStorageCompletion
  try dsimp only
  repeat' first
    | (with_reducible first
      | assumption | apply Keep.ite | apply KeepO.next | apply KeepO.ite | apply keep_fresh | apply keep_emit | refine Keep.ofPair (by assumption) ?_
      | refine Keep.ofTriple (by assumption) ?_)
    | ((simp only [keep_mk]; apply Keep.upd) <;> try first | exact .inl (mask_bit hm rfl) | exact .inr rfl | exact fun h => h | exact rfl)
    | exact mask_sub hm rfl | exact rfl | split

theorem keep_storeFault {stack : Nat} {address : Nat} {status : Nat} {s : State} (hm : 536921088 &&& M = 536921088) (h_s : Keep M s0 s) :
    Keep M s0 (storeFault stack address status s) := by
  unfold storeFault
  repeat' first | (with_reducible first | assumption | apply keep_raiseOwn) | exact mask_sub hm rfl

theorem keep_execStoreCompletion {stack : Nat} {address : Nat} {status : Nat} {s : State} (hm : 1610728960 &&& M = 1610728960) (h_s : Keep M s0 s) :
    KeepO M s0 (execStoreCompletion stack address status s) := by
  unfold execStoreCompletion
  try dsimp only
  repeat' first
    | (with_reducible first
      | assumption | apply Keep.ite | apply KeepO.next | apply KeepO.ite | apply keep_fresh | apply keep_drainIngress | apply keep_storeFault)
    | exact mask_sub hm rfl | split

theorem keep_execStorageReadyChange {ready : Bool} {capacity : Nat} {s : State} (hm : 540016640 &&& M = 540016640) (h_s : Keep M s0 s) :
    KeepO M s0 (execStorageReadyChange ready capacity s) := by
  unfold execStorageReadyChange
  try dsimp only
  repeat' first
    | (with_reducible first
      | assumption | apply Keep.ite | apply KeepO.next | apply KeepO.ite | apply keep_fresh | apply keep_mirrorOwn | apply keep_mirrorReady)
    | ((simp only [keep_mk]; apply Keep.upd) <;> try first | exact .inl (mask_bit hm rfl) | exact .inr rfl | exact fun h => h | exact rfl)
    | exact mask_sub hm rfl | exact rfl | split

theorem keep_execPatrolScrub {bank : Nat} {row : Nat} {fixed : Bool} {s : State} (hm : 539018240 &&& M = 539018240) (h_s : Keep M s0 s) :
    KeepO M s0 (execPatrolScrub bank row fixed s) := by
  unfold execPatrolScrub
  try dsimp only
  repeat' first
    | (with_reducible first
      | assumption | apply Keep.ite | apply KeepO.next | apply KeepO.ite | apply keep_fresh | apply keep_raiseOwn)
    | ((simp only [keep_mk]; apply Keep.upd) <;> try first | exact .inl (mask_bit hm rfl) | exact .inr rfl | exact fun h => h | exact rfl)
    | exact mask_sub hm rfl | exact rfl | split

theorem keep_bankLost {b : Nat} {s : State} (hm : 16977920 &&& M = 16977920) (h_s : Keep M s0 s) : Keep M s0 (bankLost b s) := by
  unfold bankLost
  try dsimp only
  repeat' first
    | (with_reducible first
      | assumption | apply Keep.ite)
    | ((simp only [keep_mk]; apply Keep.upd) <;> try first | exact .inl (mask_bit hm rfl) | exact .inr rfl | exact fun h => h | exact rfl) | exact rfl
    | split

theorem keep_execBankChangeComplete {bank : Nat} {s : State} (hm : 632493056 &&& M = 632493056) (h_s : Keep M s0 s) :
    KeepO M s0 (execBankChangeComplete bank s) := by
  unfold execBankChangeComplete
  try dsimp only
  repeat' first
    | (with_reducible first
      | assumption | apply Keep.ite | apply KeepO.next | apply KeepO.ite | apply keep_fresh | apply keep_ownEntry | apply keep_finish
      | apply keep_bankLost | refine Keep.ofPair (by assumption) ?_ | refine Keep.ofTriple (by assumption) ?_)
    | ((simp only [keep_mk]; apply Keep.upd) <;> try first | exact .inl (mask_bit hm rfl) | exact .inr rfl | exact fun h => h | exact rfl)
    | exact mask_sub hm rfl | exact rfl | split | intro _ _ _ | intro _ _

theorem keep_evrRead {r : Request} {s : State} (hm : 0 &&& M = 0) (h_s : Keep M s0 s) : Keep M s0 (evrRead r s).2 := by
  unfold evrRead
  try dsimp only
  repeat' first | (with_reducible first | assumption | apply Keep.ite | apply keep_command) | exact mask_sub hm rfl | split | intro _ _ _ | intro _ _

theorem keep_execEvrRead {r : Request} {s : State} (hm : 613418004 &&& M = 613418004) (h_s : Keep M s0 s) : KeepO M s0 (execEvrRead r s) := by
  unfold execEvrRead
  repeat' first
    | (with_reducible first
      | assumption | apply KeepO.next | apply KeepO.ite | apply keep_begin_ | apply keep_finish | apply keep_evrRead)
    | exact mask_sub hm rfl

theorem keep_evrGet {r : Request} {s : State} (hm : 0 &&& M = 0) (h_s : Keep M s0 s) : Keep M s0 (evrGet r s).2 := by
  unfold evrGet
  try dsimp only
  repeat' first
    | (with_reducible first
      | assumption | apply keep_command)
    | ((simp only [keep_mk]; apply Keep.upd) <;> try first | exact .inl (mask_bit hm rfl) | exact .inr rfl | exact fun h => h | exact rfl | exact fun h => ⟨h.1, h.2, h.3, h.4⟩)
    | exact mask_sub hm rfl | exact rfl | intro _ _ _ | intro _ _

theorem keep_execEvrGet {r : Request} {s : State} (hm : 613418004 &&& M = 613418004) (h_s : Keep M s0 s) : KeepO M s0 (execEvrGet r s) := by
  unfold execEvrGet
  repeat' first
    | (with_reducible first
      | assumption | apply KeepO.next | apply KeepO.ite | apply keep_begin_ | apply keep_finish | apply keep_evrGet)
    | exact mask_sub hm rfl

theorem keep_evrClear {r : Request} {s : State} (hm : 1048576 &&& M = 1048576) (h_s : Keep M s0 s) : Keep M s0 (evrClear r s).2 := by
  unfold evrClear
  repeat' first
    | (with_reducible first
      | assumption | apply Keep.ite | apply keep_command)
    | ((simp only [keep_mk]; apply Keep.upd) <;> try first | exact .inl (mask_bit hm rfl) | exact .inr rfl | exact fun h => h | exact rfl | exact fun h => ⟨h.1, h.2, h.3, h.4⟩)
    | exact mask_sub hm rfl | exact rfl | split | intro _ _ _ | intro _ _

theorem keep_execEvrClear {r : Request} {s : State} (hm : 613418004 &&& M = 613418004) (h_s : Keep M s0 s) :
    KeepO M s0 (execEvrClear r s) := by
  unfold execEvrClear
  repeat' first
    | (with_reducible first
      | assumption | apply KeepO.next | apply KeepO.ite | apply keep_begin_ | apply keep_finish | apply keep_evrClear)
    | exact mask_sub hm rfl

theorem keep_evrReadMirror {r : Request} {s : State} (hm : 0 &&& M = 0) (h_s : Keep M s0 s) : Keep M s0 (evrReadMirror r s).2 := by
  unfold evrReadMirror
  try dsimp only
  repeat' first
    | (with_reducible first
      | assumption | apply keep_command | refine Keep.ofPair (by assumption) ?_ | refine Keep.ofTriple (by assumption) ?_)
    | ((simp only [keep_mk]; apply Keep.upd) <;> try first | exact .inl (mask_bit hm rfl) | exact .inr rfl | exact fun h => h | exact rfl)
    | exact mask_sub hm rfl | exact rfl | split | intro _ _ _ | intro _ _

theorem keep_execEvrReadMirror {r : Request} {s : State} (hm : 613418004 &&& M = 613418004) (h_s : Keep M s0 s) :
    KeepO M s0 (execEvrReadMirror r s) := by
  unfold execEvrReadMirror
  repeat' first
    | (with_reducible first
      | assumption | apply KeepO.next | apply KeepO.ite | apply keep_begin_ | apply keep_finish | apply keep_evrReadMirror)
    | exact mask_sub hm rfl

theorem keep_evrGetMirror {r : Request} {s : State} (hm : 0 &&& M = 0) (h_s : Keep M s0 s) : Keep M s0 (evrGetMirror r s).2 := by
  unfold evrGetMirror
  try dsimp only
  repeat' first
    | (with_reducible first
      | assumption | apply Keep.ite | apply keep_command)
    | ((simp only [keep_mk]; apply Keep.upd) <;> try first | exact .inl (mask_bit hm rfl) | exact .inr rfl | exact fun h => h | exact rfl)
    | exact mask_sub hm rfl | exact rfl | split | intro _ _ _ | intro _ _

theorem keep_execEvrGetMirror {r : Request} {s : State} (hm : 613418004 &&& M = 613418004) (h_s : Keep M s0 s) :
    KeepO M s0 (execEvrGetMirror r s) := by
  unfold execEvrGetMirror
  repeat' first
    | (with_reducible first
      | assumption | apply KeepO.next | apply KeepO.ite | apply keep_begin_ | apply keep_finish | apply keep_evrGetMirror)
    | exact mask_sub hm rfl

theorem keep_evrClearMirror {r : Request} {s : State} (hm : 2097152 &&& M = 2097152) (h_s : Keep M s0 s) :
    Keep M s0 (evrClearMirror r s).2 := by
  unfold evrClearMirror
  try dsimp only
  repeat' first
    | (with_reducible first
      | assumption | apply Keep.ite | apply keep_command)
    | ((simp only [keep_mk]; apply Keep.upd) <;> try first | exact .inl (mask_bit hm rfl) | exact .inr rfl | exact fun h => h | exact rfl)
    | exact mask_sub hm rfl | exact rfl | split | intro _ _ _ | intro _ _

theorem keep_execEvrClearMirror {r : Request} {s : State} (hm : 615515156 &&& M = 615515156) (h_s : Keep M s0 s) :
    KeepO M s0 (execEvrClearMirror r s) := by
  unfold execEvrClearMirror
  repeat' first
    | (with_reducible first
      | assumption | apply KeepO.next | apply KeepO.ite | apply keep_begin_ | apply keep_finish | apply keep_evrClearMirror)
    | exact mask_sub hm rfl

theorem keep_srmGet {r : Request} {s : State} (hm : 0 &&& M = 0) (h_s : Keep M s0 s) : Keep M s0 (srmGet r s).2 := by
  unfold srmGet
  try dsimp only
  repeat' first
    | (with_reducible first
      | assumption | apply keep_command)
    | ((simp only [keep_mk]; apply Keep.upd) <;> try first | exact .inl (mask_bit hm rfl) | exact .inr rfl | exact fun h => h | exact rfl)
    | exact mask_sub hm rfl | exact rfl | intro _ _ _ | intro _ _

theorem keep_execSrmGet {r : Request} {s : State} (hm : 613418004 &&& M = 613418004) (h_s : Keep M s0 s) : KeepO M s0 (execSrmGet r s) := by
  unfold execSrmGet
  repeat' first
    | (with_reducible first
      | assumption | apply KeepO.next | apply KeepO.ite | apply keep_begin_ | apply keep_finish | apply keep_srmGet)
    | exact mask_sub hm rfl

theorem keep_srmSetBank {r : Request} {s : State} (hm : 2097152 &&& M = 2097152) (h_s : Keep M s0 s) : Keep M s0 (srmSetBank r s).2 := by
  unfold srmSetBank
  try dsimp only
  repeat' first
    | (with_reducible first
      | assumption | apply Keep.ite | apply keep_command | apply Keep.foldl | apply Keep.foldlP | refine Keep.ofPair (by assumption) ?_
      | refine Keep.ofTriple (by assumption) ?_)
    | ((simp only [keep_mk]; apply Keep.upd) <;> try first | exact .inl (mask_bit hm rfl) | exact .inr rfl | exact fun h => h | exact rfl)
    | exact mask_sub hm rfl | exact rfl | split | intro _ _ _ | intro _ _

theorem keep_execSrmSetBank {r : Request} {s : State} (hm : 615515156 &&& M = 615515156) (h_s : Keep M s0 s) :
    KeepO M s0 (execSrmSetBank r s) := by
  unfold execSrmSetBank
  repeat' first
    | (with_reducible first
      | assumption | apply KeepO.next | apply KeepO.ite | apply keep_begin_ | apply keep_finish | apply keep_srmSetBank
      | refine Keep.ofPair (by assumption) ?_ | refine Keep.ofTriple (by assumption) ?_)
    | ((simp only [keep_mk]; apply Keep.upd) <;> try first | exact .inl (mask_bit hm rfl) | exact .inr rfl | exact fun h => h | exact rfl)
    | exact mask_sub hm rfl | split

theorem keep_srmGetMap {r : Request} {s : State} (hm : 0 &&& M = 0) (h_s : Keep M s0 s) : Keep M s0 (srmGetMap r s).2 := by
  unfold srmGetMap
  repeat' first
    | (with_reducible first
      | assumption | apply keep_command)
    | ((simp only [keep_mk]; apply Keep.upd) <;> try first | exact .inl (mask_bit hm rfl) | exact .inr rfl | exact fun h => h | exact rfl)
    | exact mask_sub hm rfl | exact rfl | intro _ _ _ | intro _ _

theorem keep_execSrmGetMap {r : Request} {s : State} (hm : 613418004 &&& M = 613418004) (h_s : Keep M s0 s) :
    KeepO M s0 (execSrmGetMap r s) := by
  unfold execSrmGetMap
  repeat' first
    | (with_reducible first
      | assumption | apply KeepO.next | apply KeepO.ite | apply keep_begin_ | apply keep_finish | apply keep_srmGetMap)
    | exact mask_sub hm rfl

end Sys2Proof.Machine
end

