-- ==== Sys2Proof/Laws/KeepGlen.lean ====
section
/-! SUPPORT. What the operations of Machine/Glen.lean keep (`Keep`, Laws/Keep.lean): one lemma per operation. -/
namespace Sys2Proof.Machine

set_option linter.unusedSimpArgs false
set_option linter.unusedVariables false

variable {M : Nat} {s0 : State}

theorem keep_stagePage {img : Bytes} {s : State} (hm : 4096 &&& M = 4096) (h_s : Keep M s0 s) : Keep M s0 (stagePage img s).2 := by
  unfold stagePage
  try dsimp only
  repeat' first
    | (with_reducible first
      | assumption | apply Keep.ite)
    | ((simp only [keep_mk]; apply Keep.upd) <;> try first | exact .inl (mask_bit hm rfl) | exact .inr rfl | exact fun h => h | exact rfl | exact fun h => PendDistinct.filter h _)
    | exact rfl | split | intro _ _ _ | intro _ _

theorem keep_keepFinding {b : Bytes} {s : State} (hm : 4104 &&& M = 4104) (h_s : Keep M s0 s) : Keep M s0 (keepFinding b s) := by
  unfold keepFinding
  repeat' first
    | (with_reducible first
      | assumption | apply Keep.ite)
    | ((simp only [keep_mk]; apply Keep.upd) <;> try first | exact .inl (mask_bit hm rfl) | exact .inr rfl | exact fun h => h | exact rfl) | exact rfl
    | split

theorem keep_assignLane {l : Nat} {s : State} (hm : 4096 &&& M = 4096) (h_s : Keep M s0 s) : Keep M s0 (assignLane l s) := by
  unfold assignLane
  try dsimp only
  repeat' first
    | (with_reducible first
      | assumption | refine Keep.ofPair (by assumption) ?_ | refine Keep.ofTriple (by assumption) ?_)
    | ((simp only [keep_mk]; apply Keep.upd) <;> try first | exact .inl (mask_bit hm rfl) | exact .inr rfl | exact fun h => h | exact rfl) | exact rfl
    | split | intro _ _ _ | intro _ _

theorem keep_startStep4 {s : State} (hm : 1073745920 &&& M = 1073745920) (h_s : Keep M s0 s) : Keep M s0 (startStep4 s) := by
  unfold startStep4
  try dsimp only
  repeat' first
    | (with_reducible first
      | assumption | apply keep_assignLane | apply Keep.foldl | apply Keep.foldlP)
    | ((simp only [keep_mk]; apply Keep.upd) <;> try first | exact .inl (mask_bit hm rfl) | exact .inr rfl | exact fun h => h | exact rfl)
    | exact mask_sub hm rfl | exact rfl | intro _ _ _ | intro _ _

theorem keep_applyHead {e : Nat} {kind : Nat} {r : HeadResult} {s : State} (hm : 4104 &&& M = 4104) (h_s : Keep M s0 s) :
    Keep M s0 (applyHead e kind r s) := by
  unfold applyHead
  try dsimp only
  repeat' first
    | (with_reducible first
      | assumption | apply Keep.ite | apply keep_keepFinding)
    | ((simp only [keep_mk]; apply Keep.upd) <;> try first | exact .inl (mask_bit hm rfl) | exact .inr rfl | exact fun h => h | exact rfl)
    | exact mask_sub hm rfl | exact rfl | split | intro _ _ _ | intro _ _

theorem keep_execEntityEvaluated {lane : Nat} {s : State} (hm : 537923612 &&& M = 537923612) (h_s : Keep M s0 s) :
    KeepO M s0 (execEntityEvaluated lane s) := by
  unfold execEntityEvaluated
  try dsimp only
  repeat' first
    | (with_reducible first
      | assumption | apply Keep.ite | apply KeepO.next | apply KeepO.ite | apply keep_fresh | apply keep_advanceCycles | apply keep_assignLane
      | apply keep_applyHead | apply Keep.foldl | apply Keep.foldlP | refine Keep.ofPair (by assumption) ?_ | refine Keep.ofTriple (by assumption) ?_)
    | ((simp only [keep_mk]; apply Keep.upd) <;> try first | exact .inl (mask_bit hm rfl) | exact .inr rfl | exact fun h => h | exact rfl)
    | exact mask_sub hm rfl | exact rfl | split | intro _ _ _ | intro _ _

theorem keep_stopStep4 {s : State} (hm : 4104 &&& M = 4104) (h_s : Keep M s0 s) : Keep M s0 (stopStep4 s) := by
  unfold stopStep4
  try dsimp only
  repeat' first
    | (with_reducible first
      | assumption | apply Keep.ite)
    | ((simp only [keep_mk]; apply Keep.upd) <;> try first | exact .inl (mask_bit hm rfl) | exact .inr rfl | exact fun h => h | exact rfl) | exact rfl
    | split | intro _ _ _ | intro _ _

theorem keep_stragglerRule {s : State} (hm : 4104 &&& M = 4104) (h_s : Keep M s0 s) : Keep M s0 (stragglerRule s) := by
  unfold stragglerRule
  try dsimp only
  repeat' first
    | (with_reducible first
      | assumption | apply Keep.ite | apply keep_keepFinding | refine Keep.ofPair (by assumption) ?_ | refine Keep.ofTriple (by assumption) ?_)
    | ((simp only [keep_mk]; apply Keep.upd) <;> try first | exact .inl (mask_bit hm rfl) | exact .inr rfl | exact fun h => h | exact rfl)
    | exact mask_sub hm rfl | exact rfl | split | intro _ _ _ | intro _ _

theorem keep_clearHists {s : State} (hm : 4096 &&& M = 4096) (h_s : Keep M s0 s) : Keep M s0 (clearHists s) := by
  unfold clearHists
  repeat' first
    | (with_reducible first
      | assumption)
    | ((simp only [keep_mk]; apply Keep.upd) <;> try first | exact .inl (mask_bit hm rfl) | exact .inr rfl | exact fun h => h | exact rfl) | exact rfl

theorem keep_enterMode {m : Nat} {s : State} (hm : 4096 &&& M = 4096) (h_s : Keep M s0 s) : Keep M s0 (enterMode m s) := by
  unfold enterMode
  try dsimp only
  repeat' first
    | (with_reducible first
      | assumption | apply Keep.ite | apply keep_clearHists)
    | ((simp only [keep_mk]; apply Keep.upd) <;> try first | exact .inl (mask_bit hm rfl) | exact .inr rfl | exact fun h => h | exact rfl)
    | exact mask_sub hm rfl | exact rfl | split

theorem keep_execStartUpSpanElapsed {s : State} (hm : 536875008 &&& M = 536875008) (h_s : Keep M s0 s) :
    KeepO M s0 (execStartUpSpanElapsed s) := by
  unfold execStartUpSpanElapsed
  try dsimp only
  repeat' first
    | (with_reducible first
      | assumption | apply Keep.ite | apply KeepO.next | apply KeepO.ite | apply keep_fresh | apply keep_snapshot | apply keep_enterMode
      | refine Keep.ofPair (by assumption) ?_ | refine Keep.ofTriple (by assumption) ?_)
    | ((simp only [keep_mk]; apply Keep.upd) <;> try first | exact .inl (mask_bit hm rfl) | exact .inr rfl | exact fun h => h | exact rfl)
    | exact mask_sub hm rfl | exact rfl | split

theorem keep_execRecoverySpanElapsed {s : State} (hm : 536875008 &&& M = 536875008) (h_s : Keep M s0 s) :
    KeepO M s0 (execRecoverySpanElapsed s) := by
  unfold execRecoverySpanElapsed
  try dsimp only
  repeat' first
    | (with_reducible first
      | assumption | apply Keep.ite | apply KeepO.next | apply KeepO.ite | apply keep_fresh | apply keep_snapshot | apply keep_enterMode)
    | exact mask_sub hm rfl | split

theorem keep_modelEntry {old : Nat} {new : Nat} {engines : Nat} {s : State} (hm : 1048576 &&& M = 1048576) (h_s : Keep M s0 s) :
    Keep M s0 (modelEntry old new engines s) := by
  unfold modelEntry
  repeat' first | (with_reducible first | assumption | apply keep_ownEntry) | exact mask_sub hm rfl

theorem keep_activateModel {v : Nat} {s : State} (hm : 537973760 &&& M = 537973760) (h_s : Keep M s0 s) : Keep M s0 (activateModel v s) := by
  unfold activateModel
  try dsimp only
  repeat' first
    | (with_reducible first
      | assumption | apply Keep.ite | apply keep_ownEntry | apply keep_raiseOwn | apply keep_clearHists | apply keep_modelEntry
      | refine Keep.ofPair (by assumption) ?_ | refine Keep.ofTriple (by assumption) ?_)
    | ((simp only [keep_mk]; apply Keep.upd) <;> try first | exact .inl (mask_bit hm rfl) | exact .inr rfl | exact fun h => h | exact rfl)
    | exact mask_sub hm rfl | exact rfl | split | intro _ _ _ | intro _ _

theorem keep_deactivateModel {s : State} (hm : 1052672 &&& M = 1052672) (h_s : Keep M s0 s) : Keep M s0 (deactivateModel s) := by
  unfold deactivateModel
  try dsimp only
  repeat' first
    | (with_reducible first
      | assumption | apply Keep.ite | apply keep_clearHists | apply keep_modelEntry)
    | ((simp only [keep_mk]; apply Keep.upd) <;> try first | exact .inl (mask_bit hm rfl) | exact .inr rfl | exact fun h => h | exact rfl)
    | exact mask_sub hm rfl | exact rfl | split

theorem keep_hubModelReady {s : State} (hm : 4096 &&& M = 4096) (h_s : Keep M s0 s) : Keep M s0 (hubModelReady s) := by
  unfold hubModelReady
  repeat' first
    | (with_reducible first
      | assumption | apply Keep.ite)
    | ((simp only [keep_mk]; apply Keep.upd) <;> try first | exact .inl (mask_bit hm rfl) | exact .inr rfl | exact fun h => h | exact rfl) | exact rfl
    | split

theorem keep_setStraggler {r : Straggler} {s : State} (hm : 4096 &&& M = 4096) (h_s : Keep M s0 s) : Keep M s0 (setStraggler r s) := by
  unfold setStraggler
  repeat' first
    | (with_reducible first
      | assumption | apply Keep.ite)
    | ((simp only [keep_mk]; apply Keep.upd) <;> try first | exact .inl (mask_bit hm rfl) | exact .inr rfl | exact fun h => h | exact rfl) | exact rfl
    | split

theorem keep_setMode {mode : Option Nat} {start : Option Nat} {recov : Option Nat} {s : State} (hm : 4096 &&& M = 4096) (h_s : Keep M s0 s) :
    Keep M s0 (setMode mode start recov s) := by
  unfold setMode
  try dsimp only
  repeat' first
    | (with_reducible first
      | assumption | apply keep_enterMode | refine Keep.ofPair (by assumption) ?_ | refine Keep.ofTriple (by assumption) ?_)
    | ((simp only [keep_mk]; apply Keep.upd) <;> try first | exact .inl (mask_bit hm rfl) | exact .inr rfl | exact fun h => h | exact rfl)
    | exact mask_sub hm rfl | exact rfl | split

theorem keep_glenStagePage {r : Request} {s : State} (hm : 16781312 &&& M = 16781312) (h_s : Keep M s0 s) :
    Keep M s0 (glenStagePage r s).2 := by
  unfold glenStagePage
  try dsimp only
  repeat' first
    | (with_reducible first
      | assumption | apply Keep.ite | apply keep_command | apply keep_stagePage | refine keep_takePiece_done (by assumption) ?_ ?_ ?_
      | refine keep_takePiece_whole (by assumption) ?_ ?_ ?_ | refine Keep.ofPair (by assumption) ?_ | refine Keep.ofTriple (by assumption) ?_)
    | ((simp only [keep_mk]; apply Keep.upd) <;> try first | exact .inl (mask_bit hm rfl) | exact .inr rfl | exact fun h => h | exact rfl | exact fun h => PendDistinct.filter h _)
    | exact mask_sub hm rfl | exact rfl | split | intro _ _ _ | intro _ _

theorem keep_execGlenStagePage {r : Request} {s : State} (hm : 630199316 &&& M = 630199316) (h_s : Keep M s0 s) :
    KeepO M s0 (execGlenStagePage r s) := by
  unfold execGlenStagePage
  repeat' first
    | (with_reducible first
      | assumption | apply KeepO.next | apply KeepO.ite | apply keep_begin_ | apply keep_finish | apply keep_glenStagePage)
    | exact mask_sub hm rfl

theorem keep_deferModel {code : Nat} {f : Nat} {c : Change} {s : State} (hm : 134217728 &&& M = 134217728) (h_s : Keep M s0 s) :
    Keep M s0 (deferModel code f c s).2 := by
  unfold deferModel
  try dsimp only
  repeat' first
    | (with_reducible first
      | assumption | apply Keep.ite | apply keep_setPend | apply keep_dropPend)
    | ((simp only [keep_mk]; apply Keep.upd) <;> try first | exact .inl (mask_bit hm rfl) | exact .inr rfl | exact fun h => h | exact rfl | exact fun h => PendDistinct.filter h _)
    | exact mask_sub hm rfl | exact rfl | split | intro _ _ _ | intro _ _

theorem keep_glenActivate {r : Request} {s : State} (hm : 134217728 &&& M = 134217728) (h_s : Keep M s0 s) :
    Keep M s0 (glenActivate r s).2 := by
  unfold glenActivate
  try dsimp only
  repeat' first
    | (with_reducible first
      | assumption | apply Keep.ite | apply keep_command | apply keep_deferModel)
    | ((simp only [keep_mk]; apply Keep.upd) <;> try first | exact .inl (mask_bit hm rfl) | exact .inr rfl | exact fun h => h | exact rfl)
    | exact mask_sub hm rfl | exact rfl | split | intro _ _ _ | intro _ _

theorem keep_execGlenActivate {r : Request} {s : State} (hm : 747635732 &&& M = 747635732) (h_s : Keep M s0 s) :
    KeepO M s0 (execGlenActivate r s) := by
  unfold execGlenActivate
  repeat' first
    | (with_reducible first
      | assumption | apply KeepO.next | apply KeepO.ite | apply keep_begin_ | apply keep_finish | apply keep_glenActivate)
    | exact mask_sub hm rfl

theorem keep_glenDeactivate {r : Request} {s : State} (hm : 134217728 &&& M = 134217728) (h_s : Keep M s0 s) :
    Keep M s0 (glenDeactivate r s).2 := by
  unfold glenDeactivate
  repeat' first
    | (with_reducible first
      | assumption | apply Keep.ite | apply keep_command | apply keep_deferModel)
    | ((simp only [keep_mk]; apply Keep.upd) <;> try first | exact .inl (mask_bit hm rfl) | exact .inr rfl | exact fun h => h | exact rfl)
    | exact mask_sub hm rfl | exact rfl | split | intro _ _ _ | intro _ _

theorem keep_execGlenDeactivate {r : Request} {s : State} (hm : 747635732 &&& M = 747635732) (h_s : Keep M s0 s) :
    KeepO M s0 (execGlenDeactivate r s) := by
  unfold execGlenDeactivate
  repeat' first
    | (with_reducible first
      | assumption | apply KeepO.next | apply KeepO.ite | apply keep_begin_ | apply keep_finish | apply keep_glenDeactivate)
    | exact mask_sub hm rfl

theorem keep_glenGet {r : Request} {s : State} (hm : 0 &&& M = 0) (h_s : Keep M s0 s) : Keep M s0 (glenGet r s).2 := by
  unfold glenGet
  try dsimp only
  repeat' first
    | (with_reducible first
      | assumption | apply keep_command | apply keep_glenActivate | refine Keep.ofPair (by assumption) ?_ | refine Keep.ofTriple (by assumption) ?_)
    | ((simp only [keep_mk]; apply Keep.upd) <;> try first | exact .inl (mask_bit hm rfl) | exact .inr rfl | exact fun h => h | exact rfl | exact fun h => PendDistinct.filter h _)
    | exact mask_sub hm rfl | exact rfl | split | intro _ _ _ | intro _ _

theorem keep_execGlenGet {r : Request} {s : State} (hm : 613418004 &&& M = 613418004) (h_s : Keep M s0 s) : KeepO M s0 (execGlenGet r s) := by
  unfold execGlenGet
  repeat' first
    | (with_reducible first
      | assumption | apply KeepO.next | apply KeepO.ite | apply keep_begin_ | apply keep_finish | apply keep_glenGet)
    | exact mask_sub hm rfl

theorem keep_glenSetMode {r : Request} {s : State} (hm : 134217728 &&& M = 134217728) (h_s : Keep M s0 s) : Keep M s0 (glenSetMode r s).2 := by
  unfold glenSetMode
  try dsimp only
  repeat' first
    | (with_reducible first
      | assumption | apply Keep.ite | apply keep_command | apply keep_defer)
    | ((simp only [keep_mk]; apply Keep.upd) <;> try first | exact .inl (mask_bit hm rfl) | exact .inr rfl | exact fun h => h | exact rfl)
    | exact mask_sub hm rfl | exact rfl | split | intro _ _ _ | intro _ _

theorem keep_execGlenSetMode {r : Request} {s : State} (hm : 747635732 &&& M = 747635732) (h_s : Keep M s0 s) :
    KeepO M s0 (execGlenSetMode r s) := by
  unfold execGlenSetMode
  repeat' first
    | (with_reducible first
      | assumption | apply KeepO.next | apply KeepO.ite | apply keep_begin_ | apply keep_finish | apply keep_glenSetMode)
    | exact mask_sub hm rfl

theorem keep_glenSetStraggler {r : Request} {s : State} (hm : 134217728 &&& M = 134217728) (h_s : Keep M s0 s) :
    Keep M s0 (glenSetStraggler r s).2 := by
  unfold glenSetStraggler
  try dsimp only
  repeat' first
    | (with_reducible first
      | assumption | apply Keep.ite | apply keep_command | apply keep_defer)
    | ((simp only [keep_mk]; apply Keep.upd) <;> try first | exact .inl (mask_bit hm rfl) | exact .inr rfl | exact fun h => h | exact rfl)
    | exact mask_sub hm rfl | exact rfl | split | intro _ _ _ | intro _ _

theorem keep_execGlenSetStraggler {r : Request} {s : State} (hm : 747635732 &&& M = 747635732) (h_s : Keep M s0 s) :
    KeepO M s0 (execGlenSetStraggler r s) := by
  unfold execGlenSetStraggler
  repeat' first
    | (with_reducible first
      | assumption | apply KeepO.next | apply KeepO.ite | apply keep_begin_ | apply keep_finish | apply keep_glenSetStraggler)
    | exact mask_sub hm rfl

theorem keep_glenEval {r : Request} {s : State} (hm : 135268392 &&& M = 135268392) (h_s : Keep M s0 s) : Keep M s0 (glenEval r s).2 := by
  unfold glenEval
  try dsimp only
  repeat' first
    | (with_reducible first
      | assumption | apply Keep.ite | apply keep_command | apply keep_stepFour | refine Keep.ofPair (by assumption) ?_
      | refine Keep.ofTriple (by assumption) ?_)
    | ((simp only [keep_mk]; apply Keep.upd) <;> try first | exact .inl (mask_bit hm rfl) | exact .inr rfl | exact fun h => h | exact rfl)
    | exact mask_sub hm rfl | exact rfl | split | intro _ _ _ | intro _ _

theorem keep_execGlenEval {r : Request} {s : State} (hm : 747637820 &&& M = 747637820) (h_s : Keep M s0 s) :
    KeepO M s0 (execGlenEval r s) := by
  unfold execGlenEval
  repeat' first
    | (with_reducible first
      | assumption | apply KeepO.next | apply KeepO.ite | apply keep_begin_ | apply keep_finish | apply keep_glenEval)
    | exact mask_sub hm rfl

theorem keep_glenTestLink {r : Request} {s : State} (hm : 0 &&& M = 0) (h_s : Keep M s0 s) : Keep M s0 (glenTestLink r s).2 := by
  unfold glenTestLink
  try dsimp only
  repeat' first
    | (with_reducible first
      | assumption | apply Keep.ite | apply keep_command)
    | ((simp only [keep_mk]; apply Keep.upd) <;> try first | exact .inl (mask_bit hm rfl) | exact .inr rfl | exact fun h => h | exact rfl)
    | exact mask_sub hm rfl | exact rfl | split | intro _ _ _ | intro _ _

theorem keep_execGlenTestLink {r : Request} {s : State} (hm : 613418004 &&& M = 613418004) (h_s : Keep M s0 s) :
    KeepO M s0 (execGlenTestLink r s) := by
  unfold execGlenTestLink
  repeat' first
    | (with_reducible first
      | assumption | apply KeepO.next | apply KeepO.ite | apply keep_begin_ | apply keep_finish | apply keep_glenTestLink)
    | exact mask_sub hm rfl

theorem keep_glenGetFindings {r : Request} {s : State} (hm : 0 &&& M = 0) (h_s : Keep M s0 s) : Keep M s0 (glenGetFindings r s).2 := by
  unfold glenGetFindings
  try dsimp only
  repeat' first
    | (with_reducible first
      | assumption | apply keep_command)
    | ((simp only [keep_mk]; apply Keep.upd) <;> try first | exact .inl (mask_bit hm rfl) | exact .inr rfl | exact fun h => h | exact rfl)
    | exact mask_sub hm rfl | exact rfl | intro _ _ _ | intro _ _

theorem keep_execGlenGetFindings {r : Request} {s : State} (hm : 613418004 &&& M = 613418004) (h_s : Keep M s0 s) :
    KeepO M s0 (execGlenGetFindings r s) := by
  unfold execGlenGetFindings
  repeat' first
    | (with_reducible first
      | assumption | apply KeepO.next | apply KeepO.ite | apply keep_begin_ | apply keep_finish | apply keep_glenGetFindings)
    | exact mask_sub hm rfl

theorem keep_glenGetHistory {r : Request} {s : State} (hm : 0 &&& M = 0) (h_s : Keep M s0 s) : Keep M s0 (glenGetHistory r s).2 := by
  unfold glenGetHistory
  try dsimp only
  repeat' first
    | (with_reducible first
      | assumption | apply Keep.ite | apply keep_command)
    | ((simp only [keep_mk]; apply Keep.upd) <;> try first | exact .inl (mask_bit hm rfl) | exact .inr rfl | exact fun h => h | exact rfl)
    | exact mask_sub hm rfl | exact rfl | split | intro _ _ _ | intro _ _

theorem keep_execGlenGetHistory {r : Request} {s : State} (hm : 613418004 &&& M = 613418004) (h_s : Keep M s0 s) :
    KeepO M s0 (execGlenGetHistory r s) := by
  unfold execGlenGetHistory
  repeat' first
    | (with_reducible first
      | assumption | apply KeepO.next | apply KeepO.ite | apply keep_begin_ | apply keep_finish | apply keep_glenGetHistory)
    | exact mask_sub hm rfl

end Sys2Proof.Machine
end

