-- ==== Sys2Proof/Laws/KeepTimeBase.lean ====
section
/-! SUPPORT. What the operations of Machine/TimeBase.lean keep (`Keep`, Laws/Keep.lean): one lemma per operation. -/
namespace Sys2Proof.Machine

set_option linter.unusedSimpArgs false
set_option linter.unusedVariables false

variable {M : Nat} {s0 : State}

theorem keep_changeTime {new : Int} {s : State} (hm : 1612002832 &&& M = 1612002832) (h_s : Keep M s0 s) : Keep M s0 (changeTime new s) := by
  unfold changeTime
  try dsimp only
  repeat' first
    | (with_reducible first
      | assumption | apply keep_ownEntry | apply keep_syncAll | apply keep_traceBeforeStep | apply keep_shutterStep)
    | ((simp only [keep_mk]; apply Keep.upd) <;> try first | exact .inl (mask_bit hm rfl) | exact .inr rfl | exact fun h => h | exact rfl)
    | exact mask_sub hm rfl | exact rfl

theorem keep_setLock {l : Nat} {s : State} (hm : 1048592 &&& M = 1048592) (h_s : Keep M s0 s) : Keep M s0 (setLock l s) := by
  unfold setLock
  try dsimp only
  repeat' first
    | (with_reducible first
      | assumption | apply Keep.ite | apply keep_ownEntry)
    | ((simp only [keep_mk]; apply Keep.upd) <;> try first | exact .inl (mask_bit hm rfl) | exact .inr rfl | exact fun h => h | exact rfl)
    | exact mask_sub hm rfl | exact rfl | split

theorem keep_setParent {d : Nat} {s : State} (hm : 1048592 &&& M = 1048592) (h_s : Keep M s0 s) : Keep M s0 (setParent d s) := by
  unfold setParent
  try dsimp only
  repeat' first
    | (with_reducible first
      | assumption | apply Keep.ite | apply keep_ownEntry)
    | ((simp only [keep_mk]; apply Keep.upd) <;> try first | exact .inl (mask_bit hm rfl) | exact .inr rfl | exact fun h => h | exact rfl)
    | exact mask_sub hm rfl | exact rfl | split

theorem keep_chooseParent {s : State} (hm : 1048592 &&& M = 1048592) (h_s : Keep M s0 s) : Keep M s0 (chooseParent s) := by
  unfold chooseParent
  try dsimp only
  repeat' first
    | (with_reducible first
      | assumption | apply Keep.ite | apply keep_setParent | refine Keep.ofPair (by assumption) ?_ | refine Keep.ofTriple (by assumption) ?_)
    | ((simp only [keep_mk]; apply Keep.upd) <;> try first | exact .inl (mask_bit hm rfl) | exact .inr rfl | exact fun h => h | exact rfl)
    | exact mask_sub hm rfl | split | intro _ _ _ | intro _ _

theorem keep_invalidExchange {d : Nat} {s : State} (hm : 1024 &&& M = 1024) (h_s : Keep M s0 s) : Keep M s0 (invalidExchange d s) := by
  unfold invalidExchange
  repeat' first
    | (with_reducible first
      | assumption | apply keep_setExch)
    | ((simp only [keep_mk]; apply Keep.upd) <;> try first | exact .inl (mask_bit hm rfl) | exact .inr rfl | exact fun h => h | exact rfl)
    | exact mask_sub hm rfl | exact rfl | intro _ _ _ | intro _ _

theorem keep_completeExchange {d : Nat} {t1 : Nat} {t2 : Nat} {t3 : Nat} {t4 : Nat} {s : State} (hm : 1040 &&& M = 1040) (h_s : Keep M s0 s) :
    Keep M s0 (completeExchange d t1 t2 t3 t4 s) := by
  unfold completeExchange
  try dsimp only
  repeat' first
    | (with_reducible first
      | assumption | apply Keep.ite | apply keep_setExch | apply keep_invalidExchange)
    | ((simp only [keep_mk]; apply Keep.upd) <;> try first | exact .inl (mask_bit hm rfl) | exact .inr rfl | exact fun h => h | exact rfl)
    | exact mask_sub hm rfl | exact rfl | split | intro _ _ _ | intro _ _

theorem keep_execExchangeInterval {after : Nat} {door : Nat} {s : State} (hm : 537920532 &&& M = 537920532) (h_s : Keep M s0 s) :
    KeepO M s0 (execExchangeInterval after door s) := by
  unfold execExchangeInterval
  try dsimp only
  repeat' first
    | (with_reducible first
      | assumption | apply Keep.ite | apply KeepO.next | apply KeepO.ite | apply keep_begin_ | apply keep_setExch | apply keep_sendMsg
      | apply keep_chooseParent | apply keep_invalidExchange | refine Keep.ofPair (by assumption) ?_ | refine Keep.ofTriple (by assumption) ?_)
    | ((simp only [keep_mk]; apply Keep.upd) <;> try first | exact .inl (mask_bit hm rfl) | exact .inr rfl | exact fun h => h | exact rfl)
    | exact mask_sub hm rfl | exact rfl | split | intro _ _ _ | intro _ _

theorem keep_adoptFlit {body : Bytes} {s : State} (hm : 16 &&& M = 16) (h_s : Keep M s0 s) : Keep M s0 (adoptFlit body s) := by
  unfold adoptFlit
  try dsimp only
  repeat' first
    | (with_reducible first
      | assumption | apply Keep.ite)
    | ((simp only [keep_mk]; apply Keep.upd) <;> try first | exact .inl (mask_bit hm rfl) | exact .inr rfl | exact fun h => h | exact rfl) | exact rfl
    | split

theorem keep_previousExchange {door : Nat} {k : Nat} {body : Bytes} {s : State} (hm : 1040 &&& M = 1040) (h_s : Keep M s0 s) :
    Keep M s0 (previousExchange door k body s) := by
  unfold previousExchange
  repeat' first
    | (with_reducible first
      | assumption | apply Keep.ite | apply keep_invalidExchange | apply keep_completeExchange | refine Keep.ofPair (by assumption) ?_
      | refine Keep.ofTriple (by assumption) ?_)
    | ((simp only [keep_mk]; apply Keep.upd) <;> try first | exact .inl (mask_bit hm rfl) | exact .inr rfl | exact fun h => h | exact rfl)
    | exact mask_sub hm rfl | split

theorem keep_timeFlit {door : Nat} {phase : Nat} {bad : Bool} {body : Bytes} {s : State} (hm : 537920528 &&& M = 537920528) (h_s : Keep M s0 s) :
    Keep M s0 (timeFlit door phase bad body s) := by
  unfold timeFlit
  try dsimp only
  repeat' first
    | (with_reducible first
      | assumption | apply Keep.ite | apply keep_setExch | apply keep_sendMsg | apply keep_chooseParent | apply keep_invalidExchange
      | apply keep_adoptFlit | apply keep_previousExchange)
    | ((simp only [keep_mk]; apply Keep.upd) <;> try first | exact .inl (mask_bit hm rfl) | exact .inr rfl | exact fun h => h | exact rfl)
    | exact mask_sub hm rfl | exact rfl | split | intro _ _ _ | intro _ _

theorem keep_execTimeFlitArrival {at_ : Instant} {door : Nat} {bad : Bool} {body : Bytes} {s : State} (hm : 537920532 &&& M = 537920532) (h_s : Keep M s0 s) :
    KeepO M s0 (execTimeFlitArrival at_ door bad body s) := by
  unfold execTimeFlitArrival
  repeat' first
    | (with_reducible first
      | assumption | apply KeepO.next | apply KeepO.ite | apply keep_begin_ | apply keep_timeFlit)
    | exact mask_sub hm rfl

theorem keep_servoStep {m : Int} {s : State} (hm : 1612002832 &&& M = 1612002832) (h_s : Keep M s0 s) : Keep M s0 (servoStep m s) := by
  unfold servoStep
  try dsimp only
  repeat' first
    | (with_reducible first
      | assumption | apply Keep.ite | apply keep_changeTime)
    | ((simp only [keep_mk]; apply Keep.upd) <;> try first | exact .inl (mask_bit hm rfl) | exact .inr rfl | exact fun h => h | exact rfl)
    | exact mask_sub hm rfl | exact rfl | split

theorem keep_lockStep {m : Int} {s : State} (hm : 1048592 &&& M = 1048592) (h_s : Keep M s0 s) : Keep M s0 (lockStep m s) := by
  unfold lockStep
  try dsimp only
  repeat' first
    | (with_reducible first
      | assumption | apply Keep.ite | apply keep_setLock)
    | ((simp only [keep_mk]; apply Keep.upd) <;> try first | exact .inl (mask_bit hm rfl) | exact .inr rfl | exact fun h => h | exact rfl)
    | exact mask_sub hm rfl | exact rfl | split

theorem keep_applySettings {s : State} (hm : 1049616 &&& M = 1049616) (h_s : Keep M s0 s) : Keep M s0 (applySettings s) := by
  unfold applySettings
  try dsimp only
  repeat' first
    | (with_reducible first
      | assumption | apply Keep.ite | apply keep_setExch | apply keep_setLock | apply Keep.foldl | apply Keep.foldlP
      | refine Keep.ofPair (by assumption) ?_ | refine Keep.ofTriple (by assumption) ?_)
    | ((simp only [keep_mk]; apply Keep.upd) <;> try first | exact .inl (mask_bit hm rfl) | exact .inr rfl | exact fun h => h | exact rfl)
    | exact mask_sub hm rfl | exact rfl | split | intro _ _ _ | intro _ _

theorem keep_execFilterPeriodEnd {s : State} (hm : 1612002832 &&& M = 1612002832) (h_s : Keep M s0 s) :
    KeepO M s0 (execFilterPeriodEnd s) := by
  unfold execFilterPeriodEnd
  try dsimp only
  repeat' first
    | (with_reducible first
      | assumption | apply Keep.ite | apply KeepO.next | apply KeepO.ite | apply keep_fresh | apply keep_servoStep | apply keep_lockStep
      | apply keep_applySettings | refine Keep.ofPair (by assumption) ?_ | refine Keep.ofTriple (by assumption) ?_)
    | ((simp only [keep_mk]; apply Keep.upd) <;> try first | exact .inl (mask_bit hm rfl) | exact .inr rfl | exact fun h => h | exact rfl)
    | exact mask_sub hm rfl | exact rfl | split

theorem keep_execHoldoverEntry {s : State} (hm : 537919504 &&& M = 537919504) (h_s : Keep M s0 s) : KeepO M s0 (execHoldoverEntry s) := by
  unfold execHoldoverEntry
  try dsimp only
  repeat' first
    | (with_reducible first
      | assumption | apply Keep.ite | apply KeepO.next | apply KeepO.ite | apply keep_fresh | apply keep_setLock)
    | exact mask_sub hm rfl | split

theorem keep_execHoldoverLimitExceeded {s : State} (hm : 537919508 &&& M = 537919508) (h_s : Keep M s0 s) :
    KeepO M s0 (execHoldoverLimitExceeded s) := by
  unfold execHoldoverLimitExceeded
  try dsimp only
  repeat' first
    | (with_reducible first
      | assumption | apply Keep.ite | apply KeepO.next | apply KeepO.ite | apply keep_fresh | apply keep_advanceTo | apply keep_setLock)
    | exact mask_sub hm rfl | split

theorem keep_execSecondaryOwnSource {s : State} (hm : 537919508 &&& M = 537919508) (h_s : Keep M s0 s) :
    KeepO M s0 (execSecondaryOwnSource s) := by
  unfold execSecondaryOwnSource
  try dsimp only
  repeat' first
    | (with_reducible first
      | assumption | apply Keep.ite | apply KeepO.next | apply KeepO.ite | apply keep_fresh | apply keep_advanceTo | apply keep_setLock)
    | ((simp only [keep_mk]; apply Keep.upd) <;> try first | exact .inl (mask_bit hm rfl) | exact .inr rfl | exact fun h => h | exact rfl)
    | exact mask_sub hm rfl | exact rfl | split

theorem keep_setPtp {f : Ptp → Ptp} {s : State} (hm : 16 &&& M = 16) (h_s : Keep M s0 s) : Keep M s0 (setPtp f s) := by
  unfold setPtp
  repeat' first
    | (with_reducible first
      | assumption)
    | ((simp only [keep_mk]; apply Keep.upd) <;> try first | exact .inl (mask_bit hm rfl) | exact .inr rfl | exact fun h => h | exact rfl) | exact rfl

theorem keep_ptpOffset {s : State} (hm : 16 &&& M = 16) (h_s : Keep M s0 s) : Keep M s0 (ptpOffset s) := by
  unfold ptpOffset
  try dsimp only
  repeat' first
    | (with_reducible first
      | assumption | apply Keep.ite | apply keep_setPtp | refine Keep.ofPair (by assumption) ?_ | refine Keep.ofTriple (by assumption) ?_)
    | ((simp only [keep_mk]; apply Keep.upd) <;> try first | exact .inl (mask_bit hm rfl) | exact .inr rfl | exact fun h => h | exact rfl)
    | exact mask_sub hm rfl | exact rfl | split | intro _ _ _ | intro _ _

theorem keep_chooseMaster {s : State} (hm : 1048592 &&& M = 1048592) (h_s : Keep M s0 s) : Keep M s0 (chooseMaster s) := by
  unfold chooseMaster
  try dsimp only
  repeat' first
    | (with_reducible first
      | assumption | apply Keep.ite | apply keep_setLock | apply keep_setPtp | refine Keep.ofPair (by assumption) ?_
      | refine Keep.ofTriple (by assumption) ?_)
    | ((simp only [keep_mk]; apply Keep.upd) <;> try first | exact .inl (mask_bit hm rfl) | exact .inr rfl | exact fun h => h | exact rfl)
    | exact mask_sub hm rfl | exact rfl | split | intro _ _ _ | intro _ _

theorem keep_ptpAnnounce {m : PtpMsg} {s : State} (hm : 1048592 &&& M = 1048592) (h_s : Keep M s0 s) : Keep M s0 (ptpAnnounce m s) := by
  unfold ptpAnnounce
  try dsimp only
  repeat' first
    | (with_reducible first
      | assumption | apply Keep.ite | apply keep_setPtp | apply keep_chooseMaster)
    | ((simp only [keep_mk]; apply Keep.upd) <;> try first | exact .inl (mask_bit hm rfl) | exact .inr rfl | exact fun h => h | exact rfl)
    | exact mask_sub hm rfl | exact rfl | split | intro _ _ _ | intro _ _

theorem keep_execPtpMessage {after : Nat} {msg : PtpMsg} {s : State} (hm : 537919508 &&& M = 537919508) (h_s : Keep M s0 s) :
    KeepO M s0 (execPtpMessage after msg s) := by
  unfold execPtpMessage
  try dsimp only
  repeat' first
    | (with_reducible first
      | assumption | apply Keep.ite | apply KeepO.next | apply KeepO.ite | apply keep_begin_ | apply keep_setPtp | apply keep_ptpOffset
      | apply keep_chooseMaster | apply keep_ptpAnnounce | refine Keep.ofPair (by assumption) ?_ | refine Keep.ofTriple (by assumption) ?_)
    | ((simp only [keep_mk]; apply Keep.upd) <;> try first | exact .inl (mask_bit hm rfl) | exact .inr rfl | exact fun h => h | exact rfl)
    | exact mask_sub hm rfl | exact rfl | split | intro _ _ _ | intro _ _

theorem keep_execDelayReq {after : Nat} {s : State} (hm : 537919508 &&& M = 537919508) (h_s : Keep M s0 s) :
    KeepO M s0 (execDelayReq after s) := by
  unfold execDelayReq
  try dsimp only
  repeat' first
    | (with_reducible first
      | assumption | apply Keep.ite | apply KeepO.next | apply KeepO.ite | apply keep_emit | apply keep_begin_ | apply keep_setPtp)
    | ((simp only [keep_mk]; apply Keep.upd) <;> try first | exact .inl (mask_bit hm rfl) | exact .inr rfl | exact fun h => h | exact rfl)
    | exact mask_sub hm rfl | exact rfl | split | intro _ _ _ | intro _ _

theorem keep_execPtpSyncLoss {s : State} (hm : 537919504 &&& M = 537919504) (h_s : Keep M s0 s) : KeepO M s0 (execPtpSyncLoss s) := by
  unfold execPtpSyncLoss
  try dsimp only
  repeat' first
    | (with_reducible first
      | assumption | apply Keep.ite | apply KeepO.next | apply KeepO.ite | apply keep_fresh | apply keep_setLock)
    | exact mask_sub hm rfl | split

theorem keep_execPpsEdge {at_ : Instant} {s : State} (hm : 537919508 &&& M = 537919508) (h_s : Keep M s0 s) :
    KeepO M s0 (execPpsEdge at_ s) := by
  unfold execPpsEdge
  try dsimp only
  repeat' first
    | (with_reducible first
      | assumption | apply Keep.ite | apply KeepO.next | apply KeepO.ite | apply keep_begin_ | apply keep_setLock
      | refine Keep.ofPair (by assumption) ?_ | refine Keep.ofTriple (by assumption) ?_)
    | ((simp only [keep_mk]; apply Keep.upd) <;> try first | exact .inl (mask_bit hm rfl) | exact .inr rfl | exact fun h => h | exact rfl)
    | exact mask_sub hm rfl | exact rfl | split

theorem keep_timeGet {r : Request} {s : State} (hm : 0 &&& M = 0) (h_s : Keep M s0 s) : Keep M s0 (timeGet r s).2 := by
  unfold timeGet
  try dsimp only
  repeat' first
    | (with_reducible first
      | assumption | apply Keep.ite | apply keep_command | refine Keep.ofPair (by assumption) ?_ | refine Keep.ofTriple (by assumption) ?_)
    | ((simp only [keep_mk]; apply Keep.upd) <;> try first | exact .inl (mask_bit hm rfl) | exact .inr rfl | exact fun h => h | exact rfl | exact fun h => PendDistinct.filter h _)
    | exact mask_sub hm rfl | exact rfl | split | intro _ _ _ | intro _ _

theorem keep_execTimeGet {r : Request} {s : State} (hm : 613418004 &&& M = 613418004) (h_s : Keep M s0 s) : KeepO M s0 (execTimeGet r s) := by
  unfold execTimeGet
  repeat' first
    | (with_reducible first
      | assumption | apply KeepO.next | apply KeepO.ite | apply keep_begin_ | apply keep_finish | apply keep_timeGet)
    | exact mask_sub hm rfl

theorem keep_timeSet {r : Request} {s : State} (hm : 1612002832 &&& M = 1612002832) (h_s : Keep M s0 s) : Keep M s0 (timeSet r s).2 := by
  unfold timeSet
  try dsimp only
  repeat' first
    | (with_reducible first
      | assumption | apply Keep.ite | apply keep_command | apply keep_changeTime)
    | ((simp only [keep_mk]; apply Keep.upd) <;> try first | exact .inl (mask_bit hm rfl) | exact .inr rfl | exact fun h => h | exact rfl)
    | exact mask_sub hm rfl | exact rfl | split | intro _ _ _ | intro _ _

theorem keep_execTimeSet {r : Request} {s : State} (hm : 1687500308 &&& M = 1687500308) (h_s : Keep M s0 s) :
    KeepO M s0 (execTimeSet r s) := by
  unfold execTimeSet
  repeat' first
    | (with_reducible first
      | assumption | apply KeepO.next | apply KeepO.ite | apply keep_begin_ | apply keep_finish | apply keep_timeSet)
    | exact mask_sub hm rfl

theorem keep_timeSetSource {r : Request} {s : State} (hm : 16 &&& M = 16) (h_s : Keep M s0 s) : Keep M s0 (timeSetSource r s).2 := by
  unfold timeSetSource
  try dsimp only
  repeat' first
    | (with_reducible first
      | assumption | apply Keep.ite | apply keep_command)
    | ((simp only [keep_mk]; apply Keep.upd) <;> try first | exact .inl (mask_bit hm rfl) | exact .inr rfl | exact fun h => h | exact rfl)
    | exact mask_sub hm rfl | exact rfl | split | intro _ _ _ | intro _ _

theorem keep_execTimeSetSource {r : Request} {s : State} (hm : 613418004 &&& M = 613418004) (h_s : Keep M s0 s) :
    KeepO M s0 (execTimeSetSource r s) := by
  unfold execTimeSetSource
  repeat' first
    | (with_reducible first
      | assumption | apply KeepO.next | apply KeepO.ite | apply keep_begin_ | apply keep_finish | apply keep_timeSetSource)
    | exact mask_sub hm rfl

theorem keep_timeSetTod {r : Request} {s : State} (hm : 16 &&& M = 16) (h_s : Keep M s0 s) : Keep M s0 (timeSetTod r s).2 := by
  unfold timeSetTod
  repeat' first
    | (with_reducible first
      | assumption | apply Keep.ite | apply keep_command)
    | ((simp only [keep_mk]; apply Keep.upd) <;> try first | exact .inl (mask_bit hm rfl) | exact .inr rfl | exact fun h => h | exact rfl)
    | exact mask_sub hm rfl | exact rfl | split | intro _ _ _ | intro _ _

theorem keep_execTimeSetTod {r : Request} {s : State} (hm : 613418004 &&& M = 613418004) (h_s : Keep M s0 s) :
    KeepO M s0 (execTimeSetTod r s) := by
  unfold execTimeSetTod
  repeat' first
    | (with_reducible first
      | assumption | apply KeepO.next | apply KeepO.ite | apply keep_begin_ | apply keep_finish | apply keep_timeSetTod)
    | exact mask_sub hm rfl

theorem keep_timeSetCal {r : Request} {s : State} (hm : 16 &&& M = 16) (h_s : Keep M s0 s) : Keep M s0 (timeSetCal r s).2 := by
  unfold timeSetCal
  try dsimp only
  repeat' first
    | (with_reducible first
      | assumption | apply Keep.ite | apply keep_command | refine Keep.ofPair (by assumption) ?_ | refine Keep.ofTriple (by assumption) ?_)
    | ((simp only [keep_mk]; apply Keep.upd) <;> try first | exact .inl (mask_bit hm rfl) | exact .inr rfl | exact fun h => h | exact rfl)
    | exact mask_sub hm rfl | exact rfl | split | intro _ _ _ | intro _ _

theorem keep_execTimeSetCal {r : Request} {s : State} (hm : 613418004 &&& M = 613418004) (h_s : Keep M s0 s) :
    KeepO M s0 (execTimeSetCal r s) := by
  unfold execTimeSetCal
  repeat' first
    | (with_reducible first
      | assumption | apply KeepO.next | apply KeepO.ite | apply keep_begin_ | apply keep_finish | apply keep_timeSetCal)
    | exact mask_sub hm rfl

theorem keep_timeSetServo {r : Request} {s : State} (hm : 16 &&& M = 16) (h_s : Keep M s0 s) : Keep M s0 (timeSetServo r s).2 := by
  unfold timeSetServo
  try dsimp only
  repeat' first
    | (with_reducible first
      | assumption | apply Keep.ite | apply keep_command | refine Keep.ofPair (by assumption) ?_ | refine Keep.ofTriple (by assumption) ?_)
    | ((simp only [keep_mk]; apply Keep.upd) <;> try first | exact .inl (mask_bit hm rfl) | exact .inr rfl | exact fun h => h | exact rfl)
    | exact mask_sub hm rfl | exact rfl | split | intro _ _ _ | intro _ _

theorem keep_execTimeSetServo {r : Request} {s : State} (hm : 613418004 &&& M = 613418004) (h_s : Keep M s0 s) :
    KeepO M s0 (execTimeSetServo r s) := by
  unfold execTimeSetServo
  repeat' first
    | (with_reducible first
      | assumption | apply KeepO.next | apply KeepO.ite | apply keep_begin_ | apply keep_finish | apply keep_timeSetServo)
    | exact mask_sub hm rfl

theorem keep_timeSetUtc {r : Request} {s : State} (hm : 16 &&& M = 16) (h_s : Keep M s0 s) : Keep M s0 (timeSetUtc r s).2 := by
  unfold timeSetUtc
  try dsimp only
  repeat' first
    | (with_reducible first
      | assumption | apply Keep.ite | apply keep_command | refine Keep.ofPair (by assumption) ?_ | refine Keep.ofTriple (by assumption) ?_)
    | ((simp only [keep_mk]; apply Keep.upd) <;> try first | exact .inl (mask_bit hm rfl) | exact .inr rfl | exact fun h => h | exact rfl)
    | exact mask_sub hm rfl | exact rfl | split | intro _ _ _ | intro _ _

theorem keep_execTimeSetUtc {r : Request} {s : State} (hm : 613418004 &&& M = 613418004) (h_s : Keep M s0 s) :
    KeepO M s0 (execTimeSetUtc r s) := by
  unfold execTimeSetUtc
  repeat' first
    | (with_reducible first
      | assumption | apply KeepO.next | apply KeepO.ite | apply keep_begin_ | apply keep_finish | apply keep_timeSetUtc)
    | exact mask_sub hm rfl

theorem keep_timeStepRoot {r : Request} {s : State} (hm : 134217744 &&& M = 134217744) (h_s : Keep M s0 s) :
    Keep M s0 (timeStepRoot r s).2 := by
  unfold timeStepRoot
  try dsimp only
  repeat' first
    | (with_reducible first
      | assumption | apply Keep.ite | apply keep_command | apply keep_defer | refine Keep.ofPair (by assumption) ?_
      | refine Keep.ofTriple (by assumption) ?_)
    | ((simp only [keep_mk]; apply Keep.upd) <;> try first | exact .inl (mask_bit hm rfl) | exact .inr rfl | exact fun h => h | exact rfl)
    | exact mask_sub hm rfl | exact rfl | split | intro _ _ _ | intro _ _

theorem keep_execTimeStepRoot {r : Request} {s : State} (hm : 747635732 &&& M = 747635732) (h_s : Keep M s0 s) :
    KeepO M s0 (execTimeStepRoot r s) := by
  unfold execTimeStepRoot
  repeat' first
    | (with_reducible first
      | assumption | apply KeepO.next | apply KeepO.ite | apply keep_begin_ | apply keep_finish | apply keep_timeStepRoot)
    | exact mask_sub hm rfl

theorem keep_stepAtTick {f : Nat} {s : State} (hm : 1612002840 &&& M = 1612002840) (h_s : Keep M s0 s) : Keep M s0 (stepAtTick f s) := by
  unfold stepAtTick
  try dsimp only
  repeat' first
    | (with_reducible first
      | assumption | apply Keep.ite | apply keep_setExch | apply keep_changeTime | apply Keep.foldl | apply Keep.foldlP
      | refine Keep.ofPair (by assumption) ?_ | refine Keep.ofTriple (by assumption) ?_)
    | ((simp only [keep_mk]; apply Keep.upd) <;> try first | exact .inl (mask_bit hm rfl) | exact .inr rfl | exact fun h => h | exact rfl)
    | exact mask_sub hm rfl | exact rfl | split | intro _ _ _ | intro _ _

end Sys2Proof.Machine
end

