-- ==== Sys2Proof/Laws/KeepFrame.lean ====
section
/-! SUPPORT. What the operations of Machine/Frame.lean keep (`Keep`, Laws/Keep.lean): one lemma per operation. -/
namespace Sys2Proof.Machine

set_option linter.unusedSimpArgs false
set_option linter.unusedVariables false

variable {M : Nat} {s0 : State}

theorem keep_sendRootParams {s : State} (hm : 536871936 &&& M = 536871936) (h_s : Keep M s0 s) : Keep M s0 (sendRootParams s) := by
  unfold sendRootParams
  repeat' first
    | (with_reducible first
      | assumption | apply keep_sendMsg | refine Keep.ofPair (by assumption) ?_ | refine Keep.ofTriple (by assumption) ?_)
    | ((simp only [keep_mk]; apply Keep.upd) <;> try first | exact .inl (mask_bit hm rfl) | exact .inr rfl | exact fun h => h | exact rfl | exact fun h => PendDistinct.filter h _)
    | exact mask_sub hm rfl | exact rfl | split

theorem keep_receiveParams {cur : FrameParams} {pend : Option FrameParams} {s : State} (hm : 8 &&& M = 8) (h_s : Keep M s0 s) :
    Keep M s0 (receiveParams cur pend s) := by
  unfold receiveParams
  try dsimp only
  repeat' first
    | (with_reducible first
      | assumption | apply Keep.ite)
    | ((simp only [keep_mk]; apply Keep.upd) <;> try first | exact .inl (mask_bit hm rfl) | exact .inr rfl | exact fun h => h | exact rfl | exact fun h => PendDistinct.filter h _)
    | exact rfl | split

theorem keep_reduceMetric {m : Metric} {xs : List (F32 × Nat)} {s : State} (hm : 256 &&& M = 256) (h_s : Keep M s0 s) :
    Keep M s0 (reduceMetric m xs s) := by
  unfold reduceMetric
  try dsimp only
  repeat' first
    | (with_reducible first
      | assumption | apply Keep.ite | apply Keep.foldl | apply Keep.foldlP)
    | ((simp only [keep_mk]; apply Keep.upd) <;> try first | exact .inl (mask_bit hm rfl) | exact .inr rfl | exact fun h => h | exact rfl) | exact rfl
    | split | intro _ _ _ | intro _ _

theorem keep_preReduce {s : State} (hm : 256 &&& M = 256) (h_s : Keep M s0 s) : Keep M s0 (preReduce s) := by
  unfold preReduce
  repeat' first
    | (with_reducible first
      | assumption | apply Keep.ite | apply keep_reduceMetric | apply Keep.foldl | apply Keep.foldlP | refine Keep.ofPair (by assumption) ?_
      | refine Keep.ofTriple (by assumption) ?_)
    | ((simp only [keep_mk]; apply Keep.upd) <;> try first | exact .inl (mask_bit hm rfl) | exact .inr rfl | exact fun h => h | exact rfl)
    | exact mask_sub hm rfl | exact rfl | split | intro _ _ _ | intro _ _

theorem keep_reduceHeads {s : State} (hm : 256 &&& M = 256) (h_s : Keep M s0 s) : Keep M s0 (reduceHeads s) := by
  unfold reduceHeads
  repeat' first
    | (with_reducible first
      | assumption | apply Keep.ite | apply keep_reduceMetric | apply Keep.foldl | apply Keep.foldlP | refine Keep.ofPair (by assumption) ?_
      | refine Keep.ofTriple (by assumption) ?_)
    | ((simp only [keep_mk]; apply Keep.upd) <;> try first | exact .inl (mask_bit hm rfl) | exact .inr rfl | exact fun h => h | exact rfl)
    | exact mask_sub hm rfl | split | intro _ _ _ | intro _ _

theorem keep_execTrackerUpdateEnd {s : State} (hm : 1611665692 &&& M = 1611665692) (h_s : Keep M s0 s) :
    KeepO M s0 (execTrackerUpdateEnd s) := by
  unfold execTrackerUpdateEnd
  try dsimp only
  repeat' first
    | (with_reducible first
      | assumption | apply Keep.ite | apply KeepO.next | apply KeepO.ite | apply keep_fresh | apply keep_advanceCycles | apply keep_startStep4
      | apply keep_preReduce)
    | ((simp only [keep_mk]; apply Keep.upd) <;> try first | exact .inl (mask_bit hm rfl) | exact .inr rfl | exact fun h => h | exact rfl)
    | exact mask_sub hm rfl | exact rfl | split

theorem keep_execSendCutoff {s : State} (hm : 537924892 &&& M = 537924892) (h_s : Keep M s0 s) : KeepO M s0 (execSendCutoff s) := by
  unfold execSendCutoff
  try dsimp only
  repeat' first
    | (with_reducible first
      | assumption | apply Keep.ite | apply KeepO.next | apply KeepO.ite | apply keep_fresh | apply keep_advanceTo | apply keep_sendMsg
      | apply keep_stopStep4 | apply keep_stragglerRule | apply keep_reduceHeads | refine Keep.ofPair (by assumption) ?_
      | refine Keep.ofTriple (by assumption) ?_)
    | ((simp only [keep_mk]; apply Keep.upd) <;> try first | exact .inl (mask_bit hm rfl) | exact .inr rfl | exact fun h => h | exact rfl)
    | exact mask_sub hm rfl | exact rfl | split | intro _ _ _ | intro _ _

theorem keep_dieReturned {door : Nat} {aborted : Bool} {b : Bytes} {s : State} (hm : 1032 &&& M = 1032) (h_s : Keep M s0 s) :
    Keep M s0 (dieReturned door aborted b s) := by
  unfold dieReturned
  try dsimp only
  repeat' first
    | (with_reducible first
      | assumption | apply Keep.ite | apply keep_malformedOn | apply keep_receiveParams | refine Keep.ofPair (by assumption) ?_
      | refine Keep.ofTriple (by assumption) ?_)
    | ((simp only [keep_mk]; apply Keep.upd) <;> try first | exact .inl (mask_bit hm rfl) | exact .inr rfl | exact fun h => h | exact rfl | exact fun h => PendDistinct.filter h _)
    | exact mask_sub hm rfl | exact rfl | split

theorem keep_exportOwnFindings {s : State} (hm : 536904704 &&& M = 536904704) (h_s : Keep M s0 s) : Keep M s0 (exportOwnFindings s) := by
  unfold exportOwnFindings
  repeat' first | (with_reducible first | assumption | apply Keep.ite | apply keep_exportItem) | exact mask_sub hm rfl | split

theorem keep_execReturnMark {s : State} (hm : 537965596 &&& M = 537965596) (h_s : Keep M s0 s) : KeepO M s0 (execReturnMark s) := by
  unfold execReturnMark
  try dsimp only
  repeat' first
    | (with_reducible first
      | assumption | apply Keep.ite | apply KeepO.next | apply KeepO.ite | apply keep_fresh | apply keep_advanceTo | apply keep_stopStep4
      | apply keep_exportOwnFindings)
    | ((simp only [keep_mk]; apply Keep.upd) <;> try first | exact .inl (mask_bit hm rfl) | exact .inr rfl | exact fun h => h | exact rfl)
    | exact mask_sub hm rfl | exact rfl | split

theorem keep_execReturnClose {s : State} (hm : 537919516 &&& M = 537919516) (h_s : Keep M s0 s) : KeepO M s0 (execReturnClose s) := by
  unfold execReturnClose
  try dsimp only
  repeat' first
    | (with_reducible first
      | assumption | apply Keep.ite | apply KeepO.next | apply KeepO.ite | apply keep_fresh | apply keep_advanceTo
      | refine Keep.ofPair (by assumption) ?_ | refine Keep.ofTriple (by assumption) ?_)
    | ((simp only [keep_mk]; apply Keep.upd) <;> try first | exact .inl (mask_bit hm rfl) | exact .inr rfl | exact fun h => h | exact rfl)
    | exact mask_sub hm rfl | exact rfl | split

theorem keep_acceptParams {p : FrameParams} {s : State} (hm : 536871944 &&& M = 536871944) (h_s : Keep M s0 s) :
    Keep M s0 (acceptParams p s).2 := by
  unfold acceptParams
  try dsimp only
  repeat' first
    | (with_reducible first
      | assumption | apply Keep.ite | apply keep_sendRootParams)
    | ((simp only [keep_mk]; apply Keep.upd) <;> try first | exact .inl (mask_bit hm rfl) | exact .inr rfl | exact fun h => h | exact rfl | exact fun h => PendDistinct.filter h _)
    | exact mask_sub hm rfl | exact rfl | split | intro _ _ _ | intro _ _

theorem keep_frameSet {r : Request} {s : State} (hm : 536871944 &&& M = 536871944) (h_s : Keep M s0 s) : Keep M s0 (frameSet r s).2 := by
  unfold frameSet
  try dsimp only
  repeat' first
    | (with_reducible first
      | assumption | apply Keep.ite | apply keep_command | apply keep_acceptParams | refine Keep.ofPair (by assumption) ?_
      | refine Keep.ofTriple (by assumption) ?_)
    | ((simp only [keep_mk]; apply Keep.upd) <;> try first | exact .inl (mask_bit hm rfl) | exact .inr rfl | exact fun h => h | exact rfl)
    | exact mask_sub hm rfl | exact rfl | split | intro _ _ _ | intro _ _

theorem keep_execFrameSet {r : Request} {s : State} (hm : 613418012 &&& M = 613418012) (h_s : Keep M s0 s) :
    KeepO M s0 (execFrameSet r s) := by
  unfold execFrameSet
  repeat' first
    | (with_reducible first
      | assumption | apply KeepO.next | apply KeepO.ite | apply keep_begin_ | apply keep_finish | apply keep_frameSet)
    | exact mask_sub hm rfl

theorem keep_frameGet {r : Request} {s : State} (hm : 0 &&& M = 0) (h_s : Keep M s0 s) : Keep M s0 (frameGet r s).2 := by
  unfold frameGet
  try dsimp only
  repeat' first
    | (with_reducible first
      | assumption | apply keep_command | refine Keep.ofPair (by assumption) ?_ | refine Keep.ofTriple (by assumption) ?_)
    | ((simp only [keep_mk]; apply Keep.upd) <;> try first | exact .inl (mask_bit hm rfl) | exact .inr rfl | exact fun h => h | exact rfl | exact fun h => PendDistinct.filter h _)
    | exact mask_sub hm rfl | exact rfl | split | intro _ _ _ | intro _ _

theorem keep_execFrameGet {r : Request} {s : State} (hm : 613418004 &&& M = 613418004) (h_s : Keep M s0 s) :
    KeepO M s0 (execFrameGet r s) := by
  unfold execFrameGet
  repeat' first
    | (with_reducible first
      | assumption | apply KeepO.next | apply KeepO.ite | apply keep_begin_ | apply keep_finish | apply keep_frameGet)
    | exact mask_sub hm rfl

theorem keep_frameSetGroup {r : Request} {s : State} (hm : 134217728 &&& M = 134217728) (h_s : Keep M s0 s) :
    Keep M s0 (frameSetGroup r s).2 := by
  unfold frameSetGroup
  try dsimp only
  repeat' first
    | (with_reducible first
      | assumption | apply Keep.ite | apply keep_command | apply keep_defer)
    | ((simp only [keep_mk]; apply Keep.upd) <;> try first | exact .inl (mask_bit hm rfl) | exact .inr rfl | exact fun h => h | exact rfl)
    | exact mask_sub hm rfl | exact rfl | split | intro _ _ _ | intro _ _

theorem keep_execFrameSetGroup {r : Request} {s : State} (hm : 747635732 &&& M = 747635732) (h_s : Keep M s0 s) :
    KeepO M s0 (execFrameSetGroup r s) := by
  unfold execFrameSetGroup
  repeat' first
    | (with_reducible first
      | assumption | apply KeepO.next | apply KeepO.ite | apply keep_begin_ | apply keep_finish | apply keep_frameSetGroup)
    | exact mask_sub hm rfl

theorem keep_frameGetStats {r : Request} {s : State} (hm : 0 &&& M = 0) (h_s : Keep M s0 s) : Keep M s0 (frameGetStats r s).2 := by
  unfold frameGetStats
  try dsimp only
  repeat' first
    | (with_reducible first
      | assumption | apply keep_command)
    | ((simp only [keep_mk]; apply Keep.upd) <;> try first | exact .inl (mask_bit hm rfl) | exact .inr rfl | exact fun h => h | exact rfl)
    | exact mask_sub hm rfl | exact rfl | intro _ _ _ | intro _ _

theorem keep_execFrameGetStats {r : Request} {s : State} (hm : 613418004 &&& M = 613418004) (h_s : Keep M s0 s) :
    KeepO M s0 (execFrameGetStats r s) := by
  unfold execFrameGetStats
  repeat' first
    | (with_reducible first
      | assumption | apply KeepO.next | apply KeepO.ite | apply keep_begin_ | apply keep_finish | apply keep_frameGetStats)
    | exact mask_sub hm rfl

theorem keep_frameGetPresence {r : Request} {s : State} (hm : 0 &&& M = 0) (h_s : Keep M s0 s) : Keep M s0 (frameGetPresence r s).2 := by
  unfold frameGetPresence
  try dsimp only
  repeat' first
    | (with_reducible first
      | assumption | apply Keep.ite | apply keep_command | refine Keep.ofPair (by assumption) ?_ | refine Keep.ofTriple (by assumption) ?_)
    | ((simp only [keep_mk]; apply Keep.upd) <;> try first | exact .inl (mask_bit hm rfl) | exact .inr rfl | exact fun h => h | exact rfl)
    | exact mask_sub hm rfl | exact rfl | split | intro _ _ _ | intro _ _

theorem keep_execFrameGetPresence {r : Request} {s : State} (hm : 613418004 &&& M = 613418004) (h_s : Keep M s0 s) :
    KeepO M s0 (execFrameGetPresence r s) := by
  unfold execFrameGetPresence
  repeat' first
    | (with_reducible first
      | assumption | apply KeepO.next | apply KeepO.ite | apply keep_begin_ | apply keep_finish | apply keep_frameGetPresence)
    | exact mask_sub hm rfl

theorem keep_frameGetContribution {r : Request} {s : State} (hm : 0 &&& M = 0) (h_s : Keep M s0 s) :
    Keep M s0 (frameGetContribution r s).2 := by
  unfold frameGetContribution
  repeat' first
    | (with_reducible first
      | assumption | apply keep_command | refine Keep.ofPair (by assumption) ?_ | refine Keep.ofTriple (by assumption) ?_)
    | ((simp only [keep_mk]; apply Keep.upd) <;> try first | exact .inl (mask_bit hm rfl) | exact .inr rfl | exact fun h => h | exact rfl)
    | exact mask_sub hm rfl | exact rfl | split | intro _ _ _ | intro _ _

theorem keep_execFrameGetContribution {r : Request} {s : State} (hm : 613418004 &&& M = 613418004) (h_s : Keep M s0 s) :
    KeepO M s0 (execFrameGetContribution r s) := by
  unfold execFrameGetContribution
  repeat' first
    | (with_reducible first
      | assumption | apply KeepO.next | apply KeepO.ite | apply keep_begin_ | apply keep_finish | apply keep_frameGetContribution)
    | exact mask_sub hm rfl

theorem keep_redStageCatalogue {r : Request} {s : State} (hm : 16777344 &&& M = 16777344) (h_s : Keep M s0 s) :
    Keep M s0 (redStageCatalogue r s).2 := by
  unfold redStageCatalogue
  try dsimp only
  repeat' first
    | (with_reducible first
      | assumption | apply Keep.ite | apply keep_command | apply keep_stageCatalogue | refine keep_takePiece_done (by assumption) ?_ ?_ ?_
      | refine keep_takePiece_whole (by assumption) ?_ ?_ ?_ | refine Keep.ofPair (by assumption) ?_ | refine Keep.ofTriple (by assumption) ?_)
    | ((simp only [keep_mk]; apply Keep.upd) <;> try first | exact .inl (mask_bit hm rfl) | exact .inr rfl | exact fun h => h | exact rfl | exact fun h => PendDistinct.filter h _)
    | exact mask_sub hm rfl | exact rfl | split | intro _ _ _ | intro _ _

theorem keep_execRedStageCatalogue {r : Request} {s : State} (hm : 630195348 &&& M = 630195348) (h_s : Keep M s0 s) :
    KeepO M s0 (execRedStageCatalogue r s) := by
  unfold execRedStageCatalogue
  repeat' first
    | (with_reducible first
      | assumption | apply KeepO.next | apply KeepO.ite | apply keep_begin_ | apply keep_finish | apply keep_redStageCatalogue)
    | exact mask_sub hm rfl

theorem keep_redActivateCatalogue {r : Request} {s : State} (hm : 134217728 &&& M = 134217728) (h_s : Keep M s0 s) :
    Keep M s0 (redActivateCatalogue r s).2 := by
  unfold redActivateCatalogue
  try dsimp only
  repeat' first
    | (with_reducible first
      | assumption | apply Keep.ite | apply keep_command | apply keep_defer)
    | ((simp only [keep_mk]; apply Keep.upd) <;> try first | exact .inl (mask_bit hm rfl) | exact .inr rfl | exact fun h => h | exact rfl)
    | exact mask_sub hm rfl | exact rfl | split | intro _ _ _ | intro _ _

theorem keep_execRedActivateCatalogue {r : Request} {s : State} (hm : 747635732 &&& M = 747635732) (h_s : Keep M s0 s) :
    KeepO M s0 (execRedActivateCatalogue r s) := by
  unfold execRedActivateCatalogue
  repeat' first
    | (with_reducible first
      | assumption | apply KeepO.next | apply KeepO.ite | apply keep_begin_ | apply keep_finish | apply keep_redActivateCatalogue)
    | exact mask_sub hm rfl

theorem keep_redGetCatalogue {r : Request} {s : State} (hm : 0 &&& M = 0) (h_s : Keep M s0 s) : Keep M s0 (redGetCatalogue r s).2 := by
  unfold redGetCatalogue
  try dsimp only
  repeat' first
    | (with_reducible first
      | assumption | apply Keep.ite | apply keep_command)
    | ((simp only [keep_mk]; apply Keep.upd) <;> try first | exact .inl (mask_bit hm rfl) | exact .inr rfl | exact fun h => h | exact rfl | exact fun h => PendDistinct.filter h _)
    | exact mask_sub hm rfl | exact rfl | split | intro _ _ _ | intro _ _

theorem keep_execRedGetCatalogue {r : Request} {s : State} (hm : 613418004 &&& M = 613418004) (h_s : Keep M s0 s) :
    KeepO M s0 (execRedGetCatalogue r s) := by
  unfold execRedGetCatalogue
  repeat' first
    | (with_reducible first
      | assumption | apply KeepO.next | apply KeepO.ite | apply keep_begin_ | apply keep_finish | apply keep_redGetCatalogue)
    | exact mask_sub hm rfl

theorem keep_redGetSummary {r : Request} {s : State} (hm : 0 &&& M = 0) (h_s : Keep M s0 s) : Keep M s0 (redGetSummary r s).2 := by
  unfold redGetSummary
  repeat' first
    | (with_reducible first
      | assumption | apply Keep.ite | apply keep_command | refine Keep.ofPair (by assumption) ?_ | refine Keep.ofTriple (by assumption) ?_)
    | ((simp only [keep_mk]; apply Keep.upd) <;> try first | exact .inl (mask_bit hm rfl) | exact .inr rfl | exact fun h => h | exact rfl)
    | exact mask_sub hm rfl | exact rfl | split | intro _ _ _ | intro _ _

theorem keep_execRedGetSummary {r : Request} {s : State} (hm : 613418004 &&& M = 613418004) (h_s : Keep M s0 s) :
    KeepO M s0 (execRedGetSummary r s) := by
  unfold execRedGetSummary
  repeat' first
    | (with_reducible first
      | assumption | apply KeepO.next | apply KeepO.ite | apply keep_begin_ | apply keep_finish | apply keep_redGetSummary)
    | exact mask_sub hm rfl

theorem keep_redGetReturned {r : Request} {s : State} (hm : 0 &&& M = 0) (h_s : Keep M s0 s) : Keep M s0 (redGetReturned r s).2 := by
  unfold redGetReturned
  repeat' first
    | (with_reducible first
      | assumption | apply keep_command | refine Keep.ofPair (by assumption) ?_ | refine Keep.ofTriple (by assumption) ?_)
    | ((simp only [keep_mk]; apply Keep.upd) <;> try first | exact .inl (mask_bit hm rfl) | exact .inr rfl | exact fun h => h | exact rfl)
    | exact mask_sub hm rfl | exact rfl | split | intro _ _ _ | intro _ _

theorem keep_execRedGetReturned {r : Request} {s : State} (hm : 613418004 &&& M = 613418004) (h_s : Keep M s0 s) :
    KeepO M s0 (execRedGetReturned r s) := by
  unfold execRedGetReturned
  repeat' first
    | (with_reducible first
      | assumption | apply KeepO.next | apply KeepO.ite | apply keep_begin_ | apply keep_finish | apply keep_redGetReturned)
    | exact mask_sub hm rfl

theorem keep_redTest {r : Request} {s : State} (hm : 0 &&& M = 0) (h_s : Keep M s0 s) : Keep M s0 (redTest r s).2 := by
  unfold redTest
  try dsimp only
  repeat' first
    | (with_reducible first
      | assumption | apply Keep.ite | apply keep_command | apply Keep.foldl | apply Keep.foldlP)
    | ((simp only [keep_mk]; apply Keep.upd) <;> try first | exact .inl (mask_bit hm rfl) | exact .inr rfl | exact fun h => h | exact rfl)
    | exact mask_sub hm rfl | exact rfl | split | intro _ _ _ | intro _ _

theorem keep_execRedTest {r : Request} {s : State} (hm : 613418004 &&& M = 613418004) (h_s : Keep M s0 s) : KeepO M s0 (execRedTest r s) := by
  unfold execRedTest
  repeat' first
    | (with_reducible first
      | assumption | apply KeepO.next | apply KeepO.ite | apply keep_begin_ | apply keep_finish | apply keep_redTest)
    | exact mask_sub hm rfl

theorem keep_redGetCheck {r : Request} {s : State} (hm : 0 &&& M = 0) (h_s : Keep M s0 s) : Keep M s0 (redGetCheck r s).2 := by
  unfold redGetCheck
  try dsimp only
  repeat' first
    | (with_reducible first
      | assumption | apply keep_command | refine Keep.ofPair (by assumption) ?_ | refine Keep.ofTriple (by assumption) ?_)
    | ((simp only [keep_mk]; apply Keep.upd) <;> try first | exact .inl (mask_bit hm rfl) | exact .inr rfl | exact fun h => h | exact rfl)
    | exact mask_sub hm rfl | exact rfl | split | intro _ _ _ | intro _ _

theorem keep_execRedGetCheck {r : Request} {s : State} (hm : 613418004 &&& M = 613418004) (h_s : Keep M s0 s) :
    KeepO M s0 (execRedGetCheck r s) := by
  unfold execRedGetCheck
  repeat' first
    | (with_reducible first
      | assumption | apply KeepO.next | apply KeepO.ite | apply keep_begin_ | apply keep_finish | apply keep_redGetCheck)
    | exact mask_sub hm rfl

end Sys2Proof.Machine
end

