-- ==== Sys2Proof/Laws/KeepProbes.lean ====
section
/-! SUPPORT. What the operations of Machine/Probes.lean keep (`Keep`, Laws/Keep.lean): one lemma per operation. -/
namespace Sys2Proof.Machine

set_option linter.unusedSimpArgs false
set_option linter.unusedVariables false

variable {M : Nat} {s0 : State}

theorem keep_setPrb {f : Probes → Probes} {s : State} (hm : 8192 &&& M = 8192) (h_s : Keep M s0 s) : Keep M s0 (setPrb f s) := by
  unfold setPrb
  repeat' first
    | (with_reducible first
      | assumption)
    | ((simp only [keep_mk]; apply Keep.upd) <;> try first | exact .inl (mask_bit hm rfl) | exact .inr rfl | exact fun h => h | exact rfl) | exact rfl

theorem keep_setTile {t : Nat} {f : Tile → Tile} {s : State} (hm : 8192 &&& M = 8192) (h_s : Keep M s0 s) : Keep M s0 (setTile t f s) := by
  unfold setTile
  repeat' first
    | (with_reducible first
      | assumption | apply keep_setPrb)
    | ((simp only [keep_mk]; apply Keep.upd) <;> try first | exact .inl (mask_bit hm rfl) | exact .inr rfl | exact fun h => h | exact rfl)
    | exact mask_sub hm rfl | exact rfl | intro _ _ _ | intro _ _

theorem keep_setCell {t : Nat} {c : Nat} {f : Cell → Cell} {s : State} (hm : 8192 &&& M = 8192) (h_s : Keep M s0 s) :
    Keep M s0 (setCell t c f s) := by
  unfold setCell
  repeat' first
    | (with_reducible first
      | assumption | apply Keep.ite | apply keep_setPrb)
    | ((simp only [keep_mk]; apply Keep.upd) <;> try first | exact .inl (mask_bit hm rfl) | exact .inr rfl | exact fun h => h | exact rfl)
    | exact mask_sub hm rfl | exact rfl | split | intro _ _ _ | intro _ _

theorem keep_markCell {t : Nat} {c : Nat} {st : Nat} {s : State} (hm : 8192 &&& M = 8192) (h_s : Keep M s0 s) :
    Keep M s0 (markCell t c st s) := by
  unfold markCell
  repeat' first
    | (with_reducible first
      | assumption | apply Keep.ite | apply keep_setCell)
    | ((simp only [keep_mk]; apply Keep.upd) <;> try first | exact .inl (mask_bit hm rfl) | exact .inr rfl | exact fun h => h | exact rfl)
    | exact mask_sub hm rfl | exact rfl | split | intro _ _ _ | intro _ _

theorem keep_startRun {t : Nat} {i : Nat} {retest : Bool} {queued : Bool} {s : State} (hm : 536879104 &&& M = 536879104) (h_s : Keep M s0 s) :
    Keep M s0 (startRun t i retest queued s) := by
  unfold startRun
  try dsimp only
  repeat' first
    | (with_reducible first
      | assumption | apply keep_emit | apply keep_setPrb | apply keep_setTile)
    | ((simp only [keep_mk]; apply Keep.upd) <;> try first | exact .inl (mask_bit hm rfl) | exact .inr rfl | exact fun h => h | exact rfl)
    | exact mask_sub hm rfl | exact rfl | intro _ _ _ | intro _ _

theorem keep_examine {t : Nat} {sig : TileSignal} {s : State} (hm : 536879104 &&& M = 536879104) (h_s : Keep M s0 s) :
    Keep M s0 (examine t sig s) := by
  unfold examine
  try dsimp only
  repeat' first
    | (with_reducible first
      | assumption | apply Keep.ite | apply keep_setTile | apply keep_setCell | apply keep_startRun | refine Keep.ofPair (by assumption) ?_
      | refine Keep.ofTriple (by assumption) ?_)
    | ((simp only [keep_mk]; apply Keep.upd) <;> try first | exact .inl (mask_bit hm rfl) | exact .inr rfl | exact fun h => h | exact rfl)
    | exact mask_sub hm rfl | exact rfl | split | intro _ _ _ | intro _ _

theorem keep_execProbeSchedulerPass {tiles : List TileSignal} {s : State} (hm : 537927700 &&& M = 537927700) (h_s : Keep M s0 s) :
    KeepO M s0 (execProbeSchedulerPass tiles s) := by
  unfold execProbeSchedulerPass
  try dsimp only
  repeat' first
    | (with_reducible first
      | assumption | apply Keep.ite | apply KeepO.next | apply KeepO.ite | apply keep_fresh | apply keep_advanceTo | apply keep_setPrb
      | apply keep_examine | apply Keep.foldl | apply Keep.foldlP)
    | ((simp only [keep_mk]; apply Keep.upd) <;> try first | exact .inl (mask_bit hm rfl) | exact .inr rfl | exact fun h => h | exact rfl)
    | exact mask_sub hm rfl | exact rfl | split | intro _ _ _ | intro _ _

theorem keep_countDropped {b : Bytes} {s : State} (hm : 8192 &&& M = 8192) (h_s : Keep M s0 s) : Keep M s0 (countDropped b s) := by
  unfold countDropped
  repeat' first
    | (with_reducible first
      | assumption | apply keep_setTile)
    | ((simp only [keep_mk]; apply Keep.upd) <;> try first | exact .inl (mask_bit hm rfl) | exact .inr rfl | exact fun h => h | exact rfl)
    | exact mask_sub hm rfl | exact rfl | intro _ _ _ | intro _ _

theorem keep_addProbe {b : Bytes} {s : State} (hm : 8200 &&& M = 8200) (h_s : Keep M s0 s) : Keep M s0 (addProbe b s) := by
  unfold addProbe
  try dsimp only
  repeat' first
    | (with_reducible first
      | assumption | apply Keep.ite | apply keep_countDropped | refine Keep.ofPair (by assumption) ?_ | refine Keep.ofTriple (by assumption) ?_)
    | ((simp only [keep_mk]; apply Keep.upd) <;> try first | exact .inl (mask_bit hm rfl) | exact .inr rfl | exact fun h => h | exact rfl)
    | exact mask_sub hm rfl | exact rfl | split | intro _ _ _ | intro _ _

theorem keep_raiseProbe {cls : Nat} {sev : Nat} {t : Nat} {cell : Nat} {id : Word} {diff : BitVec 64} {tag : Option Nat} {s : State} (hm : 536921088 &&& M = 536921088) (h_s : Keep M s0 s) :
    Keep M s0 (raiseProbe cls sev t cell id diff tag s) := by
  unfold raiseProbe
  repeat' first
    | (with_reducible first
      | assumption | apply keep_raise)
    | ((simp only [keep_mk]; apply Keep.upd) <;> try first | exact .inl (mask_bit hm rfl) | exact .inr rfl | exact fun h => h | exact rfl)
    | exact mask_sub hm rfl | exact rfl

theorem keep_answerOrder {t : Nat} {how : Nat} {rec_ : Option Bytes} {s : State} (hm : 612377600 &&& M = 612377600) (h_s : Keep M s0 s) :
    Keep M s0 (answerOrder t how rec_ s) := by
  unfold answerOrder
  try dsimp only
  repeat' first
    | (with_reducible first
      | assumption | apply keep_finish | apply keep_setTile | refine Keep.ofPair (by assumption) ?_ | refine Keep.ofTriple (by assumption) ?_)
    | ((simp only [keep_mk]; apply Keep.upd) <;> try first | exact .inl (mask_bit hm rfl) | exact .inr rfl | exact fun h => h | exact rfl)
    | exact mask_sub hm rfl | exact rfl | split | intro _ _ _ | intro _ _

theorem keep_fed {t : Nat} {s : State} (hm : 536929280 &&& M = 536929280) (h_s : Keep M s0 s) : Keep M s0 (fed t s) := by
  unfold fed
  try dsimp only
  repeat' first
    | (with_reducible first
      | assumption | apply keep_raiseOwn | apply keep_setTile | refine Keep.ofPair (by assumption) ?_ | refine Keep.ofTriple (by assumption) ?_)
    | ((simp only [keep_mk]; apply Keep.upd) <;> try first | exact .inl (mask_bit hm rfl) | exact .inr rfl | exact fun h => h | exact rfl)
    | exact mask_sub hm rfl | exact rfl | split | intro _ _ _ | intro _ _

theorem keep_unresolved {t : Nat} {s : State} (hm : 536929280 &&& M = 536929280) (h_s : Keep M s0 s) : Keep M s0 (unresolved t s) := by
  unfold unresolved
  repeat' first
    | (with_reducible first
      | assumption | apply keep_setTile | apply keep_markCell | apply keep_raiseProbe | refine Keep.ofPair (by assumption) ?_
      | refine Keep.ofTriple (by assumption) ?_)
    | ((simp only [keep_mk]; apply Keep.upd) <;> try first | exact .inl (mask_bit hm rfl) | exact .inr rfl | exact fun h => h | exact rfl)
    | exact mask_sub hm rfl | exact rfl | split | intro _ _ _ | intro _ _

theorem keep_judgeRun {t : Nat} {cell : Nat} {e : Ended} {s : State} (hm : 536929280 &&& M = 536929280) (h_s : Keep M s0 s) :
    Keep M s0 (judgeRun t cell e s).2 := by
  unfold judgeRun
  try dsimp only
  repeat' first
    | (with_reducible first
      | assumption | apply Keep.ite | apply keep_setTile | apply keep_setCell | apply keep_markCell | apply keep_raiseProbe | apply keep_unresolved
      | refine Keep.ofPair (by assumption) ?_ | refine Keep.ofTriple (by assumption) ?_)
    | ((simp only [keep_mk]; apply Keep.upd) <;> try first | exact .inl (mask_bit hm rfl) | exact .inr rfl | exact fun h => h | exact rfl)
    | exact mask_sub hm rfl | exact rfl | split | intro _ _ _ | intro _ _

theorem keep_countRun {t : Nat} {cell : Nat} {e : Ended} {s : State} (hm : 8192 &&& M = 8192) (h_s : Keep M s0 s) :
    Keep M s0 (countRun t cell e s) := by
  unfold countRun
  repeat' first
    | (with_reducible first
      | assumption | apply Keep.ite | apply keep_setCell)
    | ((simp only [keep_mk]; apply Keep.upd) <;> try first | exact .inl (mask_bit hm rfl) | exact .inr rfl | exact fun h => h | exact rfl)
    | exact mask_sub hm rfl | exact rfl | split | intro _ _ _ | intro _ _

theorem keep_settleRun {t : Nat} {temp : Option Int} {s : State} (hm : 1686234632 &&& M = 1686234632) (h_s : Keep M s0 s) :
    Keep M s0 (settleRun t temp s) := by
  unfold settleRun
  try dsimp only
  repeat' first
    | (with_reducible first
      | assumption | apply Keep.ite | apply keep_takeTrigger | apply keep_setTile | apply keep_addProbe | apply keep_raiseProbe
      | apply keep_answerOrder | apply keep_judgeRun | apply keep_countRun | refine Keep.ofPair (by assumption) ?_
      | refine Keep.ofTriple (by assumption) ?_)
    | ((simp only [keep_mk]; apply Keep.upd) <;> try first | exact .inl (mask_bit hm rfl) | exact .inr rfl | exact fun h => h | exact rfl)
    | exact mask_sub hm rfl | exact rfl | split | intro _ _ _ | intro _ _

theorem keep_completeRun {t : Nat} {run : Run} {outcome : Nat} {hung : Bool} {r : ProbeResult} {s : State} (hm : 1686234632 &&& M = 1686234632) (h_s : Keep M s0 s) :
    Keep M s0 (completeRun t run outcome hung r s) := by
  unfold completeRun
  try dsimp only
  repeat' first
    | (with_reducible first
      | assumption | apply Keep.ite | apply keep_takeTrigger | apply keep_setTile | apply keep_fed | apply keep_settleRun)
    | ((simp only [keep_mk]; apply Keep.upd) <;> try first | exact .inl (mask_bit hm rfl) | exact .inr rfl | exact fun h => h | exact rfl)
    | exact mask_sub hm rfl | exact rfl | split | intro _ _ _ | intro _ _

theorem keep_execSensorAnswer {channel : Nat} {code : Nat} {s : State} (hm : 1686234664 &&& M = 1686234664) (h_s : Keep M s0 s) : KeepO M s0 (execSensorAnswer channel code s) := by
  unfold execSensorAnswer
  have hf := keep_sensorAnswer (channel := channel) (code := code) (mask_sub hm rfl) (keep_fresh (mask_sub hm rfl) h_s)
  dsimp only
  refine KeepO.ite (KeepO.next hf) (KeepO.next (Keep.foldl _ hf fun u t hu => Keep.ite (keep_settleRun (mask_sub hm rfl) hu) hu))

theorem keep_execProbeDone {tile : Nat} {result : ProbeResult} {s : State} (hm : 1687283228 &&& M = 1687283228) (h_s : Keep M s0 s) :
    KeepO M s0 (execProbeDone tile result s) := by
  unfold execProbeDone
  try dsimp only
  repeat' first
    | (with_reducible first
      | assumption | apply Keep.ite | apply KeepO.next | apply KeepO.ite | apply keep_fresh | apply keep_emit | apply keep_advanceTo
      | apply keep_setTile | apply keep_answerOrder | apply keep_completeRun | refine Keep.ofPair (by assumption) ?_
      | refine Keep.ofTriple (by assumption) ?_)
    | ((simp only [keep_mk]; apply Keep.upd) <;> try first | exact .inl (mask_bit hm rfl) | exact .inr rfl | exact fun h => h | exact rfl)
    | exact mask_sub hm rfl | exact rfl | split | intro _ _ _ | intro _ _

theorem keep_execProbeDurationExpiry {tile : Nat} {s : State} (hm : 537927700 &&& M = 537927700) (h_s : Keep M s0 s) :
    KeepO M s0 (execProbeDurationExpiry tile s) := by
  unfold execProbeDurationExpiry
  try dsimp only
  repeat' first
    | (with_reducible first
      | assumption | apply Keep.ite | apply KeepO.next | apply KeepO.ite | apply keep_fresh | apply keep_emit | apply keep_advanceTo
      | apply keep_setTile | refine Keep.ofPair (by assumption) ?_ | refine Keep.ofTriple (by assumption) ?_)
    | ((simp only [keep_mk]; apply Keep.upd) <;> try first | exact .inl (mask_bit hm rfl) | exact .inr rfl | exact fun h => h | exact rfl)
    | exact mask_sub hm rfl | exact rfl | split | intro _ _ _ | intro _ _

theorem keep_hungResult {run : Run} {s : State} (hm : 1073741824 &&& M = 1073741824) (h_s : Keep M s0 s) : Keep M s0 (hungResult run s).2 := by
  unfold hungResult
  try dsimp only
  repeat' first
    | (with_reducible first
      | assumption)
    | ((simp only [keep_mk]; apply Keep.upd) <;> try first | exact .inl (mask_bit hm rfl) | exact .inr rfl | exact fun h => h | exact rfl) | exact rfl

theorem keep_execProbeAbortTimeout {tile : Nat} {s : State} (hm : 1687283228 &&& M = 1687283228) (h_s : Keep M s0 s) :
    KeepO M s0 (execProbeAbortTimeout tile s) := by
  unfold execProbeAbortTimeout
  try dsimp only
  repeat' first
    | (with_reducible first
      | assumption | apply Keep.ite | apply KeepO.next | apply KeepO.ite | apply keep_fresh | apply keep_emit | apply keep_advanceTo
      | apply keep_setTile | apply keep_completeRun | apply keep_hungResult | refine Keep.ofPair (by assumption) ?_
      | refine Keep.ofTriple (by assumption) ?_)
    | ((simp only [keep_mk]; apply Keep.upd) <;> try first | exact .inl (mask_bit hm rfl) | exact .inr rfl | exact fun h => h | exact rfl)
    | exact mask_sub hm rfl | exact rfl | split | intro _ _ _ | intro _ _

theorem keep_execRetestLimitExpiry {tile : Nat} {s : State} (hm : 536929280 &&& M = 536929280) (h_s : Keep M s0 s) :
    KeepO M s0 (execRetestLimitExpiry tile s) := by
  unfold execRetestLimitExpiry
  try dsimp only
  repeat' first
    | (with_reducible first
      | assumption | apply Keep.ite | apply KeepO.next | apply KeepO.ite | apply keep_fresh | apply keep_unresolved
      | refine Keep.ofPair (by assumption) ?_ | refine Keep.ofTriple (by assumption) ?_)
    | ((simp only [keep_mk]; apply Keep.upd) <;> try first | exact .inl (mask_bit hm rfl) | exact .inr rfl | exact fun h => h | exact rfl)
    | exact mask_sub hm rfl | split

theorem keep_execProbeStarved {tile : Nat} {s : State} (hm : 536929280 &&& M = 536929280) (h_s : Keep M s0 s) :
    KeepO M s0 (execProbeStarved tile s) := by
  unfold execProbeStarved
  try dsimp only
  repeat' first
    | (with_reducible first
      | assumption | apply Keep.ite | apply KeepO.next | apply KeepO.ite | apply keep_fresh | apply keep_raiseOwn | apply keep_setTile)
    | ((simp only [keep_mk]; apply Keep.upd) <;> try first | exact .inl (mask_bit hm rfl) | exact .inr rfl | exact fun h => h | exact rfl)
    | exact mask_sub hm rfl | exact rfl | split | intro _ _ _ | intro _ _

theorem keep_execPassingRecordDrop {s : State} (hm : 536879112 &&& M = 536879112) (h_s : Keep M s0 s) :
    KeepO M s0 (execPassingRecordDrop s) := by
  unfold execPassingRecordDrop
  try dsimp only
  repeat' first
    | (with_reducible first
      | assumption | apply Keep.ite | apply KeepO.next | apply KeepO.ite | apply keep_fresh | apply keep_countDropped | apply Keep.foldl
      | apply Keep.foldlP)
    | ((simp only [keep_mk]; apply Keep.upd) <;> try first | exact .inl (mask_bit hm rfl) | exact .inr rfl | exact fun h => h | exact rfl)
    | exact mask_sub hm rfl | exact rfl | split | intro _ _ _ | intro _ _

theorem keep_execProbeRunTimeout {tile : Nat} {s : State} (hm : 612377600 &&& M = 612377600) (h_s : Keep M s0 s) :
    KeepO M s0 (execProbeRunTimeout tile s) := by
  unfold execProbeRunTimeout
  try dsimp only
  repeat' first
    | (with_reducible first
      | assumption | apply Keep.ite | apply KeepO.next | apply KeepO.ite | apply keep_fresh | apply keep_answerOrder
      | refine Keep.ofPair (by assumption) ?_ | refine Keep.ofTriple (by assumption) ?_)
    | ((simp only [keep_mk]; apply Keep.upd) <;> try first | exact .inl (mask_bit hm rfl) | exact .inr rfl | exact fun h => h | exact rfl)
    | exact mask_sub hm rfl | split

theorem keep_probesAtTick {s : State} (hm : 1686234632 &&& M = 1686234632) (h_s : Keep M s0 s) : Keep M s0 (probesAtTick s) := by
  unfold probesAtTick
  try dsimp only
  repeat' first
    | (with_reducible first
      | assumption | apply keep_setPrb | apply keep_settleRun | apply Keep.foldl | apply Keep.foldlP | refine Keep.ofPair (by assumption) ?_
      | refine Keep.ofTriple (by assumption) ?_)
    | ((simp only [keep_mk]; apply Keep.upd) <;> try first | exact .inl (mask_bit hm rfl) | exact .inr rfl | exact fun h => h | exact rfl)
    | exact mask_sub hm rfl | exact rfl | split | intro _ _ _ | intro _ _

theorem keep_activatePack {s : State} (hm : 536929280 &&& M = 536929280) (h_s : Keep M s0 s) : Keep M s0 (activatePack s) := by
  unfold activatePack
  try dsimp only
  repeat' first
    | (with_reducible first
      | assumption | apply Keep.ite | apply keep_setPrb | apply keep_unresolved | apply Keep.foldl | apply Keep.foldlP
      | refine Keep.ofPair (by assumption) ?_ | refine Keep.ofTriple (by assumption) ?_)
    | ((simp only [keep_mk]; apply Keep.upd) <;> try first | exact .inl (mask_bit hm rfl) | exact .inr rfl | exact fun h => h | exact rfl)
    | exact mask_sub hm rfl | exact rfl | split | intro _ _ _ | intro _ _

theorem keep_clearCoverage {s : State} (hm : 8192 &&& M = 8192) (h_s : Keep M s0 s) : Keep M s0 (clearCoverage s) := by
  unfold clearCoverage
  repeat' first
    | (with_reducible first
      | assumption | apply keep_setPrb)
    | ((simp only [keep_mk]; apply Keep.upd) <;> try first | exact .inl (mask_bit hm rfl) | exact .inr rfl | exact fun h => h | exact rfl)
    | exact mask_sub hm rfl | exact rfl | intro _ _ _ | intro _ _

theorem keep_tileOn {t : Nat} {on : Bool} {s : State} (hm : 8192 &&& M = 8192) (h_s : Keep M s0 s) : Keep M s0 (tileOn t on s) := by
  unfold tileOn
  repeat' first
    | (with_reducible first
      | assumption | apply Keep.ite | apply keep_setTile)
    | ((simp only [keep_mk]; apply Keep.upd) <;> try first | exact .inl (mask_bit hm rfl) | exact .inr rfl | exact fun h => h | exact rfl)
    | exact mask_sub hm rfl | exact rfl | split | intro _ _ _ | intro _ _

theorem keep_openInstall {r : Option Request} {img : Bytes} {f : Option Nat} {s : State} (hm : 532480 &&& M = 532480) (h_s : Keep M s0 s) :
    Keep M s0 (openInstall r img f s).2 := by
  unfold openInstall
  try dsimp only
  repeat' first
    | (with_reducible first
      | assumption | apply keep_jobOn | apply keep_setPrb | refine Keep.ofPair (by assumption) ?_ | refine Keep.ofTriple (by assumption) ?_)
    | ((simp only [keep_mk]; apply Keep.upd) <;> try first | exact .inl (mask_bit hm rfl) | exact .inr rfl | exact fun h => h | exact rfl)
    | exact mask_sub hm rfl | exact rfl | split | intro _ _ _ | intro _ _

theorem keep_sendPackOutcome {hash : Bytes} {status : Nat} {s : State} (hm : 536871936 &&& M = 536871936) (h_s : Keep M s0 s) :
    Keep M s0 (sendPackOutcome hash status s) := by
  unfold sendPackOutcome
  try dsimp only
  repeat' first
    | (with_reducible first
      | assumption | apply keep_nextSerial | apply keep_sendBulk | refine Keep.ofPair (by assumption) ?_ | refine Keep.ofTriple (by assumption) ?_)
    | exact mask_sub hm rfl | split

theorem keep_packDecoded {s : State} (hm : 746595328 &&& M = 746595328) (h_s : Keep M s0 s) : Keep M s0 (packDecoded s) := by
  unfold packDecoded
  try dsimp only
  repeat' first
    | (with_reducible first
      | assumption | apply keep_setPend | apply keep_finish | apply keep_setPrb | apply keep_sendPackOutcome | refine Keep.ofPair (by assumption) ?_
      | refine Keep.ofTriple (by assumption) ?_)
    | ((simp only [keep_mk]; apply Keep.upd) <;> try first | exact .inl (mask_bit hm rfl) | exact .inr rfl | exact fun h => h | exact rfl)
    | exact mask_sub hm rfl | exact rfl | split | intro _ _ _ | intro _ _

theorem keep_probeInstallPack {r : Request} {s : State} (hm : 17309696 &&& M = 17309696) (h_s : Keep M s0 s) :
    Keep M s0 (probeInstallPack r s).2 := by
  unfold probeInstallPack
  try dsimp only
  repeat' first
    | (with_reducible first
      | assumption | apply Keep.ite | apply keep_command | apply keep_setPrb | apply keep_openInstall
      | refine keep_takePiece_done (by assumption) ?_ ?_ ?_ | refine keep_takePiece_whole (by assumption) ?_ ?_ ?_
      | refine Keep.ofPair (by assumption) ?_ | refine Keep.ofTriple (by assumption) ?_)
    | ((simp only [keep_mk]; apply Keep.upd) <;> try first | exact .inl (mask_bit hm rfl) | exact .inr rfl | exact fun h => h | exact rfl)
    | exact mask_sub hm rfl | exact rfl | split | intro _ _ _ | intro _ _

theorem keep_execProbeInstallPack {r : Request} {s : State} (hm : 630727700 &&& M = 630727700) (h_s : Keep M s0 s) :
    KeepO M s0 (execProbeInstallPack r s) := by
  unfold execProbeInstallPack
  repeat' first
    | (with_reducible first
      | assumption | apply KeepO.next | apply KeepO.ite | apply keep_begin_ | apply keep_finish | apply keep_probeInstallPack
      | refine Keep.ofPair (by assumption) ?_ | refine Keep.ofTriple (by assumption) ?_)
    | ((simp only [keep_mk]; apply Keep.upd) <;> try first | exact .inl (mask_bit hm rfl) | exact .inr rfl | exact fun h => h | exact rfl)
    | exact mask_sub hm rfl | split

theorem keep_setPush {hash : Bytes} {f : Push → Push} {s : State} (hm : 8192 &&& M = 8192) (h_s : Keep M s0 s) :
    Keep M s0 (setPush hash f s) := by
  unfold setPush
  repeat' first
    | (with_reducible first
      | assumption | apply Keep.ite | apply keep_setPrb)
    | ((simp only [keep_mk]; apply Keep.upd) <;> try first | exact .inl (mask_bit hm rfl) | exact .inr rfl | exact fun h => h | exact rfl)
    | exact mask_sub hm rfl | exact rfl | split | intro _ _ _ | intro _ _

theorem keep_pushOne {hash : Bytes} {s : State} (hm : 536880128 &&& M = 536880128) (h_s : Keep M s0 s) : Keep M s0 (pushOne hash s) := by
  unfold pushOne
  try dsimp only
  repeat' first
    | (with_reducible first
      | assumption | apply Keep.ite | apply keep_nextSerial | apply keep_sendBulk | apply keep_setPush | apply Keep.foldl | apply Keep.foldlP
      | refine Keep.ofPair (by assumption) ?_ | refine Keep.ofTriple (by assumption) ?_)
    | ((simp only [keep_mk]; apply Keep.upd) <;> try first | exact .inl (mask_bit hm rfl) | exact .inr rfl | exact fun h => h | exact rfl)
    | exact mask_sub hm rfl | exact rfl | split | intro _ _ _ | intro _ _

theorem keep_pushOn {s : State} (hm : 536880128 &&& M = 536880128) (h_s : Keep M s0 s) : Keep M s0 (pushOn s) := by
  unfold pushOn
  repeat' first
    | (with_reducible first
      | assumption | apply keep_pushOne | apply Keep.foldl | apply Keep.foldlP)
    | exact mask_sub hm rfl | intro _ _ _ | intro _ _

theorem keep_startPush {source : Option Nat} {f : Option Nat} {img : Bytes} {s : State} (hm : 536880128 &&& M = 536880128) (h_s : Keep M s0 s) :
    Keep M s0 (startPush source f img s) := by
  unfold startPush
  try dsimp only
  repeat' first
    | (with_reducible first
      | assumption | apply keep_setPrb | apply keep_pushOn)
    | ((simp only [keep_mk]; apply Keep.upd) <;> try first | exact .inl (mask_bit hm rfl) | exact .inr rfl | exact fun h => h | exact rfl)
    | exact mask_sub hm rfl | exact rfl | intro _ _ _ | intro _ _

theorem keep_takePack {f : Option Nat} {img : Bytes} {s : State} (hm : 537404416 &&& M = 537404416) (h_s : Keep M s0 s) :
    Keep M s0 (takePack f img s) := by
  unfold takePack
  try dsimp only
  repeat' first
    | (with_reducible first
      | assumption | apply Keep.ite | apply keep_openInstall | apply keep_sendPackOutcome | refine Keep.ofPair (by assumption) ?_
      | refine Keep.ofTriple (by assumption) ?_)
    | ((simp only [keep_mk]; apply Keep.upd) <;> try first | exact .inl (mask_bit hm rfl) | exact .inr rfl | exact fun h => h | exact rfl)
    | exact mask_sub hm rfl | split

theorem keep_execProbePackArrival {door : Nat} {item : Bytes} {s : State} (hm : 537404416 &&& M = 537404416) (h_s : Keep M s0 s) :
    KeepO M s0 (execProbePackArrival door item s) := by
  unfold execProbePackArrival
  try dsimp only
  repeat' first
    | (with_reducible first
      | assumption | apply Keep.ite | apply KeepO.next | apply KeepO.ite | apply keep_fresh | apply keep_malformedOn | apply keep_startPush
      | apply keep_takePack)
    | exact mask_sub hm rfl | split

theorem keep_execPackOutcomeArrival {door : Nat} {item : Bytes} {s : State} (hm : 536880128 &&& M = 536880128) (h_s : Keep M s0 s) :
    KeepO M s0 (execPackOutcomeArrival door item s) := by
  unfold execPackOutcomeArrival
  try dsimp only
  repeat' first
    | (with_reducible first
      | assumption | apply Keep.ite | apply KeepO.next | apply KeepO.ite | apply keep_fresh | apply keep_nextSerial | apply keep_sendBulk
      | apply keep_malformedOn | apply keep_setPush | apply Keep.foldl | apply Keep.foldlP | refine Keep.ofPair (by assumption) ?_
      | refine Keep.ofTriple (by assumption) ?_)
    | ((simp only [keep_mk]; apply Keep.upd) <;> try first | exact .inl (mask_bit hm rfl) | exact .inr rfl | exact fun h => h | exact rfl)
    | exact mask_sub hm rfl | exact rfl | split | intro _ _ _ | intro _ _

theorem keep_probePushPack {r : Request} {s : State} (hm : 553657344 &&& M = 553657344) (h_s : Keep M s0 s) :
    Keep M s0 (probePushPack r s).2 := by
  unfold probePushPack
  try dsimp only
  repeat' first
    | (with_reducible first
      | assumption | apply Keep.ite | apply keep_command | apply keep_startPush | refine keep_takePiece_done (by assumption) ?_ ?_ ?_
      | refine keep_takePiece_whole (by assumption) ?_ ?_ ?_ | refine Keep.ofPair (by assumption) ?_ | refine Keep.ofTriple (by assumption) ?_)
    | ((simp only [keep_mk]; apply Keep.upd) <;> try first | exact .inl (mask_bit hm rfl) | exact .inr rfl | exact fun h => h | exact rfl)
    | exact mask_sub hm rfl | exact rfl | split | intro _ _ _ | intro _ _

theorem keep_execProbePushPack {r : Request} {s : State} (hm : 630203412 &&& M = 630203412) (h_s : Keep M s0 s) :
    KeepO M s0 (execProbePushPack r s) := by
  unfold execProbePushPack
  repeat' first
    | (with_reducible first
      | assumption | apply KeepO.next | apply KeepO.ite | apply keep_begin_ | apply keep_finish | apply keep_probePushPack)
    | exact mask_sub hm rfl

theorem keep_probeEndPush {r : Request} {s : State} (hm : 8192 &&& M = 8192) (h_s : Keep M s0 s) : Keep M s0 (probeEndPush r s).2 := by
  unfold probeEndPush
  repeat' first
    | (with_reducible first
      | assumption | apply Keep.ite | apply keep_command | apply keep_setPrb)
    | ((simp only [keep_mk]; apply Keep.upd) <;> try first | exact .inl (mask_bit hm rfl) | exact .inr rfl | exact fun h => h | exact rfl)
    | exact mask_sub hm rfl | exact rfl | split | intro _ _ _ | intro _ _

theorem keep_execProbeEndPush {r : Request} {s : State} (hm : 613426196 &&& M = 613426196) (h_s : Keep M s0 s) :
    KeepO M s0 (execProbeEndPush r s) := by
  unfold execProbeEndPush
  repeat' first
    | (with_reducible first
      | assumption | apply KeepO.next | apply KeepO.ite | apply keep_begin_ | apply keep_finish | apply keep_probeEndPush)
    | exact mask_sub hm rfl

theorem keep_probeGetPush {r : Request} {s : State} (hm : 0 &&& M = 0) (h_s : Keep M s0 s) : Keep M s0 (probeGetPush r s).2 := by
  unfold probeGetPush
  try dsimp only
  repeat' first
    | (with_reducible first
      | assumption | apply Keep.ite | apply keep_command)
    | ((simp only [keep_mk]; apply Keep.upd) <;> try first | exact .inl (mask_bit hm rfl) | exact .inr rfl | exact fun h => h | exact rfl)
    | exact mask_sub hm rfl | exact rfl | split | intro _ _ _ | intro _ _

theorem keep_execProbeGetPush {r : Request} {s : State} (hm : 613418004 &&& M = 613418004) (h_s : Keep M s0 s) :
    KeepO M s0 (execProbeGetPush r s) := by
  unfold execProbeGetPush
  repeat' first
    | (with_reducible first
      | assumption | apply KeepO.next | apply KeepO.ite | apply keep_begin_ | apply keep_finish | apply keep_probeGetPush)
    | exact mask_sub hm rfl

theorem keep_probeActivatePack {r : Request} {s : State} (hm : 134217728 &&& M = 134217728) (h_s : Keep M s0 s) :
    Keep M s0 (probeActivatePack r s).2 := by
  unfold probeActivatePack
  repeat' first
    | (with_reducible first
      | assumption | apply Keep.ite | apply keep_command | apply keep_defer)
    | ((simp only [keep_mk]; apply Keep.upd) <;> try first | exact .inl (mask_bit hm rfl) | exact .inr rfl | exact fun h => h | exact rfl)
    | exact mask_sub hm rfl | exact rfl | split | intro _ _ _ | intro _ _

theorem keep_execProbeActivatePack {r : Request} {s : State} (hm : 747635732 &&& M = 747635732) (h_s : Keep M s0 s) :
    KeepO M s0 (execProbeActivatePack r s) := by
  unfold execProbeActivatePack
  repeat' first
    | (with_reducible first
      | assumption | apply KeepO.next | apply KeepO.ite | apply keep_begin_ | apply keep_finish | apply keep_probeActivatePack)
    | exact mask_sub hm rfl

theorem keep_probeSet {r : Request} {s : State} (hm : 134217728 &&& M = 134217728) (h_s : Keep M s0 s) : Keep M s0 (probeSet r s).2 := by
  unfold probeSet
  try dsimp only
  repeat' first
    | (with_reducible first
      | assumption | apply Keep.ite | apply keep_command | apply keep_defer)
    | ((simp only [keep_mk]; apply Keep.upd) <;> try first | exact .inl (mask_bit hm rfl) | exact .inr rfl | exact fun h => h | exact rfl)
    | exact mask_sub hm rfl | exact rfl | split | intro _ _ _ | intro _ _

theorem keep_execProbeSet {r : Request} {s : State} (hm : 747635732 &&& M = 747635732) (h_s : Keep M s0 s) :
    KeepO M s0 (execProbeSet r s) := by
  unfold execProbeSet
  repeat' first
    | (with_reducible first
      | assumption | apply KeepO.next | apply KeepO.ite | apply keep_begin_ | apply keep_finish | apply keep_probeSet)
    | exact mask_sub hm rfl

theorem keep_probeGet {r : Request} {s : State} (hm : 0 &&& M = 0) (h_s : Keep M s0 s) : Keep M s0 (probeGet r s).2 := by
  unfold probeGet
  try dsimp only
  repeat' first
    | (with_reducible first
      | assumption | apply keep_command | apply keep_probeSet | refine Keep.ofPair (by assumption) ?_ | refine Keep.ofTriple (by assumption) ?_)
    | ((simp only [keep_mk]; apply Keep.upd) <;> try first | exact .inl (mask_bit hm rfl) | exact .inr rfl | exact fun h => h | exact rfl | exact fun h => PendDistinct.filter h _)
    | exact mask_sub hm rfl | exact rfl | split | intro _ _ _ | intro _ _

theorem keep_execProbeGet {r : Request} {s : State} (hm : 613418004 &&& M = 613418004) (h_s : Keep M s0 s) :
    KeepO M s0 (execProbeGet r s) := by
  unfold execProbeGet
  repeat' first
    | (with_reducible first
      | assumption | apply KeepO.next | apply KeepO.ite | apply keep_begin_ | apply keep_finish | apply keep_probeGet)
    | exact mask_sub hm rfl

theorem keep_probeGetCoverage {r : Request} {s : State} (hm : 0 &&& M = 0) (h_s : Keep M s0 s) : Keep M s0 (probeGetCoverage r s).2 := by
  unfold probeGetCoverage
  try dsimp only
  repeat' first
    | (with_reducible first
      | assumption | apply Keep.ite | apply keep_command)
    | ((simp only [keep_mk]; apply Keep.upd) <;> try first | exact .inl (mask_bit hm rfl) | exact .inr rfl | exact fun h => h | exact rfl)
    | exact mask_sub hm rfl | exact rfl | split | intro _ _ _ | intro _ _

theorem keep_execProbeGetCoverage {r : Request} {s : State} (hm : 613418004 &&& M = 613418004) (h_s : Keep M s0 s) :
    KeepO M s0 (execProbeGetCoverage r s) := by
  unfold execProbeGetCoverage
  repeat' first
    | (with_reducible first
      | assumption | apply KeepO.next | apply KeepO.ite | apply keep_begin_ | apply keep_finish | apply keep_probeGetCoverage)
    | exact mask_sub hm rfl

theorem keep_probeClearCoverage {r : Request} {s : State} (hm : 134217728 &&& M = 134217728) (h_s : Keep M s0 s) :
    Keep M s0 (probeClearCoverage r s).2 := by
  unfold probeClearCoverage
  repeat' first
    | (with_reducible first
      | assumption | apply keep_command | apply keep_defer | apply keep_clearCoverage)
    | ((simp only [keep_mk]; apply Keep.upd) <;> try first | exact .inl (mask_bit hm rfl) | exact .inr rfl | exact fun h => h | exact rfl)
    | exact mask_sub hm rfl | exact rfl | intro _ _ _ | intro _ _

theorem keep_execProbeClearCoverage {r : Request} {s : State} (hm : 747635732 &&& M = 747635732) (h_s : Keep M s0 s) :
    KeepO M s0 (execProbeClearCoverage r s) := by
  unfold execProbeClearCoverage
  repeat' first
    | (with_reducible first
      | assumption | apply KeepO.next | apply KeepO.ite | apply keep_begin_ | apply keep_finish | apply keep_probeClearCoverage)
    | exact mask_sub hm rfl

theorem keep_deferTile {code : Nat} {t : Nat} {f : Nat} {on : Bool} {s : State} (hm : 134217728 &&& M = 134217728) (h_s : Keep M s0 s) :
    Keep M s0 (deferTile code t f on s).2 := by
  unfold deferTile
  try dsimp only
  repeat' first
    | (with_reducible first
      | assumption | apply Keep.ite | apply keep_setPend | apply keep_dropPend | apply keep_tileOn)
    | ((simp only [keep_mk]; apply Keep.upd) <;> try first | exact .inl (mask_bit hm rfl) | exact .inr rfl | exact fun h => h | exact rfl | exact fun h => PendDistinct.filter h _)
    | exact mask_sub hm rfl | exact rfl | split | intro _ _ _ | intro _ _

theorem keep_probeDisableTile {r : Request} {s : State} (hm : 134217728 &&& M = 134217728) (h_s : Keep M s0 s) :
    Keep M s0 (probeDisableTile r s).2 := by
  unfold probeDisableTile
  repeat' first
    | (with_reducible first
      | assumption | apply Keep.ite | apply keep_command | apply keep_deferTile)
    | ((simp only [keep_mk]; apply Keep.upd) <;> try first | exact .inl (mask_bit hm rfl) | exact .inr rfl | exact fun h => h | exact rfl)
    | exact mask_sub hm rfl | exact rfl | split | intro _ _ _ | intro _ _

theorem keep_execProbeDisableTile {r : Request} {s : State} (hm : 747635732 &&& M = 747635732) (h_s : Keep M s0 s) :
    KeepO M s0 (execProbeDisableTile r s) := by
  unfold execProbeDisableTile
  repeat' first
    | (with_reducible first
      | assumption | apply KeepO.next | apply KeepO.ite | apply keep_begin_ | apply keep_finish | apply keep_probeDisableTile)
    | exact mask_sub hm rfl

theorem keep_probeResumeTile {r : Request} {s : State} (hm : 134217728 &&& M = 134217728) (h_s : Keep M s0 s) :
    Keep M s0 (probeResumeTile r s).2 := by
  unfold probeResumeTile
  try dsimp only
  repeat' first
    | (with_reducible first
      | assumption | apply Keep.ite | apply keep_command | apply keep_deferTile)
    | ((simp only [keep_mk]; apply Keep.upd) <;> try first | exact .inl (mask_bit hm rfl) | exact .inr rfl | exact fun h => h | exact rfl)
    | exact mask_sub hm rfl | exact rfl | split | intro _ _ _ | intro _ _

theorem keep_execProbeResumeTile {r : Request} {s : State} (hm : 747635732 &&& M = 747635732) (h_s : Keep M s0 s) :
    KeepO M s0 (execProbeResumeTile r s) := by
  unfold execProbeResumeTile
  repeat' first
    | (with_reducible first
      | assumption | apply KeepO.next | apply KeepO.ite | apply keep_begin_ | apply keep_finish | apply keep_probeResumeTile)
    | exact mask_sub hm rfl

theorem keep_probeRun {r : Request} {s : State} (hm : 8192 &&& M = 8192) (h_s : Keep M s0 s) : Keep M s0 (probeRun r s).2 := by
  unfold probeRun
  try dsimp only
  repeat' first
    | (with_reducible first
      | assumption | apply Keep.ite | apply keep_command | apply keep_setTile | refine Keep.ofPair (by assumption) ?_
      | refine Keep.ofTriple (by assumption) ?_)
    | ((simp only [keep_mk]; apply Keep.upd) <;> try first | exact .inl (mask_bit hm rfl) | exact .inr rfl | exact fun h => h | exact rfl)
    | exact mask_sub hm rfl | exact rfl | split | intro _ _ _ | intro _ _

theorem keep_execProbeRun {r : Request} {s : State} (hm : 613426196 &&& M = 613426196) (h_s : Keep M s0 s) :
    KeepO M s0 (execProbeRun r s) := by
  unfold execProbeRun
  repeat' first
    | (with_reducible first
      | assumption | apply KeepO.next | apply KeepO.ite | apply keep_begin_ | apply keep_finish | apply keep_probeRun
      | refine Keep.ofPair (by assumption) ?_ | refine Keep.ofTriple (by assumption) ?_)
    | ((simp only [keep_mk]; apply Keep.upd) <;> try first | exact .inl (mask_bit hm rfl) | exact .inr rfl | exact fun h => h | exact rfl)
    | exact mask_sub hm rfl | split

end Sys2Proof.Machine
end

