-- ==== Sys2Proof/Laws/KeepDump.lean ====
section
/-! SUPPORT. What the operations of Machine/Dump.lean keep (`Keep`, Laws/Keep.lean): one lemma per operation. -/
namespace Sys2Proof.Machine

set_option linter.unusedSimpArgs false
set_option linter.unusedVariables false

variable {M : Nat} {s0 : State}

theorem keep_dumpNext {s : State} (hm : 537658368 &&& M = 537658368) (h_s : Keep M s0 s) : Keep M s0 (dumpNext s) := by
  unfold dumpNext
  try dsimp only
  repeat' first
    | (with_reducible first
      | assumption | apply Keep.ite | apply keep_jobOn | apply keep_setSht | apply keep_sendImage | refine Keep.ofPair (by assumption) ?_
      | refine Keep.ofTriple (by assumption) ?_)
    | ((simp only [keep_mk]; apply Keep.upd) <;> try first | exact .inl (mask_bit hm rfl) | exact .inr rfl | exact fun h => h | exact rfl)
    | exact mask_sub hm rfl | exact rfl | split | intro _ _ _ | intro _ _

theorem keep_dumpItemDone {s : State} (hm : 537658368 &&& M = 537658368) (h_s : Keep M s0 s) : Keep M s0 (dumpItemDone s) := by
  unfold dumpItemDone
  repeat' first
    | (with_reducible first
      | assumption | apply keep_setSht | apply keep_dumpNext | refine Keep.ofPair (by assumption) ?_ | refine Keep.ofTriple (by assumption) ?_)
    | ((simp only [keep_mk]; apply Keep.upd) <;> try first | exact .inl (mask_bit hm rfl) | exact .inr rfl | exact fun h => h | exact rfl)
    | exact mask_sub hm rfl | exact rfl | split | intro _ _ _ | intro _ _

theorem keep_dumpSkipped {s : State} (hm : 262144 &&& M = 262144) (h_s : Keep M s0 s) : Keep M s0 (dumpSkipped s) := by
  unfold dumpSkipped
  repeat' first
    | (with_reducible first
      | assumption | apply keep_setSht)
    | ((simp only [keep_mk]; apply Keep.upd) <;> try first | exact .inl (mask_bit hm rfl) | exact .inr rfl | exact fun h => h | exact rfl)
    | exact mask_sub hm rfl | exact rfl | intro _ _ _ | intro _ _

theorem keep_dumpAtTick {s : State} (hm : 537658368 &&& M = 537658368) (h_s : Keep M s0 s) : Keep M s0 (dumpAtTick s) := by
  unfold dumpAtTick
  try dsimp only
  repeat' first
    | (with_reducible first
      | assumption | apply Keep.ite | apply keep_emit | apply keep_setSht | apply keep_dumpNext | apply keep_dumpSkipped)
    | ((simp only [keep_mk]; apply Keep.upd) <;> try first | exact .inl (mask_bit hm rfl) | exact .inr rfl | exact fun h => h | exact rfl)
    | exact mask_sub hm rfl | exact rfl | split | intro _ _ _ | intro _ _

theorem keep_liveEnd {output : List Bytes} {s : State} (hm : 537658368 &&& M = 537658368) (h_s : Keep M s0 s) :
    Keep M s0 (liveEnd output s) := by
  unfold liveEnd
  try dsimp only
  repeat' first
    | (with_reducible first
      | assumption | apply Keep.ite | apply keep_emits | apply keep_setSht | apply keep_dumpNext | apply keep_dumpSkipped)
    | ((simp only [keep_mk]; apply Keep.upd) <;> try first | exact .inl (mask_bit hm rfl) | exact .inr rfl | exact fun h => h | exact rfl)
    | exact mask_sub hm rfl | exact rfl | split | intro _ _ _ | intro _ _

theorem keep_execScanEnd {output : List Bytes} {s : State} (hm : 537662464 &&& M = 537662464) (h_s : Keep M s0 s) :
    KeepO M s0 (execScanEnd output s) := by
  unfold execScanEnd
  try dsimp only
  repeat' first
    | (with_reducible first
      | assumption | apply Keep.ite | apply KeepO.next | apply KeepO.ite | apply keep_fresh | apply keep_scanOn | apply keep_liveEnd)
    | exact mask_sub hm rfl | split

theorem keep_execHangDeclared {s : State} (hm : 1612002816 &&& M = 1612002816) (h_s : Keep M s0 s) : KeepO M s0 (execHangDeclared s) := by
  unfold execHangDeclared
  try dsimp only
  repeat' first
    | (with_reducible first
      | assumption | apply Keep.ite | apply KeepO.next | apply KeepO.ite | apply keep_fresh | apply keep_ownEntry | apply keep_setSht
      | apply keep_immediateStop | apply keep_hangCount | refine Keep.ofPair (by assumption) ?_ | refine Keep.ofTriple (by assumption) ?_)
    | ((simp only [keep_mk]; apply Keep.upd) <;> try first | exact .inl (mask_bit hm rfl) | exact .inr rfl | exact fun h => h | exact rfl)
    | exact mask_sub hm rfl | exact rfl | split | intro _ _ _ | intro _ _

theorem keep_jobEnded {k : Nat} {s : State} (hm : 747381760 &&& M = 747381760) (h_s : Keep M s0 s) : Keep M s0 (jobEnded k s) := by
  unfold jobEnded
  repeat' first
    | (with_reducible first
      | assumption | apply Keep.ite | apply keep_testEnded | apply keep_scanStreamEnded | apply keep_packDecoded | apply keep_dumpItemDone
      | refine Keep.ofPair (by assumption) ?_ | refine Keep.ofTriple (by assumption) ?_)
    | ((simp only [keep_mk]; apply Keep.upd) <;> try first | exact .inl (mask_bit hm rfl) | exact .inr rfl | exact fun h => h | exact rfl)
    | exact mask_sub hm rfl | split

theorem keep_execCodecBlock {s : State} (hm : 747381760 &&& M = 747381760) (h_s : Keep M s0 s) : KeepO M s0 (execCodecBlock s) := by
  unfold execCodecBlock
  try dsimp only
  repeat' first
    | (with_reducible first
      | assumption | apply Keep.ite | apply KeepO.next | apply KeepO.ite | apply keep_fresh | apply keep_engineStep | apply keep_jobEnded
      | refine Keep.ofPair (by assumption) ?_ | refine Keep.ofTriple (by assumption) ?_)
    | ((simp only [keep_mk]; apply Keep.upd) <;> try first | exact .inl (mask_bit hm rfl) | exact .inr rfl | exact fun h => h | exact rfl)
    | exact mask_sub hm rfl | split

end Sys2Proof.Machine
end

