-- ==== Sys2Proof/Laws/KeepAudit.lean ====
section
/-! SUPPORT. What the operations of Machine/Audit.lean keep (`Keep`, Laws/Keep.lean): one lemma per operation. -/
namespace Sys2Proof.Machine

set_option linter.unusedSimpArgs false
set_option linter.unusedVariables false

variable {M : Nat} {s0 : State}

theorem keep_execMirrorEntrySend {s : State} (hm : 537920512 &&& M = 537920512) (h_s : Keep M s0 s) : KeepO M s0 (execMirrorEntrySend s) := by
  unfold execMirrorEntrySend
  try dsimp only
  repeat' first
    | (with_reducible first
      | assumption | apply Keep.ite | apply KeepO.next | apply KeepO.ite | apply keep_fresh | apply keep_nextSerial | apply keep_sendBulk
      | refine Keep.ofPair (by assumption) ?_ | refine Keep.ofTriple (by assumption) ?_)
    | ((simp only [keep_mk]; apply Keep.upd) <;> try first | exact .inl (mask_bit hm rfl) | exact .inr rfl | exact fun h => h | exact rfl | exact fun h => ⟨h.1, h.2, h.3, h.4⟩)
    | exact mask_sub hm rfl | exact rfl | split

theorem keep_execRecorderMirrorArrival {door : Nat} {item : Bytes} {s : State} (hm : 538969088 &&& M = 538969088) (h_s : Keep M s0 s) :
    KeepO M s0 (execRecorderMirrorArrival door item s) := by
  unfold execRecorderMirrorArrival
  try dsimp only
  repeat' first
    | (with_reducible first
      | assumption | apply Keep.ite | apply KeepO.next | apply KeepO.ite | apply keep_fresh | apply keep_malformedOn | apply keep_mirrorTake)
    | exact mask_sub hm rfl | split

theorem keep_setAud {f : Audit → Audit} {s : State} (hm : 4194304 &&& M = 4194304) (h_s : Keep M s0 s) : Keep M s0 (setAud f s) := by
  unfold setAud
  repeat' first
    | (with_reducible first
      | assumption)
    | ((simp only [keep_mk]; apply Keep.upd) <;> try first | exact .inl (mask_bit hm rfl) | exact .inr rfl | exact fun h => h | exact rfl) | exact rfl

theorem keep_execAuditTransfer {channel : Nat} {data : Bytes} {s : State} (hm : 541065216 &&& M = 541065216) (h_s : Keep M s0 s) :
    KeepO M s0 (execAuditTransfer channel data s) := by
  unfold execAuditTransfer
  try dsimp only
  repeat' first
    | (with_reducible first
      | assumption | apply Keep.ite | apply KeepO.next | apply KeepO.ite | apply keep_fresh | apply keep_setAud)
    | ((simp only [keep_mk]; apply Keep.upd) <;> try first | exact .inl (mask_bit hm rfl) | exact .inr rfl | exact fun h => h | exact rfl)
    | exact mask_sub hm rfl | exact rfl | split | intro _ _ _ | intro _ _

theorem keep_execAuditLoss {channels : BitVec 16} {s : State} (hm : 541065216 &&& M = 541065216) (h_s : Keep M s0 s) :
    KeepO M s0 (execAuditLoss channels s) := by
  unfold execAuditLoss
  try dsimp only
  repeat' first
    | (with_reducible first
      | assumption | apply Keep.ite | apply KeepO.next | apply KeepO.ite | apply keep_fresh | apply keep_setAud)
    | ((simp only [keep_mk]; apply Keep.upd) <;> try first | exact .inl (mask_bit hm rfl) | exact .inr rfl | exact fun h => h | exact rfl)
    | exact mask_sub hm rfl | exact rfl | split | intro _ _ _ | intro _ _

theorem keep_auditAtTick {tag : Word} {n : Nat} {transition : Bool} {s : State} (hm : 541066240 &&& M = 541066240) (h_s : Keep M s0 s) :
    Keep M s0 (auditAtTick tag n transition s) := by
  unfold auditAtTick
  try dsimp only
  repeat' first
    | (with_reducible first
      | assumption | apply Keep.ite | apply keep_nextSerial | apply keep_sendBulk | apply keep_setAud | refine Keep.ofPair (by assumption) ?_
      | refine Keep.ofTriple (by assumption) ?_)
    | ((simp only [keep_mk]; apply Keep.upd) <;> try first | exact .inl (mask_bit hm rfl) | exact .inr rfl | exact fun h => h | exact rfl)
    | exact mask_sub hm rfl | exact rfl | split | intro _ _ _ | intro _ _

theorem keep_startAudit {a : AuditSet} {f : Nat} {s : State} (hm : 4194304 &&& M = 4194304) (h_s : Keep M s0 s) :
    Keep M s0 (startAudit a f s) := by
  unfold startAudit
  try dsimp only
  repeat' first
    | (with_reducible first
      | assumption | apply keep_setAud)
    | ((simp only [keep_mk]; apply Keep.upd) <;> try first | exact .inl (mask_bit hm rfl) | exact .inr rfl | exact fun h => h | exact rfl)
    | exact mask_sub hm rfl | exact rfl | intro _ _ _ | intro _ _

theorem keep_putKey {k : AuditKey} {s : State} (hm : 4194304 &&& M = 4194304) (h_s : Keep M s0 s) : Keep M s0 (putKey k s) := by
  unfold putKey
  repeat' first
    | (with_reducible first
      | assumption | apply Keep.ite | apply keep_setAud)
    | ((simp only [keep_mk]; apply Keep.upd) <;> try first | exact .inl (mask_bit hm rfl) | exact .inr rfl | exact fun h => h | exact rfl)
    | exact mask_sub hm rfl | exact rfl | split | intro _ _ _ | intro _ _

theorem keep_sendNode {k : AuditKey} {s : State} (hm : 536871936 &&& M = 536871936) (h_s : Keep M s0 s) : Keep M s0 (sendNode k s) := by
  unfold sendNode
  try dsimp only
  repeat' first
    | (with_reducible first
      | assumption | apply keep_nextSerial | apply keep_sendBulk | apply Keep.foldl | apply Keep.foldlP | refine Keep.ofPair (by assumption) ?_
      | refine Keep.ofTriple (by assumption) ?_)
    | ((simp only [keep_mk]; apply Keep.upd) <;> try first | exact .inl (mask_bit hm rfl) | exact .inr rfl | exact fun h => h | exact rfl)
    | exact mask_sub hm rfl | split | intro _ _ _ | intro _ _

theorem keep_closeKey {k : AuditKey} {s : State} (hm : 541066240 &&& M = 541066240) (h_s : Keep M s0 s) : Keep M s0 (closeKey k s) := by
  unfold closeKey
  try dsimp only
  repeat' first
    | (with_reducible first
      | assumption | apply Keep.ite | apply keep_setAud | apply keep_putKey | apply keep_sendNode)
    | ((simp only [keep_mk]; apply Keep.upd) <;> try first | exact .inl (mask_bit hm rfl) | exact .inr rfl | exact fun h => h | exact rfl)
    | exact mask_sub hm rfl | exact rfl | split | intro _ _ _ | intro _ _

theorem keep_execAuditClose {tag : Word} {sealFrame : Nat} {s : State} (hm : 541066240 &&& M = 541066240) (h_s : Keep M s0 s) :
    KeepO M s0 (execAuditClose tag sealFrame s) := by
  unfold execAuditClose
  try dsimp only
  repeat' first
    | (with_reducible first
      | assumption | apply Keep.ite | apply KeepO.next | apply KeepO.ite | apply keep_fresh | apply keep_closeKey
      | refine Keep.ofPair (by assumption) ?_ | refine Keep.ofTriple (by assumption) ?_)
    | ((simp only [keep_mk]; apply Keep.upd) <;> try first | exact .inl (mask_bit hm rfl) | exact .inr rfl | exact fun h => h | exact rfl)
    | exact mask_sub hm rfl | split

theorem keep_withKey {s : State} {tag : Word} {f : Nat} {act : AuditKey → State → State} (hm : 541066240 &&& M = 541066240) (h_s : Keep M s0 s)
    (ha : ∀ k t, Keep M s0 t → Keep M s0 (act k t)) : Keep M s0 (withKey tag f act s) := by
  unfold withKey
  dsimp only
  repeat' first
    | (with_reducible first | assumption | apply Keep.ite | apply keep_setAud | apply keep_closeKey | apply ha)
    | exact mask_sub hm rfl | split

theorem keep_placeLeaf {leaf : Nat} {node : Bytes} {dies : Nat} {tiles : Nat} {late : Nat} {k : AuditKey} {s : State} (hm : 541066240 &&& M = 541066240) (h_s : Keep M s0 s) :
    Keep M s0 (placeLeaf leaf node dies tiles late k s) := by
  unfold placeLeaf
  try dsimp only
  repeat' first
    | (with_reducible first
      | assumption | apply Keep.ite | apply keep_setAud | apply keep_putKey | apply keep_sendNode)
    | ((simp only [keep_mk]; apply Keep.upd) <;> try first | exact .inl (mask_bit hm rfl) | exact .inr rfl | exact fun h => h | exact rfl)
    | exact mask_sub hm rfl | exact rfl | split | intro _ _ _ | intro _ _

theorem keep_execAuditRecordArrival {door : Nat} {item : Bytes} {s : State} (hm : 541066240 &&& M = 541066240) (h_s : Keep M s0 s) :
    KeepO M s0 (execAuditRecordArrival door item s) := by
  unfold execAuditRecordArrival
  try dsimp only
  repeat' first
    | (with_reducible first
      | assumption | apply Keep.ite | apply KeepO.next | apply KeepO.ite | apply keep_fresh | apply keep_malformedOn | apply keep_withKey
      | apply keep_placeLeaf)
    | ((simp only [keep_mk]; apply Keep.upd) <;> try first | exact .inl (mask_bit hm rfl) | exact .inr rfl | exact fun h => h | exact rfl)
    | exact mask_sub hm rfl | split | intro _ _ _ | intro _ _

theorem keep_execAuditNodeArrival {door : Nat} {item : Bytes} {s : State} (hm : 541066240 &&& M = 541066240) (h_s : Keep M s0 s) :
    KeepO M s0 (execAuditNodeArrival door item s) := by
  unfold execAuditNodeArrival
  try dsimp only
  repeat' first
    | (with_reducible first
      | assumption | apply Keep.ite | apply KeepO.next | apply KeepO.ite | apply keep_fresh | apply keep_malformedOn | apply keep_withKey
      | apply keep_placeLeaf)
    | ((simp only [keep_mk]; apply Keep.upd) <;> try first | exact .inl (mask_bit hm rfl) | exact .inr rfl | exact fun h => h | exact rfl)
    | exact mask_sub hm rfl | split | intro _ _ _ | intro _ _

theorem keep_hshGet {r : Request} {s : State} (hm : 1073741824 &&& M = 1073741824) (h_s : Keep M s0 s) : Keep M s0 (hshGet r s).2 := by
  unfold hshGet
  try dsimp only
  repeat' first
    | (with_reducible first
      | assumption | apply Keep.ite | apply keep_drawBytes | apply keep_command | refine Keep.ofPair (by assumption) ?_
      | refine Keep.ofTriple (by assumption) ?_)
    | ((simp only [keep_mk]; apply Keep.upd) <;> try first | exact .inl (mask_bit hm rfl) | exact .inr rfl | exact fun h => h | exact rfl | exact fun h => PendDistinct.filter h _)
    | exact mask_sub hm rfl | exact rfl | split | intro _ _ _ | intro _ _

theorem keep_execHshGet {r : Request} {s : State} (hm : 1687159828 &&& M = 1687159828) (h_s : Keep M s0 s) : KeepO M s0 (execHshGet r s) := by
  unfold execHshGet
  repeat' first
    | (with_reducible first
      | assumption | apply KeepO.next | apply KeepO.ite | apply keep_begin_ | apply keep_finish | apply keep_hshGet)
    | exact mask_sub hm rfl

theorem keep_setAuditDie {b : List Tlv} {s : State} (hm : 134217728 &&& M = 134217728) (h_s : Keep M s0 s) :
    Keep M s0 (setAuditDie b s).2 := by
  unfold setAuditDie
  try dsimp only
  repeat' first
    | (with_reducible first
      | assumption | apply Keep.ite | apply keep_defer)
    | ((simp only [keep_mk]; apply Keep.upd) <;> try first | exact .inl (mask_bit hm rfl) | exact .inr rfl | exact fun h => h | exact rfl)
    | exact mask_sub hm rfl | exact rfl | split | intro _ _ _ | intro _ _

theorem keep_setSeeds {b : List Tlv} {s : State} (hm : 134217728 &&& M = 134217728) (h_s : Keep M s0 s) : Keep M s0 (setSeeds b s).2 := by
  unfold setSeeds
  try dsimp only
  repeat' first | (with_reducible first | assumption | apply Keep.ite | apply keep_defer) | exact mask_sub hm rfl | split

theorem keep_hshSetAudit {r : Request} {s : State} (hm : 134217728 &&& M = 134217728) (h_s : Keep M s0 s) : Keep M s0 (hshSetAudit r s).2 := by
  unfold hshSetAudit
  try dsimp only
  repeat' first
    | (with_reducible first
      | assumption | apply Keep.ite | apply keep_command | apply keep_setAuditDie | apply keep_setSeeds)
    | ((simp only [keep_mk]; apply Keep.upd) <;> try first | exact .inl (mask_bit hm rfl) | exact .inr rfl | exact fun h => h | exact rfl)
    | exact mask_sub hm rfl | exact rfl | split | intro _ _ _ | intro _ _

theorem keep_execHshSetAudit {r : Request} {s : State} (hm : 747635732 &&& M = 747635732) (h_s : Keep M s0 s) :
    KeepO M s0 (execHshSetAudit r s) := by
  unfold execHshSetAudit
  repeat' first
    | (with_reducible first
      | assumption | apply KeepO.next | apply KeepO.ite | apply keep_begin_ | apply keep_finish | apply keep_hshSetAudit)
    | exact mask_sub hm rfl

theorem keep_hshGetDigest {r : Request} {s : State} (hm : 0 &&& M = 0) (h_s : Keep M s0 s) : Keep M s0 (hshGetDigest r s).2 := by
  unfold hshGetDigest
  try dsimp only
  repeat' first
    | (with_reducible first
      | assumption | apply Keep.ite | apply keep_command | refine Keep.ofPair (by assumption) ?_ | refine Keep.ofTriple (by assumption) ?_)
    | ((simp only [keep_mk]; apply Keep.upd) <;> try first | exact .inl (mask_bit hm rfl) | exact .inr rfl | exact fun h => h | exact rfl)
    | exact mask_sub hm rfl | exact rfl | split | intro _ _ _ | intro _ _

theorem keep_execHshGetDigest {r : Request} {s : State} (hm : 613418004 &&& M = 613418004) (h_s : Keep M s0 s) :
    KeepO M s0 (execHshGetDigest r s) := by
  unfold execHshGetDigest
  repeat' first
    | (with_reducible first
      | assumption | apply KeepO.next | apply KeepO.ite | apply keep_begin_ | apply keep_finish | apply keep_hshGetDigest)
    | exact mask_sub hm rfl

theorem keep_hshGetJobDigest {r : Request} {s : State} (hm : 0 &&& M = 0) (h_s : Keep M s0 s) : Keep M s0 (hshGetJobDigest r s).2 := by
  unfold hshGetJobDigest
  repeat' first
    | (with_reducible first
      | assumption | apply keep_command | refine Keep.ofPair (by assumption) ?_ | refine Keep.ofTriple (by assumption) ?_)
    | ((simp only [keep_mk]; apply Keep.upd) <;> try first | exact .inl (mask_bit hm rfl) | exact .inr rfl | exact fun h => h | exact rfl)
    | exact mask_sub hm rfl | exact rfl | split | intro _ _ _ | intro _ _

theorem keep_execHshGetJobDigest {r : Request} {s : State} (hm : 613418004 &&& M = 613418004) (h_s : Keep M s0 s) :
    KeepO M s0 (execHshGetJobDigest r s) := by
  unfold execHshGetJobDigest
  repeat' first
    | (with_reducible first
      | assumption | apply KeepO.next | apply KeepO.ite | apply keep_begin_ | apply keep_finish | apply keep_hshGetJobDigest)
    | exact mask_sub hm rfl

end Sys2Proof.Machine
end

