-- ==== Sys2Proof/Laws/KeepSecurity.lean ====
section
/-! SUPPORT. What the operations of Machine/Security.lean keep (`Keep`, Laws/Keep.lean): one lemma per operation. -/
namespace Sys2Proof.Machine

set_option linter.unusedSimpArgs false
set_option linter.unusedVariables false

variable {M : Nat} {s0 : State}

theorem keep_setSec {f : Security → Security} {s : State} (hm : 8388608 &&& M = 8388608) (h_s : Keep M s0 s) : Keep M s0 (setSec f s) := by
  unfold setSec
  repeat' first
    | (with_reducible first
      | assumption)
    | ((simp only [keep_mk]; apply Keep.upd) <;> try first | exact .inl (mask_bit hm rfl) | exact .inr rfl | exact fun h => h | exact rfl) | exact rfl

theorem keep_endTests {passed : Bool} {s : State} (hm : 612369408 &&& M = 612369408) (h_s : Keep M s0 s) : Keep M s0 (endTests passed s) := by
  unfold endTests
  try dsimp only
  repeat' first
    | (with_reducible first
      | assumption | apply Keep.ite | apply keep_finish | apply keep_setSec | refine Keep.ofPair (by assumption) ?_
      | refine Keep.ofTriple (by assumption) ?_)
    | ((simp only [keep_mk]; apply Keep.upd) <;> try first | exact .inl (mask_bit hm rfl) | exact .inr rfl | exact fun h => h | exact rfl)
    | exact mask_sub hm rfl | exact rfl | split | intro _ _ _ | intro _ _

theorem keep_execSelfTestComplete {passed : Bool} {s : State} (hm : 612369408 &&& M = 612369408) (h_s : Keep M s0 s) :
    KeepO M s0 (execSelfTestComplete passed s) := by
  unfold execSelfTestComplete
  try dsimp only
  repeat' first
    | (with_reducible first
      | assumption | apply Keep.ite | apply KeepO.next | apply KeepO.ite | apply keep_fresh | apply keep_endTests)
    | exact mask_sub hm rfl | split

theorem keep_execEntropyTestFailure {s : State} (hm : 612369408 &&& M = 612369408) (h_s : Keep M s0 s) :
    KeepO M s0 (execEntropyTestFailure s) := by
  unfold execEntropyTestFailure
  try dsimp only
  repeat' first
    | (with_reducible first
      | assumption | apply Keep.ite | apply KeepO.next | apply KeepO.ite | apply keep_fresh | apply keep_endTests)
    | exact mask_sub hm rfl | split

theorem keep_openGranted {g : Bytes} {x : Session} {s : State} (hm : 8388608 &&& M = 8388608) (h_s : Keep M s0 s) :
    Keep M s0 (openGranted g x s) := by
  unfold openGranted
  try dsimp only
  repeat' first
    | (with_reducible first
      | assumption | apply Keep.ite | apply keep_setSec)
    | ((simp only [keep_mk]; apply Keep.upd) <;> try first | exact .inl (mask_bit hm rfl) | exact .inr rfl | exact fun h => h | exact rfl)
    | exact mask_sub hm rfl | exact rfl | split | intro _ _ _ | intro _ _

theorem keep_secOpenSession {r : Request} {s : State} (hm : 8388608 &&& M = 8388608) (h_s : Keep M s0 s) :
    Keep M s0 (secOpenSession r s).2.2 := by
  unfold secOpenSession
  try dsimp only
  repeat' first
    | (with_reducible first
      | assumption | apply Keep.ite | apply keep_openGranted | refine Keep.ofPair (by assumption) ?_ | refine Keep.ofTriple (by assumption) ?_)
    | ((simp only [keep_mk]; apply Keep.upd) <;> try first | exact .inl (mask_bit hm rfl) | exact .inr rfl | exact fun h => h | exact rfl)
    | exact mask_sub hm rfl | split

theorem keep_execSecOpenSession {r : Request} {s : State} (hm : 613418004 &&& M = 613418004) (h_s : Keep M s0 s) :
    KeepO M s0 (execSecOpenSession r s) := by
  unfold execSecOpenSession
  try dsimp only
  repeat' first
    | (with_reducible first
      | assumption | apply KeepO.next | apply KeepO.ite | apply keep_begin_ | apply keep_answerWith | apply keep_secOpenSession
      | refine Keep.ofPair (by assumption) ?_ | refine Keep.ofTriple (by assumption) ?_)
    | exact mask_sub hm rfl | split

theorem keep_endSession {id : Nat} {s : State} (hm : 8388608 &&& M = 8388608) (h_s : Keep M s0 s) : Keep M s0 (endSession id s) := by
  unfold endSession
  repeat' first
    | (with_reducible first
      | assumption | apply keep_setSec)
    | ((simp only [keep_mk]; apply Keep.upd) <;> try first | exact .inl (mask_bit hm rfl) | exact .inr rfl | exact fun h => h | exact rfl)
    | exact mask_sub hm rfl | exact rfl | intro _ _ _ | intro _ _

theorem keep_secCloseSession {r : Request} {s : State} (hm : 8388608 &&& M = 8388608) (h_s : Keep M s0 s) :
    Keep M s0 (secCloseSession r s).2 := by
  unfold secCloseSession
  try dsimp only
  repeat' first
    | (with_reducible first
      | assumption | apply Keep.ite | apply keep_command | apply keep_endSession | refine Keep.ofPair (by assumption) ?_
      | refine Keep.ofTriple (by assumption) ?_)
    | ((simp only [keep_mk]; apply Keep.upd) <;> try first | exact .inl (mask_bit hm rfl) | exact .inr rfl | exact fun h => h | exact rfl)
    | exact mask_sub hm rfl | exact rfl | split | intro _ _ _ | intro _ _

theorem keep_execSecCloseSession {r : Request} {s : State} (hm : 613418004 &&& M = 613418004) (h_s : Keep M s0 s) :
    KeepO M s0 (execSecCloseSession r s) := by
  unfold execSecCloseSession
  try dsimp only
  repeat' first
    | (with_reducible first
      | assumption | apply KeepO.next | apply KeepO.ite | apply keep_begin_ | apply keep_answerWith | apply keep_secCloseSession
      | refine Keep.ofPair (by assumption) ?_ | refine Keep.ofTriple (by assumption) ?_)
    | exact mask_sub hm rfl | split

theorem keep_setSession {id : Nat} {f : Session → Session} {s : State} (hm : 8388608 &&& M = 8388608) (h_s : Keep M s0 s) :
    Keep M s0 (setSession id f s) := by
  unfold setSession
  repeat' first
    | (with_reducible first
      | assumption | apply Keep.ite | apply keep_setSec)
    | ((simp only [keep_mk]; apply Keep.upd) <;> try first | exact .inl (mask_bit hm rfl) | exact .inr rfl | exact fun h => h | exact rfl)
    | exact mask_sub hm rfl | exact rfl | split | intro _ _ _ | intro _ _

theorem keep_rotateSession {r : Request} {d : Bytes} {s : State} (hm : 8388608 &&& M = 8388608) (h_s : Keep M s0 s) :
    Keep M s0 (rotateSession r d s).2 := by
  unfold rotateSession
  try dsimp only
  repeat' first
    | (with_reducible first
      | assumption | apply Keep.ite | apply keep_setSession | refine Keep.ofPair (by assumption) ?_ | refine Keep.ofTriple (by assumption) ?_)
    | ((simp only [keep_mk]; apply Keep.upd) <;> try first | exact .inl (mask_bit hm rfl) | exact .inr rfl | exact fun h => h | exact rfl)
    | exact mask_sub hm rfl | exact rfl | split | intro _ _ _ | intro _ _

theorem keep_rotateAnchor {revoke : Bool} {d : Bytes} {s : State} (hm : 8388608 &&& M = 8388608) (h_s : Keep M s0 s) :
    Keep M s0 (rotateAnchor revoke d s).2 := by
  unfold rotateAnchor
  try dsimp only
  repeat' first
    | (with_reducible first
      | assumption | apply Keep.ite | apply keep_release | apply keep_setSec | refine Keep.ofPair (by assumption) ?_
      | refine Keep.ofTriple (by assumption) ?_)
    | ((simp only [keep_mk]; apply Keep.upd) <;> try first | exact .inl (mask_bit hm rfl) | exact .inr rfl | exact fun h => h | exact rfl)
    | exact mask_sub hm rfl | exact rfl | split | intro _ _ _ | intro _ _

theorem keep_rotateOwnership {d : Bytes} {s : State} (hm : 8388608 &&& M = 8388608) (h_s : Keep M s0 s) :
    Keep M s0 (rotateOwnership d s).2 := by
  unfold rotateOwnership
  try dsimp only
  repeat' first
    | (with_reducible first
      | assumption | apply Keep.ite | apply keep_setSec | refine Keep.ofPair (by assumption) ?_ | refine Keep.ofTriple (by assumption) ?_)
    | ((simp only [keep_mk]; apply Keep.upd) <;> try first | exact .inl (mask_bit hm rfl) | exact .inr rfl | exact fun h => h | exact rfl)
    | exact mask_sub hm rfl | exact rfl | split | intro _ _ _ | intro _ _

theorem keep_zeroise {s : State} (hm : 8388608 &&& M = 8388608) (h_s : Keep M s0 s) : Keep M s0 (zeroise s) := by
  unfold zeroise
  repeat' first
    | (with_reducible first
      | assumption | apply keep_setSec)
    | ((simp only [keep_mk]; apply Keep.upd) <;> try first | exact .inl (mask_bit hm rfl) | exact .inr rfl | exact fun h => h | exact rfl)
    | exact mask_sub hm rfl | exact rfl | intro _ _ _ | intro _ _

theorem keep_secRotateKey {r : Request} {s : State} (hm : 8388608 &&& M = 8388608) (h_s : Keep M s0 s) : Keep M s0 (secRotateKey r s).2 := by
  unfold secRotateKey
  try dsimp only
  repeat' first
    | (with_reducible first
      | assumption | apply Keep.ite | apply keep_command | apply keep_rotateSession | apply keep_rotateAnchor | apply keep_rotateOwnership
      | apply keep_zeroise | refine Keep.ofPair (by assumption) ?_ | refine Keep.ofTriple (by assumption) ?_)
    | ((simp only [keep_mk]; apply Keep.upd) <;> try first | exact .inl (mask_bit hm rfl) | exact .inr rfl | exact fun h => h | exact rfl)
    | exact mask_sub hm rfl | exact rfl | split | intro _ _ _ | intro _ _

theorem keep_execSecRotateKey {r : Request} {s : State} (hm : 613418004 &&& M = 613418004) (h_s : Keep M s0 s) :
    KeepO M s0 (execSecRotateKey r s) := by
  unfold execSecRotateKey
  try dsimp only
  repeat' first
    | (with_reducible first
      | assumption | apply KeepO.next | apply KeepO.ite | apply keep_begin_ | apply keep_answerWith | apply keep_secRotateKey
      | refine Keep.ofPair (by assumption) ?_ | refine Keep.ofTriple (by assumption) ?_)
    | exact mask_sub hm rfl | split

theorem keep_secSelfTest {r : Request} {s : State} (hm : 8388608 &&& M = 8388608) (h_s : Keep M s0 s) : Keep M s0 (secSelfTest r s).2 := by
  unfold secSelfTest
  try dsimp only
  repeat' first
    | (with_reducible first
      | assumption | apply Keep.ite | apply keep_command | apply keep_setSec | refine Keep.ofPair (by assumption) ?_
      | refine Keep.ofTriple (by assumption) ?_)
    | ((simp only [keep_mk]; apply Keep.upd) <;> try first | exact .inl (mask_bit hm rfl) | exact .inr rfl | exact fun h => h | exact rfl)
    | exact mask_sub hm rfl | exact rfl | split | intro _ _ _ | intro _ _

theorem keep_execSecSelfTest {r : Request} {s : State} (hm : 613418004 &&& M = 613418004) (h_s : Keep M s0 s) :
    KeepO M s0 (execSecSelfTest r s) := by
  unfold execSecSelfTest
  repeat' first
    | (with_reducible first
      | assumption | apply KeepO.next | apply KeepO.ite | apply keep_begin_ | apply keep_finish | apply keep_secSelfTest
      | refine Keep.ofPair (by assumption) ?_ | refine Keep.ofTriple (by assumption) ?_)
    | ((simp only [keep_mk]; apply Keep.upd) <;> try first | exact .inl (mask_bit hm rfl) | exact .inr rfl | exact fun h => h | exact rfl)
    | exact mask_sub hm rfl | split

theorem keep_putSlot {k : Nat} {x : FwSlot} {s : State} (hm : 8388608 &&& M = 8388608) (h_s : Keep M s0 s) : Keep M s0 (putSlot k x s) := by
  unfold putSlot
  repeat' first
    | (with_reducible first
      | assumption | apply keep_setSec)
    | ((simp only [keep_mk]; apply Keep.upd) <;> try first | exact .inl (mask_bit hm rfl) | exact .inr rfl | exact fun h => h | exact rfl)
    | exact mask_sub hm rfl | exact rfl | intro _ _ _ | intro _ _

theorem keep_setFw {f : FwStore → FwStore} {s : State} (hm : 2097152 &&& M = 2097152) (h_s : Keep M s0 s) : Keep M s0 (setFw f s) := by
  unfold setFw
  repeat' first
    | (with_reducible first
      | assumption)
    | ((simp only [keep_mk]; apply Keep.upd) <;> try first | exact .inl (mask_bit hm rfl) | exact .inr rfl | exact fun h => h | exact rfl) | exact rfl

theorem keep_requestBoot {s : State} (hm : 536871936 &&& M = 536871936) (h_s : Keep M s0 s) : Keep M s0 (requestBoot s) := by
  unfold requestBoot
  try dsimp only
  repeat' first
    | (with_reducible first
      | assumption | apply keep_nextSerial | apply keep_sendBulk | refine Keep.ofPair (by assumption) ?_ | refine Keep.ofTriple (by assumption) ?_)
    | exact mask_sub hm rfl | split

theorem keep_storeFirmware {die : Bool} {img : Bytes} {s : State} (hm : 10485760 &&& M = 10485760) (h_s : Keep M s0 s) :
    Keep M s0 (storeFirmware die img s) := by
  unfold storeFirmware
  repeat' first
    | (with_reducible first
      | assumption | apply Keep.ite | apply keep_putSlot | apply keep_setFw)
    | ((simp only [keep_mk]; apply Keep.upd) <;> try first | exact .inl (mask_bit hm rfl) | exact .inr rfl | exact fun h => h | exact rfl)
    | exact mask_sub hm rfl | exact rfl | split | intro _ _ _ | intro _ _

theorem keep_secStageFirmware {r : Request} {s : State} (hm : 564134912 &&& M = 564134912) (h_s : Keep M s0 s) :
    Keep M s0 (secStageFirmware r s).2 := by
  unfold secStageFirmware
  try dsimp only
  repeat' first
    | (with_reducible first
      | assumption | apply Keep.ite | apply keep_command | apply keep_setSec | apply keep_putSlot | apply keep_setFw | apply keep_requestBoot
      | apply keep_storeFirmware | refine keep_takePiece_done (by assumption) ?_ ?_ ?_ | refine keep_takePiece_whole (by assumption) ?_ ?_ ?_
      | refine Keep.ofPair (by assumption) ?_ | refine Keep.ofTriple (by assumption) ?_)
    | ((simp only [keep_mk]; apply Keep.upd) <;> try first | exact .inl (mask_bit hm rfl) | exact .inr rfl | exact fun h => h | exact rfl)
    | exact mask_sub hm rfl | exact rfl | split | intro _ _ _ | intro _ _

theorem keep_execSecStageFirmware {r : Request} {s : State} (hm : 632292372 &&& M = 632292372) (h_s : Keep M s0 s) :
    KeepO M s0 (execSecStageFirmware r s) := by
  unfold execSecStageFirmware
  repeat' first
    | (with_reducible first
      | assumption | apply KeepO.next | apply KeepO.ite | apply keep_begin_ | apply keep_finish | apply keep_secStageFirmware)
    | exact mask_sub hm rfl

theorem keep_secHandover {r : Request} {s : State} (hm : 134217728 &&& M = 134217728) (h_s : Keep M s0 s) : Keep M s0 (secHandover r s).2 := by
  unfold secHandover
  repeat' first
    | (with_reducible first
      | assumption | apply Keep.ite | apply keep_command | apply keep_defer)
    | ((simp only [keep_mk]; apply Keep.upd) <;> try first | exact .inl (mask_bit hm rfl) | exact .inr rfl | exact fun h => h | exact rfl)
    | exact mask_sub hm rfl | exact rfl | split | intro _ _ _ | intro _ _

theorem keep_execSecHandover {r : Request} {s : State} (hm : 747635732 &&& M = 747635732) (h_s : Keep M s0 s) :
    KeepO M s0 (execSecHandover r s) := by
  unfold execSecHandover
  repeat' first
    | (with_reducible first
      | assumption | apply KeepO.next | apply KeepO.ite | apply keep_begin_ | apply keep_finish | apply keep_secHandover)
    | exact mask_sub hm rfl

theorem keep_handoverEntry {old : Nat} {k : Nat} {s : State} (hm : 1048576 &&& M = 1048576) (h_s : Keep M s0 s) :
    Keep M s0 (handoverEntry old k s) := by
  unfold handoverEntry
  repeat' first | (with_reducible first | assumption | apply keep_ownEntry) | exact mask_sub hm rfl

theorem keep_startSlot {k : Nat} {s : State} (hm : 8388608 &&& M = 8388608) (h_s : Keep M s0 s) : Keep M s0 (startSlot k s) := by
  unfold startSlot
  repeat' first
    | (with_reducible first
      | assumption | apply keep_setSec)
    | ((simp only [keep_mk]; apply Keep.upd) <;> try first | exact .inl (mask_bit hm rfl) | exact .inr rfl | exact fun h => h | exact rfl)
    | exact mask_sub hm rfl | exact rfl | intro _ _ _ | intro _ _

theorem keep_handOver {s : State} (hm : 9437184 &&& M = 9437184) (h_s : Keep M s0 s) : Keep M s0 (handOver s) := by
  unfold handOver
  try dsimp only
  repeat' first
    | (with_reducible first
      | assumption | apply keep_setSec | apply keep_handoverEntry | apply keep_startSlot)
    | ((simp only [keep_mk]; apply Keep.upd) <;> try first | exact .inl (mask_bit hm rfl) | exact .inr rfl | exact fun h => h | exact rfl)
    | exact mask_sub hm rfl | exact rfl | intro _ _ _ | intro _ _

theorem keep_swapDieBoot {s : State} (hm : 2097152 &&& M = 2097152) (h_s : Keep M s0 s) : Keep M s0 (swapDieBoot s) := by
  unfold swapDieBoot
  repeat' first
    | (with_reducible first
      | assumption | apply keep_setFw)
    | ((simp only [keep_mk]; apply Keep.upd) <;> try first | exact .inl (mask_bit hm rfl) | exact .inr rfl | exact fun h => h | exact rfl)
    | exact mask_sub hm rfl | exact rfl | intro _ _ _ | intro _ _

theorem keep_execTrialEnd {s : State} (hm : 545259520 &&& M = 545259520) (h_s : Keep M s0 s) : KeepO M s0 (execTrialEnd s) := by
  unfold execTrialEnd
  try dsimp only
  repeat' first
    | (with_reducible first
      | assumption | apply Keep.ite | apply KeepO.next | apply KeepO.ite | apply keep_fresh | apply keep_setSec
      | refine Keep.ofPair (by assumption) ?_ | refine Keep.ofTriple (by assumption) ?_)
    | ((simp only [keep_mk]; apply Keep.upd) <;> try first | exact .inl (mask_bit hm rfl) | exact .inr rfl | exact fun h => h | exact rfl)
    | exact mask_sub hm rfl | exact rfl | split | intro _ _ _ | intro _ _

theorem keep_loadTest {k : Nat} {s : State} (hm : 8388608 &&& M = 8388608) (h_s : Keep M s0 s) : Keep M s0 (loadTest k s) := by
  unfold loadTest
  try dsimp only
  repeat' first
    | (with_reducible first
      | assumption | apply Keep.ite | apply keep_setSec)
    | ((simp only [keep_mk]; apply Keep.upd) <;> try first | exact .inl (mask_bit hm rfl) | exact .inr rfl | exact fun h => h | exact rfl)
    | exact mask_sub hm rfl | exact rfl | split | intro _ _ _ | intro _ _

theorem keep_bootSlot {k : Nat} {s : State} (hm : 8388608 &&& M = 8388608) (h_s : Keep M s0 s) : Keep M s0 (bootSlot k s) := by
  unfold bootSlot
  try dsimp only
  repeat' first | (with_reducible first | assumption | apply Keep.ite | apply keep_startSlot | apply keep_loadTest) | exact mask_sub hm rfl | split

theorem keep_bootWarm {s : State} (hm : 9437184 &&& M = 9437184) (h_s : Keep M s0 s) : Keep M s0 (bootWarm s) := by
  unfold bootWarm
  try dsimp only
  repeat' first
    | (with_reducible first
      | assumption | apply Keep.ite | apply keep_setSec | apply keep_handoverEntry | apply keep_bootSlot | refine Keep.ofPair (by assumption) ?_
      | refine Keep.ofTriple (by assumption) ?_)
    | ((simp only [keep_mk]; apply Keep.upd) <;> try first | exact .inl (mask_bit hm rfl) | exact .inr rfl | exact fun h => h | exact rfl)
    | exact mask_sub hm rfl | exact rfl | split | intro _ _ _ | intro _ _

theorem keep_bootRom {s : State} (hm : 546309120 &&& M = 546309120) (h_s : Keep M s0 s) : Keep M s0 (bootRom s) := by
  unfold bootRom
  try dsimp only
  repeat' first
    | (with_reducible first
      | assumption | apply Keep.ite | apply keep_putSlot | apply keep_requestBoot | apply keep_bootSlot | apply keep_bootWarm)
    | ((simp only [keep_mk]; apply Keep.upd) <;> try first | exact .inl (mask_bit hm rfl) | exact .inr rfl | exact fun h => h | exact rfl)
    | exact mask_sub hm rfl | exact rfl | split

theorem keep_execBootRequestArrival {door : Nat} {item : Bytes} {s : State} (hm : 536871936 &&& M = 536871936) (h_s : Keep M s0 s) :
    KeepO M s0 (execBootRequestArrival door item s) := by
  unfold execBootRequestArrival
  try dsimp only
  repeat' first
    | (with_reducible first
      | assumption | apply Keep.ite | apply KeepO.next | apply KeepO.ite | apply keep_fresh | apply keep_nextSerial | apply keep_sendBulk
      | apply keep_malformedOn | refine Keep.ofPair (by assumption) ?_ | refine Keep.ofTriple (by assumption) ?_)
    | exact mask_sub hm rfl | split

theorem keep_execBootImageArrival {item : Bytes} {s : State} (hm : 547356672 &&& M = 547356672) (h_s : Keep M s0 s) :
    KeepO M s0 (execBootImageArrival item s) := by
  unfold execBootImageArrival
  try dsimp only
  repeat' first
    | (with_reducible first
      | assumption | apply Keep.ite | apply KeepO.next | apply KeepO.ite | apply keep_fresh | apply keep_setSec | apply keep_putSlot
      | apply keep_storeFirmware | apply keep_bootSlot | refine Keep.ofPair (by assumption) ?_ | refine Keep.ofTriple (by assumption) ?_)
    | ((simp only [keep_mk]; apply Keep.upd) <;> try first | exact .inl (mask_bit hm rfl) | exact .inr rfl | exact fun h => h | exact rfl)
    | exact mask_sub hm rfl | exact rfl | split | intro _ _ _ | intro _ _

theorem keep_secGet {r : Request} {s : State} (hm : 0 &&& M = 0) (h_s : Keep M s0 s) : Keep M s0 (secGet r s).2 := by
  unfold secGet
  try dsimp only
  repeat' first
    | (with_reducible first
      | assumption | apply Keep.ite | apply keep_command | apply keep_release)
    | ((simp only [keep_mk]; apply Keep.upd) <;> try first | exact .inl (mask_bit hm rfl) | exact .inr rfl | exact fun h => h | exact rfl | exact fun h => PendDistinct.filter h _)
    | exact mask_sub hm rfl | exact rfl | split | intro _ _ _ | intro _ _

theorem keep_execSecGet {r : Request} {s : State} (hm : 613418004 &&& M = 613418004) (h_s : Keep M s0 s) : KeepO M s0 (execSecGet r s) := by
  unfold execSecGet
  repeat' first
    | (with_reducible first
      | assumption | apply KeepO.next | apply KeepO.ite | apply keep_begin_ | apply keep_finish | apply keep_secGet)
    | exact mask_sub hm rfl

theorem keep_secGetCert {r : Request} {s : State} (hm : 1073741824 &&& M = 1073741824) (h_s : Keep M s0 s) : Keep M s0 (secGetCert r s).2 := by
  unfold secGetCert
  try dsimp only
  repeat' first
    | (with_reducible first
      | assumption | apply Keep.ite | apply keep_command | refine Keep.ofPair (by assumption) ?_ | refine Keep.ofTriple (by assumption) ?_)
    | ((simp only [keep_mk]; apply Keep.upd) <;> try first | exact .inl (mask_bit hm rfl) | exact .inr rfl | exact fun h => h | exact rfl)
    | exact mask_sub hm rfl | exact rfl | split | intro _ _ _ | intro _ _

theorem keep_execSecGetCert {r : Request} {s : State} (hm : 1687159828 &&& M = 1687159828) (h_s : Keep M s0 s) :
    KeepO M s0 (execSecGetCert r s) := by
  unfold execSecGetCert
  repeat' first
    | (with_reducible first
      | assumption | apply KeepO.next | apply KeepO.ite | apply keep_begin_ | apply keep_finish | apply keep_secGetCert)
    | exact mask_sub hm rfl

end Sys2Proof.Machine
end

