-- ==== Sys2Proof/Laws/KeepErrors.lean ====
section
/-! SUPPORT. What the operations of Machine/Errors.lean keep (`Keep`, Laws/Keep.lean): one lemma per operation. -/
namespace Sys2Proof.Machine

set_option linter.unusedSimpArgs false
set_option linter.unusedVariables false

variable {M : Nat} {s0 : State}

theorem keep_tailAtTick {s : State} (hm : 16384 &&& M = 16384) (h_s : Keep M s0 s) : Keep M s0 (tailAtTick s) := by
  unfold tailAtTick
  repeat' first
    | (with_reducible first
      | assumption | apply Keep.ite | apply KeepO.next | apply KeepO.ite | refine Keep.ofPair (by assumption) ?_
      | refine Keep.ofTriple (by assumption) ?_)
    | ((simp only [keep_mk]; apply Keep.upd) <;> try first | exact .inl (mask_bit hm rfl) | exact .inr rfl | exact fun h => h | exact rfl) | exact rfl
    | split

theorem keep_resendAll {s : State} (hm : 16384 &&& M = 16384) (h_s : Keep M s0 s) : Keep M s0 (resendAll s) := by
  unfold resendAll
  repeat' first
    | (with_reducible first
      | assumption | apply keep_release)
    | ((simp only [keep_mk]; apply Keep.upd) <;> try first | exact .inl (mask_bit hm rfl) | exact .inr rfl | exact fun h => h | exact rfl)
    | exact mask_sub hm rfl | exact rfl

theorem keep_releaseTo {n : Nat} {s : State} (hm : 16384 &&& M = 16384) (h_s : Keep M s0 s) : Keep M s0 (releaseTo n s) := by
  unfold releaseTo
  repeat' first
    | (with_reducible first
      | assumption | apply Keep.ite | apply keep_release)
    | ((simp only [keep_mk]; apply Keep.upd) <;> try first | exact .inl (mask_bit hm rfl) | exact .inr rfl | exact fun h => h | exact rfl)
    | exact mask_sub hm rfl | exact rfl | split

theorem keep_sendAck {reporter : Nat} {resend : Bool} {release : Nat} {s : State} (hm : 536888320 &&& M = 536888320) (h_s : Keep M s0 s) :
    Keep M s0 (sendAck reporter resend release s) := by
  unfold sendAck
  repeat' first
    | (with_reducible first
      | assumption | apply Keep.ite | apply keep_forwardMsg | apply keep_release | apply keep_resendAll | apply keep_releaseTo)
    | ((simp only [keep_mk]; apply Keep.upd) <;> try first | exact .inl (mask_bit hm rfl) | exact .inr rfl | exact fun h => h | exact rfl)
    | exact mask_sub hm rfl | exact rfl | split

theorem keep_recordDoor {s : State} (hm : 536888320 &&& M = 536888320) (h_s : Keep M s0 s) : Keep M s0 (recordDoor s).2 := by
  unfold recordDoor
  try dsimp only
  repeat' first
    | (with_reducible first
      | assumption | apply Keep.ite | apply keep_resendAll | apply keep_sendAck | apply Keep.foldl | apply Keep.foldlP
      | refine Keep.ofPair (by assumption) ?_ | refine Keep.ofTriple (by assumption) ?_)
    | ((simp only [keep_mk]; apply Keep.upd) <;> try first | exact .inl (mask_bit hm rfl) | exact .inr rfl | exact fun h => h | exact rfl)
    | exact mask_sub hm rfl | exact rfl | split | intro _ _ _ | intro _ _

theorem keep_execErrorEntrySend {s : State} (hm : 536888320 &&& M = 536888320) (h_s : Keep M s0 s) : KeepO M s0 (execErrorEntrySend s) := by
  unfold execErrorEntrySend
  try dsimp only
  repeat' first
    | (with_reducible first
      | assumption | apply Keep.ite | apply KeepO.next | apply KeepO.ite | apply keep_fresh | apply keep_sendMsg | apply keep_release
      | apply keep_recordDoor | apply Keep.foldl | apply Keep.foldlP | refine Keep.ofPair (by assumption) ?_ | refine Keep.ofTriple (by assumption) ?_)
    | ((simp only [keep_mk]; apply Keep.upd) <;> try first | exact .inl (mask_bit hm rfl) | exact .inr rfl | exact fun h => h | exact rfl)
    | exact mask_sub hm rfl | exact rfl | split | intro _ _ _ | intro _ _

theorem keep_execRecordAcknowledgement {door : Nat} {body : Bytes} {s : State} (hm : 536888320 &&& M = 536888320) (h_s : Keep M s0 s) :
    KeepO M s0 (execRecordAcknowledgement door body s) := by
  unfold execRecordAcknowledgement
  try dsimp only
  repeat' first
    | (with_reducible first
      | assumption | apply Keep.ite | apply KeepO.next | apply KeepO.ite | apply keep_fresh | apply keep_malformedOn | apply keep_sendAck)
    | exact mask_sub hm rfl | split

theorem keep_putReporter {u : Nat} {r : Reporter} {s : State} (hm : 16384 &&& M = 16384) (h_s : Keep M s0 s) :
    Keep M s0 (putReporter u r s) := by
  unfold putReporter
  repeat' first
    | (with_reducible first
      | assumption)
    | ((simp only [keep_mk]; apply Keep.upd) <;> try first | exact .inl (mask_bit hm rfl) | exact .inr rfl | exact fun h => h | exact rfl) | exact rfl

theorem keep_takeEntries (hm : 536921088 &&& M = 536921088) {s : State} {u : Nat} {es : List Bytes} (h_s : Keep M s0 s) : Keep M s0 (takeEntries u es s) := by
  have key : ∀ (l : List Bytes) (p : State × Bool), Keep M s0 p.1 → Keep M s0 (l.foldl (fun (p : State × Bool) e =>
      let (s, want) := p
      let (r, stored, more) := takeEntry e (reporterAt u s)
      if stored then
        if heldEntries s ≥ 16777216 then ({ s with err := { s.err with owed := dedup (s.err.owed ++ [u]) } }, want)
        else
          let s := putReporter u r s
          (if isGap e then s else signRecord e s, want)
      else (s, want || more)) p).1 := by
    intro l
    induction l with
    | nil => exact fun _ h => h
    | cons e l ih =>
      intro p h
      refine ih _ ?_
      dsimp only
      split
      · split
        · ((simp only [keep_mk]; apply Keep.upd) <;> try first | exact .inl (mask_bit hm rfl) | (with_reducible exact .inr rfl) | exact fun h => h | (with_reducible exact rfl) | exact fun h => PendDistinct.filter h _ | exact fun h => ⟨h.1, h.2, h.3, h.4⟩) <;> assumption
        · exact Keep.ite (keep_putReporter (mask_sub hm rfl) h) (keep_signRecord (mask_sub hm rfl) (keep_putReporter (mask_sub hm rfl) h))
      · exact h
  unfold takeEntries
  exact Keep.ite (keep_sendAck (mask_sub hm rfl) (key es (s, false) h_s)) (key es (s, false) h_s)

theorem keep_execErrorRecordMessage {door : Nat} {body : Bytes} {s : State} (hm : 536921088 &&& M = 536921088) (h_s : Keep M s0 s) :
    KeepO M s0 (execErrorRecordMessage door body s) := by
  unfold execErrorRecordMessage
  try dsimp only
  repeat' first
    | (with_reducible first
      | assumption | apply Keep.ite | apply KeepO.next | apply KeepO.ite | apply keep_fresh | apply keep_signRecord | apply keep_sendMsg
      | apply keep_malformedOn | apply keep_release | apply keep_recordDoor | apply keep_putReporter | apply keep_takeEntries | apply Keep.foldl
      | apply Keep.foldlP | refine Keep.ofPair (by assumption) ?_ | refine Keep.ofTriple (by assumption) ?_)
    | ((simp only [keep_mk]; apply Keep.upd) <;> try first | exact .inl (mask_bit hm rfl) | exact .inr rfl | exact fun h => h | exact rfl)
    | exact mask_sub hm rfl | exact rfl | split | intro _ _ _ | intro _ _

theorem keep_askOwed {s : State} (hm : 536888320 &&& M = 536888320) (h_s : Keep M s0 s) : Keep M s0 (askOwed s) := by
  unfold askOwed
  repeat' first
    | (with_reducible first
      | assumption | apply Keep.ite | apply keep_release | apply keep_sendAck | apply Keep.foldl | apply Keep.foldlP)
    | ((simp only [keep_mk]; apply Keep.upd) <;> try first | exact .inl (mask_bit hm rfl) | exact .inr rfl | exact fun h => h | exact rfl)
    | exact mask_sub hm rfl | exact rfl | split | intro _ _ _ | intro _ _

theorem keep_execStoreReadyChange {stack : Nat} {ready : Bool} {s : State} (hm : 539018240 &&& M = 539018240) (h_s : Keep M s0 s) :
    KeepO M s0 (execStoreReadyChange stack ready s) := by
  unfold execStoreReadyChange
  try dsimp only
  repeat' first
    | (with_reducible first
      | assumption | apply Keep.ite | apply KeepO.next | apply KeepO.ite | apply keep_fresh | apply keep_storeFault | apply keep_askOwed)
    | ((simp only [keep_mk]; apply Keep.upd) <;> try first | exact .inl (mask_bit hm rfl) | exact .inr rfl | exact fun h => h | exact rfl)
    | exact mask_sub hm rfl | exact rfl | split | intro _ _ _ | intro _ _

theorem keep_releasedGap {unit : Nat} {from_ : Nat} {release : Nat} {s : State} (hm : 1073741824 &&& M = 1073741824) (h_s : Keep M s0 s) :
    Keep M s0 (releasedGap unit from_ release s).2 := by
  unfold releasedGap
  try dsimp only
  repeat' first
    | (with_reducible first
      | assumption | apply Keep.ite | apply keep_release)
    | ((simp only [keep_mk]; apply Keep.upd) <;> try first | exact .inl (mask_bit hm rfl) | exact .inr rfl | exact fun h => h | exact rfl)
    | exact mask_sub hm rfl | exact rfl | split

theorem keep_fetchOne {u : Nat} {from_ : Nat} {s : State} (hm : 1610630144 &&& M = 1610630144) (h_s : Keep M s0 s) :
    Keep M s0 (fetchOne u from_ s).2 := by
  unfold fetchOne
  try dsimp only
  repeat' first
    | (with_reducible first
      | assumption | apply Keep.ite | apply KeepO.next | apply KeepO.ite | apply keep_release | apply keep_releaseTo | apply keep_sendAck
      | apply keep_putReporter | apply keep_releasedGap | refine Keep.ofPair (by assumption) ?_ | refine Keep.ofTriple (by assumption) ?_)
    | ((simp only [keep_mk]; apply Keep.upd) <;> try first | exact .inl (mask_bit hm rfl) | exact .inr rfl | exact fun h => h | exact rfl)
    | exact mask_sub hm rfl | exact rfl | split | intro _ _ _ | intro _ _

theorem keep_execExportPeriodEnd {s : State} (hm : 536904704 &&& M = 536904704) (h_s : Keep M s0 s) : KeepO M s0 (execExportPeriodEnd s) := by
  unfold execExportPeriodEnd
  try dsimp only
  repeat' first
    | (with_reducible first
      | assumption | apply Keep.ite | apply KeepO.next | apply KeepO.ite | apply keep_fresh | apply keep_exportItem | apply Keep.foldl
      | apply Keep.foldlP)
    | ((simp only [keep_mk]; apply Keep.upd) <;> try first | exact .inl (mask_bit hm rfl) | exact .inr rfl | exact fun h => h | exact rfl)
    | exact mask_sub hm rfl | exact rfl | split | intro _ _ _ | intro _ _

theorem keep_errSetRoute {r : Request} {s : State} (hm : 16384 &&& M = 16384) (h_s : Keep M s0 s) : Keep M s0 (errSetRoute r s).2 := by
  unfold errSetRoute
  try dsimp only
  repeat' first
    | (with_reducible first
      | assumption | apply Keep.ite | apply keep_command | apply keep_resendAll)
    | ((simp only [keep_mk]; apply Keep.upd) <;> try first | exact .inl (mask_bit hm rfl) | exact .inr rfl | exact fun h => h | exact rfl)
    | exact mask_sub hm rfl | exact rfl | split | intro _ _ _ | intro _ _

theorem keep_execErrSetRoute {r : Request} {s : State} (hm : 613434388 &&& M = 613434388) (h_s : Keep M s0 s) :
    KeepO M s0 (execErrSetRoute r s) := by
  unfold execErrSetRoute
  repeat' first
    | (with_reducible first
      | assumption | apply KeepO.next | apply KeepO.ite | apply keep_begin_ | apply keep_finish | apply keep_errSetRoute)
    | exact mask_sub hm rfl

theorem keep_noteFetched {r : Request} {es : List Bytes} {s : State} (hm : 16384 &&& M = 16384) (h_s : Keep M s0 s) :
    Keep M s0 (noteFetched r es s) := by
  unfold noteFetched
  try dsimp only
  repeat' first
    | (with_reducible first
      | assumption | apply Keep.ite | apply Keep.foldl | apply Keep.foldlP)
    | ((simp only [keep_mk]; apply Keep.upd) <;> try first | exact .inl (mask_bit hm rfl) | exact .inr rfl | exact fun h => h | exact rfl) | exact rfl
    | split | intro _ _ _ | intro _ _

theorem keep_errFetch {r : Request} {s : State} (hm : 1610630144 &&& M = 1610630144) (h_s : Keep M s0 s) : Keep M s0 (errFetch r s).2 := by
  unfold errFetch
  try dsimp only
  repeat' first
    | (with_reducible first
      | assumption | apply Keep.ite | apply keep_command | apply keep_askOwed | apply keep_fetchOne | apply keep_noteFetched | apply Keep.foldl
      | apply Keep.foldlP | refine Keep.ofPair (by assumption) ?_ | refine Keep.ofTriple (by assumption) ?_)
    | ((simp only [keep_mk]; apply Keep.upd) <;> try first | exact .inl (mask_bit hm rfl) | exact .inr rfl | exact fun h => h | exact rfl)
    | exact mask_sub hm rfl | exact rfl | split | intro _ _ _ | intro _ _

theorem keep_execErrFetch {r : Request} {s : State} (hm : 1687176212 &&& M = 1687176212) (h_s : Keep M s0 s) :
    KeepO M s0 (execErrFetch r s) := by
  unfold execErrFetch
  repeat' first
    | (with_reducible first
      | assumption | apply KeepO.next | apply KeepO.ite | apply keep_begin_ | apply keep_finish | apply keep_errFetch)
    | exact mask_sub hm rfl

theorem keep_errGet {r : Request} {s : State} (hm : 0 &&& M = 0) (h_s : Keep M s0 s) : Keep M s0 (errGet r s).2 := by
  unfold errGet
  try dsimp only
  repeat' first
    | (with_reducible first
      | assumption | apply Keep.ite | apply KeepO.next | apply KeepO.ite | apply keep_command | apply keep_release)
    | ((simp only [keep_mk]; apply Keep.upd) <;> try first | exact .inl (mask_bit hm rfl) | exact .inr rfl | exact fun h => h | exact rfl)
    | exact mask_sub hm rfl | exact rfl | split | intro _ _ _ | intro _ _

theorem keep_execErrGet {r : Request} {s : State} (hm : 613418004 &&& M = 613418004) (h_s : Keep M s0 s) : KeepO M s0 (execErrGet r s) := by
  unfold execErrGet
  repeat' first
    | (with_reducible first
      | assumption | apply KeepO.next | apply KeepO.ite | apply keep_begin_ | apply keep_finish | apply keep_errGet)
    | exact mask_sub hm rfl

theorem keep_errReadRing {r : Request} {s : State} (hm : 0 &&& M = 0) (h_s : Keep M s0 s) : Keep M s0 (errReadRing r s).2 := by
  unfold errReadRing
  try dsimp only
  repeat' first
    | (with_reducible first
      | assumption | apply Keep.ite | apply keep_command | refine Keep.ofPair (by assumption) ?_ | refine Keep.ofTriple (by assumption) ?_)
    | ((simp only [keep_mk]; apply Keep.upd) <;> try first | exact .inl (mask_bit hm rfl) | exact .inr rfl | exact fun h => h | exact rfl)
    | exact mask_sub hm rfl | exact rfl | split | intro _ _ _ | intro _ _

theorem keep_execErrReadRing {r : Request} {s : State} (hm : 613418004 &&& M = 613418004) (h_s : Keep M s0 s) :
    KeepO M s0 (execErrReadRing r s) := by
  unfold execErrReadRing
  repeat' first
    | (with_reducible first
      | assumption | apply KeepO.next | apply KeepO.ite | apply keep_begin_ | apply keep_finish | apply keep_errReadRing)
    | exact mask_sub hm rfl

theorem keep_errInject {r : Request} {s : State} (hm : 536921088 &&& M = 536921088) (h_s : Keep M s0 s) : Keep M s0 (errInject r s).2 := by
  unfold errInject
  try dsimp only
  repeat' first
    | (with_reducible first
      | assumption | apply Keep.ite | apply keep_command | apply keep_raiseOwn)
    | ((simp only [keep_mk]; apply Keep.upd) <;> try first | exact .inl (mask_bit hm rfl) | exact .inr rfl | exact fun h => h | exact rfl)
    | exact mask_sub hm rfl | exact rfl | split | intro _ _ _ | intro _ _

theorem keep_execErrInject {r : Request} {s : State} (hm : 613467156 &&& M = 613467156) (h_s : Keep M s0 s) :
    KeepO M s0 (execErrInject r s) := by
  unfold execErrInject
  repeat' first
    | (with_reducible first
      | assumption | apply KeepO.next | apply KeepO.ite | apply keep_begin_ | apply keep_finish | apply keep_errInject)
    | exact mask_sub hm rfl

theorem keep_errSetExport {r : Request} {s : State} (hm : 32768 &&& M = 32768) (h_s : Keep M s0 s) : Keep M s0 (errSetExport r s).2 := by
  unfold errSetExport
  try dsimp only
  repeat' first
    | (with_reducible first
      | assumption | apply Keep.ite | apply keep_command | refine Keep.ofPair (by assumption) ?_ | refine Keep.ofTriple (by assumption) ?_)
    | ((simp only [keep_mk]; apply Keep.upd) <;> try first | exact .inl (mask_bit hm rfl) | exact .inr rfl | exact fun h => h | exact rfl)
    | exact mask_sub hm rfl | exact rfl | split | intro _ _ _ | intro _ _

theorem keep_execErrSetExport {r : Request} {s : State} (hm : 613450772 &&& M = 613450772) (h_s : Keep M s0 s) :
    KeepO M s0 (execErrSetExport r s) := by
  unfold execErrSetExport
  repeat' first
    | (with_reducible first
      | assumption | apply KeepO.next | apply KeepO.ite | apply keep_begin_ | apply keep_finish | apply keep_errSetExport)
    | exact mask_sub hm rfl

theorem keep_errGetSignatures {r : Request} {s : State} (hm : 0 &&& M = 0) (h_s : Keep M s0 s) : Keep M s0 (errGetSignatures r s).2 := by
  unfold errGetSignatures
  try dsimp only
  repeat' first
    | (with_reducible first
      | assumption | apply keep_command)
    | ((simp only [keep_mk]; apply Keep.upd) <;> try first | exact .inl (mask_bit hm rfl) | exact .inr rfl | exact fun h => h | exact rfl)
    | exact mask_sub hm rfl | exact rfl | intro _ _ _ | intro _ _

theorem keep_execErrGetSignatures {r : Request} {s : State} (hm : 613418004 &&& M = 613418004) (h_s : Keep M s0 s) :
    KeepO M s0 (execErrGetSignatures r s) := by
  unfold execErrGetSignatures
  repeat' first
    | (with_reducible first
      | assumption | apply KeepO.next | apply KeepO.ite | apply keep_begin_ | apply keep_finish | apply keep_errGetSignatures)
    | exact mask_sub hm rfl

theorem keep_psnGetBirths {r : Request} {s : State} (hm : 0 &&& M = 0) (h_s : Keep M s0 s) : Keep M s0 (psnGetBirths r s).2 := by
  unfold psnGetBirths
  try dsimp only
  repeat' first
    | (with_reducible first
      | assumption | apply keep_command | refine Keep.ofPair (by assumption) ?_ | refine Keep.ofTriple (by assumption) ?_)
    | ((simp only [keep_mk]; apply Keep.upd) <;> try first | exact .inl (mask_bit hm rfl) | exact .inr rfl | exact fun h => h | exact rfl)
    | exact mask_sub hm rfl | exact rfl | split | intro _ _ _ | intro _ _

theorem keep_execPsnGetBirths {r : Request} {s : State} (hm : 613418004 &&& M = 613418004) (h_s : Keep M s0 s) :
    KeepO M s0 (execPsnGetBirths r s) := by
  unfold execPsnGetBirths
  repeat' first
    | (with_reducible first
      | assumption | apply KeepO.next | apply KeepO.ite | apply keep_begin_ | apply keep_finish | apply keep_psnGetBirths)
    | exact mask_sub hm rfl

theorem keep_psnGetCounts {r : Request} {s : State} (hm : 0 &&& M = 0) (h_s : Keep M s0 s) : Keep M s0 (psnGetCounts r s).2 := by
  unfold psnGetCounts
  repeat' first
    | (with_reducible first
      | assumption | apply keep_command)
    | ((simp only [keep_mk]; apply Keep.upd) <;> try first | exact .inl (mask_bit hm rfl) | exact .inr rfl | exact fun h => h | exact rfl)
    | exact mask_sub hm rfl | exact rfl | intro _ _ _ | intro _ _

theorem keep_execPsnGetCounts {r : Request} {s : State} (hm : 613418004 &&& M = 613418004) (h_s : Keep M s0 s) :
    KeepO M s0 (execPsnGetCounts r s) := by
  unfold execPsnGetCounts
  repeat' first
    | (with_reducible first
      | assumption | apply KeepO.next | apply KeepO.ite | apply keep_begin_ | apply keep_finish | apply keep_psnGetCounts)
    | exact mask_sub hm rfl

end Sys2Proof.Machine
end

