-- ==== Sys2Proof/Laws/KeepHub.lean ====
section
/-! SUPPORT. What the operations of Machine/Hub.lean keep (`Keep`, Laws/Keep.lean): one lemma per operation. -/
namespace Sys2Proof.Machine

set_option linter.unusedSimpArgs false
set_option linter.unusedVariables false

variable {M : Nat} {s0 : State}

theorem keep_openCollection {n : Nat} {s : State} (hm : 512 &&& M = 512) (h_s : Keep M s0 s) : Keep M s0 (openCollection n s) := by
  unfold openCollection
  repeat' first
    | (with_reducible first
      | assumption)
    | ((simp only [keep_mk]; apply Keep.upd) <;> try first | exact .inl (mask_bit hm rfl) | exact .inr rfl | exact fun h => h | exact rfl) | exact rfl

theorem keep_collectAt {s : State} (hm : 512 &&& M = 512) (h_s : Keep M s0 s) : Keep M s0 (collectAt s) := by
  unfold collectAt
  try dsimp only
  repeat' first
    | (with_reducible first
      | assumption | apply Keep.ite | apply keep_openCollection | refine Keep.ofPair (by assumption) ?_ | refine Keep.ofTriple (by assumption) ?_)
    | exact mask_sub hm rfl | split

theorem keep_countOutcome {door : Nat} {k : Nat} {s : State} (hm : 512 &&& M = 512) (h_s : Keep M s0 s) :
    Keep M s0 (countOutcome door k s) := by
  unfold countOutcome
  try dsimp only
  repeat' first
    | (with_reducible first
      | assumption | apply Keep.ite)
    | ((simp only [keep_mk]; apply Keep.upd) <;> try first | exact .inl (mask_bit hm rfl) | exact .inr rfl | exact fun h => h | exact rfl) | exact rfl
    | split

theorem keep_frameRecord {cls : Nat} {sev : Nat} {unit : Option Nat} {door : Nat} {tag : Nat} {group : Nat} {count : Nat} {frame : Nat} {s : State} (hm : 536921088 &&& M = 536921088) (h_s : Keep M s0 s) :
    Keep M s0 (frameRecord cls sev unit door tag group count frame s) := by
  unfold frameRecord
  repeat' first
    | (with_reducible first
      | assumption | apply keep_raise)
    | ((simp only [keep_mk]; apply Keep.upd) <;> try first | exact .inl (mask_bit hm rfl) | exact .inr rfl | exact fun h => h | exact rfl)
    | exact mask_sub hm rfl | exact rfl

theorem keep_outcomeRecord {k : Nat} {door : Nat} {x : Arrived} {s : State} (hm : 536921088 &&& M = 536921088) (h_s : Keep M s0 s) :
    Keep M s0 (outcomeRecord k door x s) := by
  unfold outcomeRecord
  try dsimp only
  repeat' first
    | (with_reducible first
      | assumption | apply Keep.ite | apply keep_raise | apply keep_frameRecord | refine Keep.ofPair (by assumption) ?_
      | refine Keep.ofTriple (by assumption) ?_)
    | ((simp only [keep_mk]; apply Keep.upd) <;> try first | exact .inl (mask_bit hm rfl) | exact .inr rfl | exact fun h => h | exact rfl)
    | exact mask_sub hm rfl | exact rfl | split

theorem keep_swapItem {door : Nat} {x : Arrived} {body : Bytes} {old : Item} {s : State} (hm : 536921600 &&& M = 536921600) (h_s : Keep M s0 s) :
    Keep M s0 (swapItem door x body old s) := by
  unfold swapItem
  try dsimp only
  repeat' first
    | (with_reducible first
      | assumption | apply Keep.ite | apply keep_countOutcome | apply keep_outcomeRecord)
    | ((simp only [keep_mk]; apply Keep.upd) <;> try first | exact .inl (mask_bit hm rfl) | exact .inr rfl | exact fun h => h | exact rfl)
    | exact mask_sub hm rfl | exact rfl | split | intro _ _ _ | intro _ _

theorem keep_arrive {door : Nat} {x : Arrived} {body : Bytes} {s : State} (hm : 536921600 &&& M = 536921600) (h_s : Keep M s0 s) :
    Keep M s0 (arrive door x body s) := by
  unfold arrive
  try dsimp only
  repeat' first
    | (with_reducible first
      | assumption | apply Keep.ite | apply keep_collectAt | apply keep_countOutcome | apply keep_outcomeRecord | apply keep_swapItem
      | refine Keep.ofPair (by assumption) ?_ | refine Keep.ofTriple (by assumption) ?_)
    | ((simp only [keep_mk]; apply Keep.upd) <;> try first | exact .inl (mask_bit hm rfl) | exact .inr rfl | exact fun h => h | exact rfl)
    | exact mask_sub hm rfl | exact rfl | split

theorem keep_execContributionArrival {after : Nat} {door : Nat} {item : Bytes} {s : State} (hm : 537970196 &&& M = 537970196) (h_s : Keep M s0 s) :
    KeepO M s0 (execContributionArrival after door item s) := by
  unfold execContributionArrival
  try dsimp only
  repeat' first
    | (with_reducible first
      | assumption | apply Keep.ite | apply KeepO.next | apply KeepO.ite | apply keep_begin_ | apply keep_arrive)
    | exact mask_sub hm rfl | split

theorem keep_execSummaryArrival {after : Nat} {door : Nat} {item : Bytes} {s : State} (hm : 537970196 &&& M = 537970196) (h_s : Keep M s0 s) :
    KeepO M s0 (execSummaryArrival after door item s) := by
  unfold execSummaryArrival
  try dsimp only
  repeat' first
    | (with_reducible first
      | assumption | apply Keep.ite | apply KeepO.next | apply KeepO.ite | apply keep_begin_ | apply keep_arrive)
    | exact mask_sub hm rfl | split

theorem keep_setItem {i : Nat} {st : Stage} {s : State} (hm : 512 &&& M = 512) (h_s : Keep M s0 s) : Keep M s0 (setItem i st s) := by
  unfold setItem
  repeat' first
    | (with_reducible first
      | assumption)
    | ((simp only [keep_mk]; apply Keep.upd) <;> try first | exact .inl (mask_bit hm rfl) | exact .inr rfl | exact fun h => h | exact rfl) | exact rfl
    | intro _ _ _ | intro _ _

theorem keep_execPassItemBegin {item : Nat} {s : State} (hm : 536871424 &&& M = 536871424) (h_s : Keep M s0 s) :
    KeepO M s0 (execPassItemBegin item s) := by
  unfold execPassItemBegin
  try dsimp only
  repeat' first
    | (with_reducible first
      | assumption | apply Keep.ite | apply KeepO.next | apply KeepO.ite | apply keep_fresh | apply keep_setItem)
    | exact mask_sub hm rfl | split

theorem keep_discardCand {k : Nat} {cls : Nat} {frame : Nat} {s : State} {c : Cand} (hm : 536921600 &&& M = 536921600) (h_s : Keep M s0 s) :
    Keep M s0 (discardCand k cls frame s c) := by
  unfold discardCand
  repeat' first
    | (with_reducible first
      | assumption | apply Keep.ite | apply keep_countOutcome | apply keep_frameRecord)
    | exact mask_sub hm rfl | split

theorem keep_settleGroup {frame : Nat} {cs : List Cand} {s : State} (hm : 536921600 &&& M = 536921600) (h_s : Keep M s0 s) :
    Keep M s0 (settleGroup frame cs s).2.2 := by
  unfold settleGroup
  try dsimp only
  repeat' first
    | (with_reducible first
      | assumption | apply Keep.ite | apply keep_discardCand | apply Keep.foldl | apply Keep.foldlP | refine Keep.ofPair (by assumption) ?_
      | refine Keep.ofTriple (by assumption) ?_)
    | ((simp only [keep_mk]; apply Keep.upd) <;> try first | exact .inl (mask_bit hm rfl) | exact .inr rfl | exact fun h => h | exact rfl)
    | exact mask_sub hm rfl | exact rfl | split | intro _ _ _ | intro _ _

theorem keep_settleGroups {s : State} {frame : Nat} {cs : List Cand} {l : List Nat} (hm : 536921600 &&& M = 536921600) (h_s : Keep M s0 s) :
    Keep M s0 (settleGroups frame cs l s).2.2 := by
  induction l generalizing s with
  | nil => exact h_s
  | cons g r ih => exact ih (keep_settleGroup (mask_sub hm rfl) h_s)

theorem keep_completeBegun {s : State} (hm : 512 &&& M = 512) (h_s : Keep M s0 s) : Keep M s0 (completeBegun s) := by
  unfold completeBegun
  repeat' first
    | (with_reducible first
      | assumption | apply Keep.ite)
    | ((simp only [keep_mk]; apply Keep.upd) <;> try first | exact .inl (mask_bit hm rfl) | exact .inr rfl | exact fun h => h | exact rfl) | exact rfl
    | split | intro _ _ _ | intro _ _

theorem keep_discardUnmerged {frame : Nat} {s : State} (hm : 536921600 &&& M = 536921600) (h_s : Keep M s0 s) :
    Keep M s0 (discardUnmerged frame s) := by
  unfold discardUnmerged
  try dsimp only
  repeat' first
    | (with_reducible first
      | assumption | apply Keep.ite | apply keep_countOutcome | apply keep_frameRecord | apply Keep.foldl | apply Keep.foldlP)
    | exact mask_sub hm rfl | split | intro _ _ _ | intro _ _

theorem keep_keep16 {frame : Nat} {cs : List Cand} {s : State} (hm : 536921600 &&& M = 536921600) (h_s : Keep M s0 s) :
    Keep M s0 (keep16 frame cs s).2 := by
  unfold keep16
  try dsimp only
  repeat' first
    | (with_reducible first
      | assumption | apply Keep.ite | apply keep_countOutcome | apply keep_frameRecord | apply Keep.foldl | apply Keep.foldlP)
    | exact mask_sub hm rfl | split | intro _ _ _ | intro _ _

theorem keep_formSummary {s : State} (hm : 536921600 &&& M = 536921600) (h_s : Keep M s0 s) : Keep M s0 (formSummary s).2 := by
  unfold formSummary
  try dsimp only
  repeat' first
    | (with_reducible first
      | assumption | apply Keep.ite | apply keep_settleGroups | apply keep_completeBegun | apply keep_discardUnmerged | apply keep_keep16
      | refine Keep.ofPair (by assumption) ?_ | refine Keep.ofTriple (by assumption) ?_)
    | ((simp only [keep_mk]; apply Keep.upd) <;> try first | exact .inl (mask_bit hm rfl) | exact .inr rfl | exact fun h => h | exact rfl)
    | exact mask_sub hm rfl | exact rfl | split | intro _ _ _ | intro _ _

theorem keep_keepSummary {n : Nat} {b : Bytes} {s : State} (hm : 512 &&& M = 512) (h_s : Keep M s0 s) : Keep M s0 (keepSummary n b s) := by
  unfold keepSummary
  repeat' first
    | (with_reducible first
      | assumption)
    | ((simp only [keep_mk]; apply Keep.upd) <;> try first | exact .inl (mask_bit hm rfl) | exact .inr rfl | exact fun h => h | exact rfl) | exact rfl

theorem keep_addPass {k : Sig} {s : State} (hm : 32768 &&& M = 32768) (h_s : Keep M s0 s) : Keep M s0 (addPass k s) := by
  unfold addPass
  repeat' first
    | (with_reducible first
      | assumption | apply Keep.ite)
    | ((simp only [keep_mk]; apply Keep.upd) <;> try first | exact .inl (mask_bit hm rfl) | exact .inr rfl | exact fun h => h | exact rfl) | exact rfl
    | split | intro _ _ _ | intro _ _

theorem keep_signProbe {die : Nat} {b : Bytes} {s : State} (hm : 536904704 &&& M = 536904704) (h_s : Keep M s0 s) :
    Keep M s0 (signProbe die b s) := by
  unfold signProbe
  try dsimp only
  repeat' first
    | (with_reducible first
      | assumption | apply Keep.ite | apply keep_signOccurrence | apply keep_addPass | refine Keep.ofPair (by assumption) ?_
      | refine Keep.ofTriple (by assumption) ?_)
    | ((simp only [keep_mk]; apply Keep.upd) <;> try first | exact .inl (mask_bit hm rfl) | exact .inr rfl | exact fun h => h | exact rfl)
    | exact mask_sub hm rfl | split

theorem keep_exportFrame {s : State} (hm : 536904704 &&& M = 536904704) (h_s : Keep M s0 s) : Keep M s0 (exportFrame s) := by
  unfold exportFrame
  try dsimp only
  repeat' first
    | (with_reducible first
      | assumption | apply Keep.ite | apply keep_exportItem | apply keep_signProbe | apply Keep.foldl | apply Keep.foldlP)
    | exact mask_sub hm rfl | split | intro _ _ _ | intro _ _

theorem keep_sendSummary {x : Summary} {p : Nat} {s : State} (hm : 536872448 &&& M = 536872448) (h_s : Keep M s0 s) :
    Keep M s0 (sendSummary x p s).2 := by
  unfold sendSummary
  try dsimp only
  repeat' first
    | (with_reducible first
      | assumption | apply Keep.ite | apply keep_setDoor | apply keep_sendMsg | refine Keep.ofPair (by assumption) ?_
      | refine Keep.ofTriple (by assumption) ?_)
    | ((simp only [keep_mk]; apply Keep.upd) <;> try first | exact .inl (mask_bit hm rfl) | exact .inr rfl | exact fun h => h | exact rfl)
    | exact mask_sub hm rfl | exact rfl | split | intro _ _ _ | intro _ _

theorem keep_sendSummaries {x : Summary} {s : State} (hm : 536921600 &&& M = 536921600) (h_s : Keep M s0 s) :
    Keep M s0 (sendSummaries x s) := by
  unfold sendSummaries
  try dsimp only
  repeat' first
    | (with_reducible first
      | assumption | apply keep_frameRecord | apply keep_sendSummary | refine Keep.ofPair (by assumption) ?_ | refine Keep.ofTriple (by assumption) ?_)
    | ((simp only [keep_mk]; apply Keep.upd) <;> try first | exact .inl (mask_bit hm rfl) | exact .inr rfl | exact fun h => h | exact rfl)
    | exact mask_sub hm rfl | split

theorem keep_exportFull {n : Nat} {full : Bytes} {s : State} (hm : 536904704 &&& M = 536904704) (h_s : Keep M s0 s) :
    Keep M s0 (exportFull n full s) := by
  unfold exportFull
  repeat' first | (with_reducible first | assumption | apply Keep.ite | apply keep_exportItem) | exact mask_sub hm rfl | split

theorem keep_execHubMark {s : State} (hm : 537970196 &&& M = 537970196) (h_s : Keep M s0 s) : KeepO M s0 (execHubMark s) := by
  unfold execHubMark
  try dsimp only
  repeat' first
    | (with_reducible first
      | assumption | apply Keep.ite | apply KeepO.next | apply KeepO.ite | apply keep_fresh | apply keep_advanceTo | apply keep_sendDown
      | apply keep_formSummary | apply keep_keepSummary | apply keep_exportFrame | apply keep_sendSummaries | apply keep_exportFull
      | refine Keep.ofPair (by assumption) ?_ | refine Keep.ofTriple (by assumption) ?_)
    | ((simp only [keep_mk]; apply Keep.upd) <;> try first | exact .inl (mask_bit hm rfl) | exact .inr rfl | exact fun h => h | exact rfl)
    | exact mask_sub hm rfl | exact rfl | split

theorem keep_settleRoot {s : State} (hm : 536921600 &&& M = 536921600) (h_s : Keep M s0 s) : Keep M s0 (settleRoot s) := by
  unfold settleRoot
  try dsimp only
  repeat' first
    | (with_reducible first
      | assumption | apply Keep.ite | apply keep_formSummary | refine Keep.ofPair (by assumption) ?_ | refine Keep.ofTriple (by assumption) ?_)
    | ((simp only [keep_mk]; apply Keep.upd) <;> try first | exact .inl (mask_bit hm rfl) | exact .inr rfl | exact fun h => h | exact rfl)
    | exact mask_sub hm rfl | exact rfl | split

theorem keep_rootTry {s : State} (hm : 536921600 &&& M = 536921600) (h_s : Keep M s0 s) : Keep M s0 (rootTry s) := by
  unfold rootTry
  try dsimp only
  repeat' first
    | (with_reducible first
      | assumption | apply Keep.ite | apply keep_sendMsg | apply keep_settleRoot | refine Keep.ofPair (by assumption) ?_
      | refine Keep.ofTriple (by assumption) ?_)
    | ((simp only [keep_mk]; apply Keep.upd) <;> try first | exact .inl (mask_bit hm rfl) | exact .inr rfl | exact fun h => h | exact rfl)
    | exact mask_sub hm rfl | exact rfl | split | intro _ _ _ | intro _ _

theorem keep_takeHeld {s : State} (hm : 512 &&& M = 512) (h_s : Keep M s0 s) : Keep M s0 (takeHeld s) := by
  unfold takeHeld
  try dsimp only
  repeat' first
    | (with_reducible first
      | assumption | apply Keep.ite | apply keep_countOutcome | apply Keep.foldl | apply Keep.foldlP)
    | ((simp only [keep_mk]; apply Keep.upd) <;> try first | exact .inl (mask_bit hm rfl) | exact .inr rfl | exact fun h => h | exact rfl)
    | exact mask_sub hm rfl | exact rfl | split | intro _ _ _ | intro _ _

theorem keep_execInputClose {s : State} (hm : 537970196 &&& M = 537970196) (h_s : Keep M s0 s) : KeepO M s0 (execInputClose s) := by
  unfold execInputClose
  try dsimp only
  repeat' first
    | (with_reducible first
      | assumption | apply Keep.ite | apply KeepO.next | apply KeepO.ite | apply keep_fresh | apply keep_advanceTo | apply keep_rootTry
      | apply keep_takeHeld)
    | ((simp only [keep_mk]; apply Keep.upd) <;> try first | exact .inl (mask_bit hm rfl) | exact .inr rfl | exact fun h => h | exact rfl)
    | exact mask_sub hm rfl | exact rfl | split

theorem keep_execPassItemApplied {item : Nat} {s : State} (hm : 536921600 &&& M = 536921600) (h_s : Keep M s0 s) :
    KeepO M s0 (execPassItemApplied item s) := by
  unfold execPassItemApplied
  try dsimp only
  repeat' first
    | (with_reducible first
      | assumption | apply Keep.ite | apply KeepO.next | apply KeepO.ite | apply keep_fresh | apply keep_setItem | apply keep_rootTry
      | refine Keep.ofPair (by assumption) ?_ | refine Keep.ofTriple (by assumption) ?_)
    | ((simp only [keep_mk]; apply Keep.upd) <;> try first | exact .inl (mask_bit hm rfl) | exact .inr rfl | exact fun h => h | exact rfl)
    | exact mask_sub hm rfl | split

theorem keep_execRootCheckArrival {after : Nat} {door : Nat} {body : Bytes} {s : State} (hm : 537921044 &&& M = 537921044) (h_s : Keep M s0 s) :
    KeepO M s0 (execRootCheckArrival after door body s) := by
  unfold execRootCheckArrival
  try dsimp only
  repeat' first
    | (with_reducible first
      | assumption | apply Keep.ite | apply KeepO.next | apply KeepO.ite | apply keep_begin_ | apply keep_malformedOn)
    | ((simp only [keep_mk]; apply Keep.upd) <;> try first | exact .inl (mask_bit hm rfl) | exact .inr rfl | exact fun h => h | exact rfl)
    | exact mask_sub hm rfl | exact rfl | split

theorem keep_execRootParametersArrival {after : Nat} {door : Nat} {body : Bytes} {s : State} (hm : 537920540 &&& M = 537920540) (h_s : Keep M s0 s) :
    KeepO M s0 (execRootParametersArrival after door body s) := by
  unfold execRootParametersArrival
  try dsimp only
  repeat' first
    | (with_reducible first
      | assumption | apply Keep.ite | apply KeepO.next | apply KeepO.ite | apply keep_begin_ | apply keep_malformedOn | apply keep_receiveParams)
    | exact mask_sub hm rfl | split

theorem keep_execRootMark {s : State} (hm : 537970196 &&& M = 537970196) (h_s : Keep M s0 s) : KeepO M s0 (execRootMark s) := by
  unfold execRootMark
  try dsimp only
  repeat' first
    | (with_reducible first
      | assumption | apply Keep.ite | apply KeepO.next | apply KeepO.ite | apply keep_fresh | apply keep_advanceTo | apply keep_raise
      | apply keep_sendDown | apply keep_keepSummary | apply keep_exportFull | apply keep_settleRoot)
    | ((simp only [keep_mk]; apply Keep.upd) <;> try first | exact .inl (mask_bit hm rfl) | exact .inr rfl | exact fun h => h | exact rfl)
    | exact mask_sub hm rfl | exact rfl | split

theorem keep_forwardCopy {n : Nat} {b : Bytes} {s : State} (hm : 536872448 &&& M = 536872448) (h_s : Keep M s0 s) :
    Keep M s0 (forwardCopy n b s) := by
  unfold forwardCopy
  repeat' first
    | (with_reducible first
      | assumption | apply Keep.ite | apply keep_sendDown)
    | ((simp only [keep_mk]; apply Keep.upd) <;> try first | exact .inl (mask_bit hm rfl) | exact .inr rfl | exact fun h => h | exact rfl)
    | exact mask_sub hm rfl | exact rfl | split

theorem keep_beginThrough {d : Nat} {n : Nat} {b : Bytes} {len : Nat} {s : State} (hm : 536872448 &&& M = 536872448) (h_s : Keep M s0 s) :
    Keep M s0 (beginThrough d n b len s) := by
  unfold beginThrough
  try dsimp only
  repeat' first
    | (with_reducible first
      | assumption | apply Keep.ite | apply keep_sendMsg | apply Keep.foldl | apply Keep.foldlP)
    | ((simp only [keep_mk]; apply Keep.upd) <;> try first | exact .inl (mask_bit hm rfl) | exact .inr rfl | exact fun h => h | exact rfl)
    | exact mask_sub hm rfl | exact rfl | split | intro _ _ _ | intro _ _

theorem keep_throughPart {d : Nat} {kind : Nat} {m : Bytes} {s : State} (hm : 536872448 &&& M = 536872448) (h_s : Keep M s0 s) :
    Keep M s0 (throughPart d kind m s) := by
  unfold throughPart
  try dsimp only
  repeat' first
    | (with_reducible first
      | assumption | apply Keep.ite | apply keep_growDown | apply keep_beginThrough | refine Keep.ofPair (by assumption) ?_
      | refine Keep.ofTriple (by assumption) ?_)
    | ((simp only [keep_mk]; apply Keep.upd) <;> try first | exact .inl (mask_bit hm rfl) | exact .inr rfl | exact fun h => h | exact rfl)
    | exact mask_sub hm rfl | split

theorem keep_endThrough {d : Nat} {kind : Nat} {s : State} (hm : 536872448 &&& M = 536872448) (h_s : Keep M s0 s) :
    Keep M s0 (endThrough d kind s) := by
  unfold endThrough
  repeat' first | (with_reducible first | assumption | apply Keep.ite | apply keep_breakThrough) | exact mask_sub hm rfl | split

theorem keep_hubReturned {door : Nat} {aborted : Bool} {b : Bytes} {s : State} (hm : 536872456 &&& M = 536872456) (h_s : Keep M s0 s) :
    Keep M s0 (hubReturned door aborted b s) := by
  unfold hubReturned
  try dsimp only
  repeat' first
    | (with_reducible first
      | assumption | apply Keep.ite | apply keep_endDown | apply keep_breakThrough | apply keep_malformedOn | apply keep_receiveParams
      | apply keep_forwardCopy | apply keep_beginThrough | refine Keep.ofPair (by assumption) ?_ | refine Keep.ofTriple (by assumption) ?_)
    | ((simp only [keep_mk]; apply Keep.upd) <;> try first | exact .inl (mask_bit hm rfl) | exact .inr rfl | exact fun h => h | exact rfl | exact fun h => PendDistinct.filter h _)
    | exact mask_sub hm rfl | exact rfl | split

theorem keep_execReturnedSummaryArrival {after : Nat} {door : Nat} {aborted : Bool} {item : Bytes} {s : State} (hm : 537921052 &&& M = 537921052) (h_s : Keep M s0 s) :
    KeepO M s0 (execReturnedSummaryArrival after door aborted item s) := by
  unfold execReturnedSummaryArrival
  try dsimp only
  repeat' first
    | (with_reducible first
      | assumption | apply Keep.ite | apply KeepO.next | apply KeepO.ite | apply keep_begin_ | apply keep_dieReturned | apply keep_hubReturned)
    | exact mask_sub hm rfl | split

theorem keep_selectPoint {k : Nat} {s : State} (hm : 537921044 &&& M = 537921044) (h_s : Keep M s0 s) : Keep M s0 (selectPoint k s) := by
  unfold selectPoint
  try dsimp only
  repeat' first
    | (with_reducible first
      | assumption | apply Keep.ite | apply keep_advanceTo | apply keep_forwardCopy | apply keep_beginThrough | refine Keep.ofPair (by assumption) ?_
      | refine Keep.ofTriple (by assumption) ?_)
    | ((simp only [keep_mk]; apply Keep.upd) <;> try first | exact .inl (mask_bit hm rfl) | exact .inr rfl | exact fun h => h | exact rfl)
    | exact mask_sub hm rfl | exact rfl | split | intro _ _ _ | intro _ _

theorem keep_execPodSelectPoint {s : State} (hm : 537921044 &&& M = 537921044) (h_s : Keep M s0 s) : KeepO M s0 (execPodSelectPoint s) := by
  unfold execPodSelectPoint
  try dsimp only
  repeat' first
    | (with_reducible first
      | assumption | apply Keep.ite | apply KeepO.next | apply KeepO.ite | apply keep_fresh | apply keep_selectPoint)
    | exact mask_sub hm rfl | split

theorem keep_execTraySelectPoint {s : State} (hm : 537921044 &&& M = 537921044) (h_s : Keep M s0 s) : KeepO M s0 (execTraySelectPoint s) := by
  unfold execTraySelectPoint
  try dsimp only
  repeat' first
    | (with_reducible first
      | assumption | apply Keep.ite | apply KeepO.next | apply KeepO.ite | apply keep_fresh | apply keep_selectPoint)
    | exact mask_sub hm rfl | split

end Sys2Proof.Machine
end

