-- ==== Sys2Proof/Laws/KeepDoors.lean ====
section
/-! SUPPORT. What the operations of Machine/Doors.lean keep (`Keep`, Laws/Keep.lean): one lemma per operation. -/
namespace Sys2Proof.Machine

set_option linter.unusedSimpArgs false
set_option linter.unusedVariables false

variable {M : Nat} {s0 : State}

theorem keep_expectedWord {e : Nat} {s : State} (hm : 1073741824 &&& M = 1073741824) (h_s : Keep M s0 s) : Keep M s0 (expectedWord e s).2 := by
  unfold expectedWord
  try dsimp only
  repeat' first
    | (with_reducible first
      | assumption | apply Keep.ite | refine Keep.ofPair (by assumption) ?_ | refine Keep.ofTriple (by assumption) ?_)
    | ((simp only [keep_mk]; apply Keep.upd) <;> try first | exact .inl (mask_bit hm rfl) | exact .inr rfl | exact fun h => h | exact rfl) | exact rfl
    | split

theorem keep_miswire {d : Nat} {hello : Bytes} {s : State} (hm : 1879098880 &&& M = 1879098880) (h_s : Keep M s0 s) :
    Keep M s0 (miswire d hello s) := by
  unfold miswire
  try dsimp only
  repeat' first
    | (with_reducible first
      | assumption | apply Keep.ite | apply keep_raiseOwn | apply keep_setDoor | apply keep_doorLoss | apply keep_leaveLive | apply keep_sendHello
      | apply keep_expectedWord | refine Keep.ofPair (by assumption) ?_ | refine Keep.ofTriple (by assumption) ?_)
    | ((simp only [keep_mk]; apply Keep.upd) <;> try first | exact .inl (mask_bit hm rfl) | exact .inr rfl | exact fun h => h | exact rfl)
    | exact mask_sub hm rfl | exact rfl | split | intro _ _ _ | intro _ _

theorem keep_peerFresh {d : Nat} {s : State} (hm : 538199040 &&& M = 538199040) (h_s : Keep M s0 s) : Keep M s0 (peerFresh d s) := by
  unfold peerFresh
  try dsimp only
  repeat' first
    | (with_reducible first
      | assumption | apply Keep.ite | apply keep_imageFresh | apply keep_resendAll | apply keep_sendAck | apply Keep.foldl | apply Keep.foldlP)
    | ((simp only [keep_mk]; apply Keep.upd) <;> try first | exact .inl (mask_bit hm rfl) | exact .inr rfl | exact fun h => h | exact rfl | exact fun h => ⟨h.1, h.2, h.3, h.4⟩)
    | exact mask_sub hm rfl | exact rfl | split | intro _ _ _ | intro _ _

theorem keep_comeUp {d : Nat} {s : State} (hm : 538207232 &&& M = 538207232) (h_s : Keep M s0 s) : Keep M s0 (comeUp d s) := by
  unfold comeUp
  try dsimp only
  repeat' first
    | (with_reducible first
      | assumption | apply Keep.ite | apply keep_fresh | apply keep_setDoor | apply keep_resumeLink | apply keep_releaseHeld
      | apply keep_sendOutcomeDue | apply keep_sendRootParams | apply keep_pushOn | apply keep_peerFresh)
    | ((simp only [keep_mk]; apply Keep.upd) <;> try first | exact .inl (mask_bit hm rfl) | exact .inr rfl | exact fun h => h | exact rfl)
    | exact mask_sub hm rfl | exact rfl | split | intro _ _ _ | intro _ _

theorem keep_trainIfFree {d : Nat} {s : State} (hm : 536872448 &&& M = 536872448) (h_s : Keep M s0 s) : Keep M s0 (trainIfFree d s) := by
  unfold trainIfFree
  try dsimp only
  repeat' first | (with_reducible first | assumption | apply Keep.ite | apply keep_train) | exact mask_sub hm rfl | split

theorem keep_acceptHello (hm : 538207232 &&& M = 538207232) {s : State} {d : Nat} {b : Bytes} (h_s : Keep M s0 s) : Keep M s0 (helloTaken.acceptHello d b s) := by
  unfold helloTaken.acceptHello
  try dsimp only
  repeat' first
    | with_reducible assumption
    | with_reducible apply Keep.ite
    | with_reducible apply KeepO.ite
    | with_reducible apply KeepO.next
    | with_reducible apply keep_setDoor
    | with_reducible apply keep_sendHello
    | with_reducible apply keep_comeUp
    | ((simp only [keep_mk]; apply Keep.upd) <;> try first | exact .inl (mask_bit hm rfl) | (with_reducible exact .inr rfl) | exact fun h => h | (with_reducible exact rfl) | exact fun h => PendDistinct.filter h _ | exact fun h => ⟨h.1, h.2, h.3, h.4⟩)
    | exact mask_sub hm rfl
    | with_reducible apply Keep.foldl
    | with_reducible apply Keep.foldlP
    | rfl
    | with_reducible exact Keep.refl _
    | with_reducible refine Keep.ofPair (by assumption) ?_
    | with_reducible refine Keep.ofTriple (by assumption) ?_
    | split
    | intro _ _ _
    | intro _ _

theorem keep_helloTaken (hm : 1880417792 &&& M = 1880417792) {d : Nat} {b : Bytes} {s : State} (h_s : Keep M s0 s) : Keep M s0 (helloTaken d b s) := by
  unfold helloTaken
  try dsimp only
  repeat' first
    | with_reducible apply keep_acceptHello
    | with_reducible assumption
    | with_reducible apply Keep.ite
    | with_reducible apply KeepO.ite
    | with_reducible apply KeepO.next
    | with_reducible apply keep_setDoor
    | with_reducible apply keep_sendHello
    | with_reducible apply keep_malformedOn
    | with_reducible apply keep_miswire
    | with_reducible apply keep_comeUp
    | ((simp only [keep_mk]; apply Keep.upd) <;> try first | exact .inl (mask_bit hm rfl) | (with_reducible exact .inr rfl) | exact fun h => h | (with_reducible exact rfl) | exact fun h => PendDistinct.filter h _ | exact fun h => ⟨h.1, h.2, h.3, h.4⟩)
    | exact mask_sub hm rfl
    | with_reducible apply Keep.foldl
    | with_reducible apply Keep.foldlP
    | rfl
    | with_reducible exact Keep.refl _
    | with_reducible refine Keep.ofPair (by assumption) ?_
    | with_reducible refine Keep.ofTriple (by assumption) ?_
    | split
    | intro _ _ _
    | intro _ _

theorem keep_execHelloArrival {after : Nat} {door : Nat} {body : Bytes} {s : State} (hm : 1880417812 &&& M = 1880417812) (h_s : Keep M s0 s) :
    KeepO M s0 (execHelloArrival after door body s) := by
  unfold execHelloArrival
  try dsimp only
  repeat' first
    | (with_reducible first
      | assumption | apply Keep.ite | apply KeepO.next | apply KeepO.ite | apply keep_begin_ | apply keep_helloTaken)
    | exact mask_sub hm rfl | split

theorem keep_execReplayTimeout {door : Nat} {s : State} (hm : 806405632 &&& M = 806405632) (h_s : Keep M s0 s) :
    KeepO M s0 (execReplayTimeout door s) := by
  unfold execReplayTimeout
  try dsimp only
  repeat' first
    | (with_reducible first
      | assumption | apply Keep.ite | apply KeepO.next | apply KeepO.ite | apply keep_fresh | apply keep_replay)
    | exact mask_sub hm rfl | split

theorem keep_execLaneLockLoss {door : Nat} {lane : Nat} {s : State} (hm : 806405632 &&& M = 806405632) (h_s : Keep M s0 s) :
    KeepO M s0 (execLaneLockLoss door lane s) := by
  unfold execLaneLockLoss
  try dsimp only
  repeat' first
    | (with_reducible first
      | assumption | apply Keep.ite | apply KeepO.next | apply KeepO.ite | apply keep_fresh | apply keep_retrain)
    | exact mask_sub hm rfl | split

theorem keep_retireLane {e : Nat} {lane : Nat} {errors : Nat} {s : State} (hm : 806405120 &&& M = 806405120) (h_s : Keep M s0 s) :
    Keep M s0 (retireLane e lane errors s) := by
  unfold retireLane
  try dsimp only
  repeat' first
    | (with_reducible first
      | assumption | apply KeepO.next | apply KeepO.ite | apply keep_ownEntry | apply keep_raiseOwn | apply keep_setDoor | apply keep_cageCount
      | apply keep_doorLoss)
    | ((simp only [keep_mk]; apply Keep.upd) <;> try first | exact .inl (mask_bit hm rfl) | exact .inr rfl | exact fun h => h | exact rfl)
    | exact mask_sub hm rfl | exact rfl | intro _ _ _ | intro _ _

theorem keep_execLaneRetire {door : Nat} {lane : Nat} {errors : Nat} {s : State} (hm : 806405632 &&& M = 806405632) (h_s : Keep M s0 s) :
    KeepO M s0 (execLaneRetire door lane errors s) := by
  unfold execLaneRetire
  try dsimp only
  repeat' first
    | (with_reducible first
      | assumption | apply Keep.ite | apply KeepO.next | apply KeepO.ite | apply keep_fresh | apply keep_setDoor | apply keep_retrain
      | apply keep_retireLane)
    | ((simp only [keep_mk]; apply Keep.upd) <;> try first | exact .inl (mask_bit hm rfl) | exact .inr rfl | exact fun h => h | exact rfl)
    | exact mask_sub hm rfl | exact rfl | split | intro _ _ _ | intro _ _

theorem keep_execTrainingAttemptTimeout {door : Nat} {s : State} (hm : 536871936 &&& M = 536871936) (h_s : Keep M s0 s) :
    KeepO M s0 (execTrainingAttemptTimeout door s) := by
  unfold execTrainingAttemptTimeout
  try dsimp only
  repeat' first
    | (with_reducible first
      | assumption | apply Keep.ite | apply KeepO.next | apply KeepO.ite | apply keep_fresh | apply keep_setDoor | apply keep_sendHello
      | refine Keep.ofPair (by assumption) ?_ | refine Keep.ofTriple (by assumption) ?_)
    | ((simp only [keep_mk]; apply Keep.upd) <;> try first | exact .inl (mask_bit hm rfl) | exact .inr rfl | exact fun h => h | exact rfl)
    | exact mask_sub hm rfl | exact rfl | split | intro _ _ _ | intro _ _

theorem keep_execQuarantineEnd {door : Nat} {s : State} (hm : 537921044 &&& M = 537921044) (h_s : Keep M s0 s) :
    KeepO M s0 (execQuarantineEnd door s) := by
  unfold execQuarantineEnd
  try dsimp only
  repeat' first
    | (with_reducible first
      | assumption | apply Keep.ite | apply KeepO.next | apply KeepO.ite | apply keep_fresh | apply keep_advanceCycles | apply keep_setDoor
      | apply keep_trainIfFree)
    | ((simp only [keep_mk]; apply Keep.upd) <;> try first | exact .inl (mask_bit hm rfl) | exact .inr rfl | exact fun h => h | exact rfl)
    | exact mask_sub hm rfl | exact rfl | split | intro _ _ _ | intro _ _

theorem keep_doorReadout {code : Nat} {fixed : Nat → State → List Tlv} {rec_ : Nat → State → Bytes} {r : Request} {s : State} (hm : 0 &&& M = 0) (h_s : Keep M s0 s) :
    Keep M s0 (doorReadout code fixed rec_ r s).2 := by
  unfold doorReadout
  try dsimp only
  repeat' first
    | (with_reducible first
      | assumption | apply Keep.ite | apply keep_command | refine Keep.ofPair (by assumption) ?_ | refine Keep.ofTriple (by assumption) ?_)
    | ((simp only [keep_mk]; apply Keep.upd) <;> try first | exact .inl (mask_bit hm rfl) | exact .inr rfl | exact fun h => h | exact rfl)
    | exact mask_sub hm rfl | exact rfl | split | intro _ _ _ | intro _ _

theorem keep_doorGet {r : Request} {s : State} (hm : 0 &&& M = 0) (h_s : Keep M s0 s) : Keep M s0 (doorGet r s).2 := by
  unfold doorGet
  repeat' first | (with_reducible first | assumption | apply keep_doorReadout) | exact mask_sub hm rfl

theorem keep_execDoorGet {r : Request} {s : State} (hm : 613418004 &&& M = 613418004) (h_s : Keep M s0 s) : KeepO M s0 (execDoorGet r s) := by
  unfold execDoorGet
  repeat' first
    | (with_reducible first
      | assumption | apply KeepO.next | apply KeepO.ite | apply keep_begin_ | apply keep_finish | apply keep_doorGet)
    | exact mask_sub hm rfl

theorem keep_doorGetStats {r : Request} {s : State} (hm : 0 &&& M = 0) (h_s : Keep M s0 s) : Keep M s0 (doorGetStats r s).2 := by
  unfold doorGetStats
  repeat' first | (with_reducible first | assumption | apply keep_doorReadout) | exact mask_sub hm rfl | intro _ _ _ | intro _ _

theorem keep_execDoorGetStats {r : Request} {s : State} (hm : 613418004 &&& M = 613418004) (h_s : Keep M s0 s) :
    KeepO M s0 (execDoorGetStats r s) := by
  unfold execDoorGetStats
  repeat' first
    | (with_reducible first
      | assumption | apply KeepO.next | apply KeepO.ite | apply keep_begin_ | apply keep_finish | apply keep_doorGetStats)
    | exact mask_sub hm rfl

theorem keep_doorSet {r : Request} {s : State} (hm : 134217728 &&& M = 134217728) (h_s : Keep M s0 s) : Keep M s0 (doorSet r s).2 := by
  unfold doorSet
  try dsimp only
  repeat' first
    | (with_reducible first
      | assumption | apply Keep.ite | apply keep_command | apply keep_defer)
    | ((simp only [keep_mk]; apply Keep.upd) <;> try first | exact .inl (mask_bit hm rfl) | exact .inr rfl | exact fun h => h | exact rfl)
    | exact mask_sub hm rfl | exact rfl | split | intro _ _ _ | intro _ _

theorem keep_execDoorSet {r : Request} {s : State} (hm : 747635732 &&& M = 747635732) (h_s : Keep M s0 s) : KeepO M s0 (execDoorSet r s) := by
  unfold execDoorSet
  repeat' first
    | (with_reducible first
      | assumption | apply KeepO.next | apply KeepO.ite | apply keep_begin_ | apply keep_finish | apply keep_doorSet)
    | exact mask_sub hm rfl

theorem keep_applyDoorEnd {e : Nat} {en : Option Bool} {flap : Option Nat} {time : Option Nat} {s : State} (hm : 805307904 &&& M = 805307904) (h_s : Keep M s0 s) :
    Keep M s0 (applyDoorEnd e en flap time s) := by
  unfold applyDoorEnd
  try dsimp only
  repeat' first
    | (with_reducible first
      | assumption | apply Keep.ite | apply keep_setDoor | apply keep_doorLoss | apply keep_turnOff | apply keep_trainIfFree)
    | ((simp only [keep_mk]; apply Keep.upd) <;> try first | exact .inl (mask_bit hm rfl) | exact .inr rfl | exact fun h => h | exact rfl)
    | exact mask_sub hm rfl | exact rfl | split | intro _ _ _ | intro _ _

theorem keep_applyDoor {d : Nat} {en : Option Bool} {flap : Option Nat} {time : Option Nat} {s : State} (hm : 805307904 &&& M = 805307904) (h_s : Keep M s0 s) :
    Keep M s0 (applyDoor d en flap time s) := by
  unfold applyDoor
  repeat' first
    | (with_reducible first
      | assumption | apply keep_applyDoorEnd | apply Keep.foldl | apply Keep.foldlP)
    | exact mask_sub hm rfl | intro _ _ _ | intro _ _

theorem keep_retrainNow {e : Nat} {s : State} (hm : 806405632 &&& M = 806405632) (h_s : Keep M s0 s) : Keep M s0 (retrainNow e s) := by
  unfold retrainNow
  try dsimp only
  repeat' first | (with_reducible first | assumption | apply Keep.ite | apply keep_train | apply keep_retrain) | exact mask_sub hm rfl | split

theorem keep_doorRetrain {r : Request} {s : State} (hm : 806405632 &&& M = 806405632) (h_s : Keep M s0 s) : Keep M s0 (doorRetrain r s).2 := by
  unfold doorRetrain
  try dsimp only
  repeat' first
    | (with_reducible first
      | assumption | apply Keep.ite | apply keep_command | apply keep_retrainNow | apply Keep.foldl | apply Keep.foldlP)
    | ((simp only [keep_mk]; apply Keep.upd) <;> try first | exact .inl (mask_bit hm rfl) | exact .inr rfl | exact fun h => h | exact rfl)
    | exact mask_sub hm rfl | exact rfl | split | intro _ _ _ | intro _ _

theorem keep_execDoorRetrain {r : Request} {s : State} (hm : 881903124 &&& M = 881903124) (h_s : Keep M s0 s) :
    KeepO M s0 (execDoorRetrain r s) := by
  unfold execDoorRetrain
  repeat' first
    | (with_reducible first
      | assumption | apply KeepO.next | apply KeepO.ite | apply keep_begin_ | apply keep_finish | apply keep_doorRetrain)
    | exact mask_sub hm rfl

theorem keep_doorClearQuarantine {r : Request} {s : State} (hm : 536872448 &&& M = 536872448) (h_s : Keep M s0 s) :
    Keep M s0 (doorClearQuarantine r s).2 := by
  unfold doorClearQuarantine
  try dsimp only
  repeat' first
    | (with_reducible first
      | assumption | apply Keep.ite | apply keep_command | apply keep_setDoor | apply keep_trainIfFree | apply Keep.foldl | apply Keep.foldlP)
    | ((simp only [keep_mk]; apply Keep.upd) <;> try first | exact .inl (mask_bit hm rfl) | exact .inr rfl | exact fun h => h | exact rfl)
    | exact mask_sub hm rfl | exact rfl | split | intro _ _ _ | intro _ _

theorem keep_execDoorClearQuarantine {r : Request} {s : State} (hm : 613418516 &&& M = 613418516) (h_s : Keep M s0 s) :
    KeepO M s0 (execDoorClearQuarantine r s) := by
  unfold execDoorClearQuarantine
  repeat' first
    | (with_reducible first
      | assumption | apply KeepO.next | apply KeepO.ite | apply keep_begin_ | apply keep_finish | apply keep_doorClearQuarantine)
    | exact mask_sub hm rfl

end Sys2Proof.Machine
end

