-- ==== Sys2Proof/Laws/KeepPower.lean ====
section
/-! SUPPORT. What the operations of Machine/Power.lean keep (`Keep`, Laws/Keep.lean): one lemma per operation. -/
namespace Sys2Proof.Machine

set_option linter.unusedSimpArgs false
set_option linter.unusedVariables false

variable {M : Nat} {s0 : State}

theorem keep_blockReset {s : State} {cause : Nat} (hm : 2147483646 &&& M = 2147483646) (h : Keep M s0 s) : Keep M s0 (blockReset cause s) := by
  have g : Keep M s0 (recorderReset s) := keep_recorderReset (mask_sub hm rfl) h
  unfold blockReset
  refine keep_emits (mask_sub hm rfl) ?_
  exact ⟨g.build, g.pending, fun _ => rfl, fun x => ⟨Nat.zero_le _, (g.recorder x).2, (g.recorder x).3, (g.recorder x).4⟩, fun _ => List.nodup_nil,
    fun _ => Nat.zero_le _, fun _ => rfl, by constructor <;> exact .inl (mask_bit hm rfl)⟩

theorem keep_powerLost {s : State} (hm : 2147483646 &&& M = 2147483646) (h : Keep M s0 s) : Keep M s0 (powerLost s) :=
  ⟨h.build, h.pending, fun _ => rfl, fun _ => ⟨Nat.zero_le _, Nat.le_refl _, rfl, Nat.zero_le _⟩, fun _ => List.nodup_nil,
    fun _ => Nat.zero_le _, fun _ => rfl, by constructor <;> exact .inl (mask_bit hm rfl)⟩

theorem keep_execSupplyValid {pcycle : Nat} {hours : Nat} {s : State} (hm : 536870916 &&& M = 536870916) (h_s : Keep M s0 s) :
    KeepO M s0 (execSupplyValid pcycle hours s) := by
  unfold execSupplyValid
  try dsimp only
  repeat' first
    | (with_reducible first
      | assumption | apply Keep.ite | apply KeepO.next | apply KeepO.ite | apply keep_fresh)
    | ((simp only [keep_mk]; apply Keep.upd) <;> try first | exact .inl (mask_bit hm rfl) | exact .inr rfl | exact fun h => h | exact rfl)
    | exact mask_sub hm rfl | exact rfl | split

theorem keep_execSupplyLoss {s : State} (hm : 2147483646 &&& M = 2147483646) (h_s : Keep M s0 s) : KeepO M s0 (execSupplyLoss s) := by
  unfold execSupplyLoss
  try dsimp only
  repeat' first
    | (with_reducible first
      | assumption | apply Keep.ite | apply KeepO.next | apply KeepO.ite | apply keep_fresh | apply keep_powerLost)
    | exact mask_sub hm rfl | split

theorem keep_execExternalBlockReset {s : State} (hm : 2147483646 &&& M = 2147483646) (h_s : Keep M s0 s) :
    KeepO M s0 (execExternalBlockReset s) := by
  unfold execExternalBlockReset
  try dsimp only
  repeat' first
    | (with_reducible first
      | assumption | apply Keep.ite | apply KeepO.next | apply KeepO.ite | apply keep_fresh | apply keep_blockReset)
    | exact mask_sub hm rfl | split

theorem keep_execSramUncorrectableError {bank : Nat} {address : Nat} {s : State} (hm : 2147483646 &&& M = 2147483646) (h_s : Keep M s0 s) :
    KeepO M s0 (execSramUncorrectableError bank address s) := by
  unfold execSramUncorrectableError
  try dsimp only
  repeat' first
    | (with_reducible first
      | assumption | apply Keep.ite | apply KeepO.next | apply KeepO.ite | apply keep_fresh | apply keep_blockReset)
    | ((simp only [keep_mk]; apply Keep.upd) <;> try first | exact .inl (mask_bit hm rfl) | exact .inr rfl | exact fun h => h | exact rfl | exact fun h => ⟨h.1, h.2, h.3, h.4⟩)
    | exact mask_sub hm rfl | exact rfl | split

theorem keep_execWatchdogExpiry {s : State} (hm : 2147483646 &&& M = 2147483646) (h_s : Keep M s0 s) : KeepO M s0 (execWatchdogExpiry s) := by
  unfold execWatchdogExpiry
  try dsimp only
  repeat' first
    | (with_reducible first
      | assumption | apply Keep.ite | apply KeepO.next | apply KeepO.ite | apply keep_fresh | apply keep_blockReset)
    | ((simp only [keep_mk]; apply Keep.upd) <;> try first | exact .inl (mask_bit hm rfl) | exact .inr rfl | exact fun h => h | exact rfl)
    | exact mask_sub hm rfl | exact rfl | split

theorem keep_judgeReset {s : State} {env : StartEnv} (hm : 11550724 &&& M = 11550724) (h : Keep M s0 s) : Keep M s0 (judgeReset env s) := by
  unfold judgeReset
  dsimp only
  refine Keep.ite ?_ ?_
  · ((simp only [keep_mk]; apply Keep.upd) <;> try first | exact .inl (mask_bit hm rfl) | (with_reducible exact .inr rfl) | exact fun h => h | (with_reducible exact rfl) | exact fun h => PendDistinct.filter h _ | exact fun h => ⟨h.1, h.2, h.3, h.4⟩) <;> assumption
  · simp only [keep_mk]; apply Keep.upd h <;> first | exact .inl (mask_bit hm rfl) | (with_reducible exact .inr rfl) | exact fun h => h | exact rfl | skip
    exact fun _ => ⟨Nat.zero_le _, Nat.le_refl _, by simp, by simp⟩

theorem keep_assignDoors {env : StartEnv} {s : State} (hm : 1024 &&& M = 1024) (h_s : Keep M s0 s) : Keep M s0 (assignDoors env s) := by
  unfold assignDoors
  try dsimp only
  repeat' first
    | (with_reducible first
      | assumption | apply keep_fresh | refine Keep.ofPair (by assumption) ?_ | refine Keep.ofTriple (by assumption) ?_)
    | ((simp only [keep_mk]; apply Keep.upd) <;> try first | exact .inl (mask_bit hm rfl) | exact .inr rfl | exact fun h => h | exact rfl)
    | exact mask_sub hm rfl | exact rfl | split

theorem keep_tileRegions {ports : List Nat} {s : State} (hm : 65536 &&& M = 65536) (h_s : Keep M s0 s) : Keep M s0 (tileRegions ports s) := by
  unfold tileRegions
  try dsimp only
  repeat' first
    | (with_reducible first
      | assumption | apply Keep.ite | apply keep_setSrc | apply Keep.foldl | apply Keep.foldlP | refine Keep.ofPair (by assumption) ?_
      | refine Keep.ofTriple (by assumption) ?_)
    | ((simp only [keep_mk]; apply Keep.upd) <;> try first | exact .inl (mask_bit hm rfl) | exact .inr rfl | exact fun h => h | exact rfl)
    | exact mask_sub hm rfl | exact rfl | split | intro _ _ _ | intro _ _

theorem keep_readPorts {env : StartEnv} {s : State} (hm : 537388064 &&& M = 537388064) (h_s : Keep M s0 s) : Keep M s0 (readPorts env s) := by
  unfold readPorts
  dsimp only
  refine keep_tileRegions (mask_sub hm rfl) (keep_readDecls (mask_sub hm rfl) ?_)
  refine Keep.ite ?_ (keep_setSht (mask_sub hm rfl) ?_) <;>
  · simp only [keep_mk]; apply Keep.upd h_s <;> first | exact .inl (mask_bit hm rfl) | (with_reducible exact .inr rfl) | exact fun h => h | exact rfl | skip

theorem keep_resetEntries {oldHead : Nat} {s : State} (hm : 537969668 &&& M = 537969668) (h_s : Keep M s0 s) :
    Keep M s0 (resetEntries oldHead s) := by
  unfold resetEntries
  try dsimp only
  repeat' first
    | (with_reducible first
      | assumption | apply Keep.ite | apply keep_ownEntry | apply keep_raiseOwn | apply keep_recoverTorn | refine Keep.ofPair (by assumption) ?_
      | refine Keep.ofTriple (by assumption) ?_)
    | ((simp only [keep_mk]; apply Keep.upd) <;> try first | exact .inl (mask_bit hm rfl) | exact .inr rfl | exact fun h => h | exact rfl)
    | exact mask_sub hm rfl | exact rfl | split

theorem keep_leaveReset {env : StartEnv} {s : State} (hm : 548922422 &&& M = 548922422) (h_s : Keep M s0 s) :
    Keep M s0 (leaveReset env s) := by
  unfold leaveReset
  try dsimp only
  repeat' first
    | (with_reducible first
      | assumption | apply Keep.ite | apply keep_judgeReset | apply keep_assignDoors | apply keep_readPorts | apply keep_resetEntries)
    | ((simp only [keep_mk]; apply Keep.upd) <;> try first | exact .inl (mask_bit hm rfl) | exact .inr rfl | exact fun h => h | exact rfl | exact fun h => ⟨h.1, h.2, h.3, h.4⟩)
    | exact mask_sub hm rfl | exact rfl | split

theorem keep_execLeaveReset {env : StartEnv} {s : State} (hm : 548922422 &&& M = 548922422) (h_s : Keep M s0 s) :
    KeepO M s0 (execLeaveReset env s) := by
  unfold execLeaveReset
  try dsimp only
  repeat' first
    | (with_reducible first
      | assumption | apply Keep.ite | apply KeepO.next | apply KeepO.ite | apply keep_fresh | apply keep_leaveReset)
    | exact mask_sub hm rfl | split

theorem keep_execReady {s : State} (hm : 536872452 &&& M = 536872452) (h_s : Keep M s0 s) : KeepO M s0 (execReady s) := by
  unfold execReady
  try dsimp only
  repeat' first
    | (with_reducible first
      | assumption | apply Keep.ite | apply KeepO.next | apply KeepO.ite | apply keep_fresh | apply keep_trainIfFree | apply Keep.foldl
      | apply Keep.foldlP)
    | ((simp only [keep_mk]; apply Keep.upd) <;> try first | exact .inl (mask_bit hm rfl) | exact .inr rfl | exact fun h => h | exact rfl)
    | exact mask_sub hm rfl | exact rfl | split | intro _ _ _ | intro _ _

theorem keep_pwrGet {r : Request} {s : State} (hm : 0 &&& M = 0) (h_s : Keep M s0 s) : Keep M s0 (pwrGet r s).2 := by
  unfold pwrGet
  try dsimp only
  repeat' first
    | (with_reducible first
      | assumption | apply Keep.ite | apply keep_command)
    | ((simp only [keep_mk]; apply Keep.upd) <;> try first | exact .inl (mask_bit hm rfl) | exact .inr rfl | exact fun h => h | exact rfl | exact fun h => ⟨h.1, h.2, h.3, h.4⟩)
    | exact mask_sub hm rfl | exact rfl | split | intro _ _ _ | intro _ _

theorem keep_execPwrGet {r : Request} {s : State} (hm : 613418004 &&& M = 613418004) (h_s : Keep M s0 s) : KeepO M s0 (execPwrGet r s) := by
  unfold execPwrGet
  repeat' first
    | (with_reducible first
      | assumption | apply KeepO.next | apply KeepO.ite | apply keep_begin_ | apply keep_finish | apply keep_pwrGet)
    | exact mask_sub hm rfl

theorem keep_pwrSet {r : Request} {s : State} (hm : 134217728 &&& M = 134217728) (h_s : Keep M s0 s) : Keep M s0 (pwrSet r s).2 := by
  unfold pwrSet
  try dsimp only
  repeat' first
    | (with_reducible first
      | assumption | apply Keep.ite | apply keep_command | apply keep_defer | refine Keep.ofPair (by assumption) ?_
      | refine Keep.ofTriple (by assumption) ?_)
    | ((simp only [keep_mk]; apply Keep.upd) <;> try first | exact .inl (mask_bit hm rfl) | exact .inr rfl | exact fun h => h | exact rfl)
    | exact mask_sub hm rfl | exact rfl | split | intro _ _ _ | intro _ _

theorem keep_execPwrSet {r : Request} {s : State} (hm : 747635732 &&& M = 747635732) (h_s : Keep M s0 s) : KeepO M s0 (execPwrSet r s) := by
  unfold execPwrSet
  repeat' first
    | (with_reducible first
      | assumption | apply KeepO.next | apply KeepO.ite | apply keep_begin_ | apply keep_finish | apply keep_pwrSet)
    | exact mask_sub hm rfl

theorem keep_applyPwr {gating : Bool} {park : Bool} {s : State} (hm : 536870916 &&& M = 536870916) (h_s : Keep M s0 s) :
    Keep M s0 (applyPwr gating park s) := by
  unfold applyPwr
  try dsimp only
  repeat' first
    | (with_reducible first
      | assumption | apply keep_emits)
    | ((simp only [keep_mk]; apply Keep.upd) <;> try first | exact .inl (mask_bit hm rfl) | exact .inr rfl | exact fun h => h | exact rfl)
    | exact mask_sub hm rfl | exact rfl | intro _ _ _ | intro _ _

end Sys2Proof.Machine
end

