-- ==== Sys2Proof/Laws/KeepPanel.lean ====
section
/-! SUPPORT. What the operations of Machine/Panel.lean keep (`Keep`, Laws/Keep.lean): one lemma per operation. -/
namespace Sys2Proof.Machine

set_option linter.unusedSimpArgs false
set_option linter.unusedVariables false

variable {M : Nat} {s0 : State}

theorem keep_openWindow {c : Nat} {stamp : Nat} {s : State} (hm : 268435456 &&& M = 268435456) (h_s : Keep M s0 s) :
    Keep M s0 (openWindow c stamp s) := by
  unfold openWindow
  try dsimp only
  repeat' first
    | (with_reducible first
      | assumption | apply Keep.ite | apply keep_setCage | apply keep_panelEntry | apply Keep.foldl | apply Keep.foldlP)
    | ((simp only [keep_mk]; apply Keep.upd) <;> try first | exact .inl (mask_bit hm rfl) | exact .inr rfl | exact fun h => h | exact rfl)
    | exact mask_sub hm rfl | exact rfl | split | intro _ _ _ | intro _ _

theorem keep_settleWindow {c : Nat} {s : State} (hm : 268435456 &&& M = 268435456) (h_s : Keep M s0 s) : Keep M s0 (settleWindow c s) := by
  unfold settleWindow
  repeat' first
    | (with_reducible first
      | assumption | apply Keep.ite | apply keep_setCage)
    | ((simp only [keep_mk]; apply Keep.upd) <;> try first | exact .inl (mask_bit hm rfl) | exact .inr rfl | exact fun h => h | exact rfl)
    | exact mask_sub hm rfl | exact rfl | split | intro _ _ _ | intro _ _

theorem keep_presenceChange {c : Nat} {level : Bool} {stamp : Nat} {s : State} (hm : 268435456 &&& M = 268435456) (h_s : Keep M s0 s) :
    Keep M s0 (presenceChange c level stamp s) := by
  unfold presenceChange
  try dsimp only
  repeat' first
    | (with_reducible first
      | assumption | apply Keep.ite | apply keep_setCage | apply keep_panelEntry | apply keep_openWindow | apply keep_settleWindow)
    | ((simp only [keep_mk]; apply Keep.upd) <;> try first | exact .inl (mask_bit hm rfl) | exact .inr rfl | exact fun h => h | exact rfl)
    | exact mask_sub hm rfl | exact rfl | split | intro _ _ _ | intro _ _

theorem keep_touchChange {c : Nat} {level : Bool} {stamp : Nat} {s : State} (hm : 268435456 &&& M = 268435456) (h_s : Keep M s0 s) :
    Keep M s0 (touchChange c level stamp s) := by
  unfold touchChange
  try dsimp only
  repeat' first
    | (with_reducible first
      | assumption | apply Keep.ite | apply keep_setCage | apply keep_panelEntry | apply keep_openWindow | apply keep_settleWindow)
    | ((simp only [keep_mk]; apply Keep.upd) <;> try first | exact .inl (mask_bit hm rfl) | exact .inr rfl | exact fun h => h | exact rfl)
    | exact mask_sub hm rfl | exact rfl | split | intro _ _ _ | intro _ _

theorem keep_glitch {i : PanelInput} {s : State} (hm : 268435456 &&& M = 268435456) (h_s : Keep M s0 s) : Keep M s0 (glitch i s) := by
  unfold glitch
  repeat' first
    | (with_reducible first
      | assumption | apply keep_setCage | refine Keep.ofPair (by assumption) ?_ | refine Keep.ofTriple (by assumption) ?_)
    | ((simp only [keep_mk]; apply Keep.upd) <;> try first | exact .inl (mask_bit hm rfl) | exact .inr rfl | exact fun h => h | exact rfl)
    | exact mask_sub hm rfl | exact rfl | split | intro _ _ _ | intro _ _

theorem keep_execPanelInputAccepted {input : PanelInput} {level : Bool} {debounce : Nat} {s : State} (hm : 805306368 &&& M = 805306368) (h_s : Keep M s0 s) :
    KeepO M s0 (execPanelInputAccepted input level debounce s) := by
  unfold execPanelInputAccepted
  try dsimp only
  repeat' first
    | (with_reducible first
      | assumption | apply Keep.ite | apply KeepO.next | apply KeepO.ite | apply keep_fresh | apply keep_panelEntry | apply keep_presenceChange
      | apply keep_touchChange | apply keep_glitch | refine Keep.ofPair (by assumption) ?_ | refine Keep.ofTriple (by assumption) ?_)
    | ((simp only [keep_mk]; apply Keep.upd) <;> try first | exact .inl (mask_bit hm rfl) | exact .inr rfl | exact fun h => h | exact rfl)
    | exact mask_sub hm rfl | exact rfl | split

theorem keep_execServiceWindowClose {cage : Nat} {s : State} (hm : 806354964 &&& M = 806354964) (h_s : Keep M s0 s) :
    KeepO M s0 (execServiceWindowClose cage s) := by
  unfold execServiceWindowClose
  try dsimp only
  repeat' first
    | (with_reducible first
      | assumption | apply Keep.ite | apply KeepO.next | apply KeepO.ite | apply keep_fresh | apply keep_advanceTo | apply keep_setCage
      | refine Keep.ofPair (by assumption) ?_ | refine Keep.ofTriple (by assumption) ?_)
    | ((simp only [keep_mk]; apply Keep.upd) <;> try first | exact .inl (mask_bit hm rfl) | exact .inr rfl | exact fun h => h | exact rfl)
    | exact mask_sub hm rfl | exact rfl | split | intro _ _ _ | intro _ _

theorem keep_execHoldPress {s : State} (hm : 806420500 &&& M = 806420500) (h_s : Keep M s0 s) : KeepO M s0 (execHoldPress s) := by
  unfold execHoldPress
  try dsimp only
  repeat' first
    | (with_reducible first
      | assumption | apply Keep.ite | apply KeepO.next | apply KeepO.ite | apply keep_fresh | apply keep_advanceTo | apply keep_panelEntry
      | apply keep_trayTrigger | refine Keep.ofPair (by assumption) ?_ | refine Keep.ofTriple (by assumption) ?_)
    | ((simp only [keep_mk]; apply Keep.upd) <;> try first | exact .inl (mask_bit hm rfl) | exact .inr rfl | exact fun h => h | exact rfl)
    | exact mask_sub hm rfl | exact rfl | split

theorem keep_pnlGet {r : Request} {s : State} (hm : 0 &&& M = 0) (h_s : Keep M s0 s) : Keep M s0 (pnlGet r s).2 := by
  unfold pnlGet
  try dsimp only
  repeat' first
    | (with_reducible first
      | assumption | apply keep_command)
    | ((simp only [keep_mk]; apply Keep.upd) <;> try first | exact .inl (mask_bit hm rfl) | exact .inr rfl | exact fun h => h | exact rfl)
    | exact mask_sub hm rfl | exact rfl | intro _ _ _ | intro _ _

theorem keep_execPnlGet {r : Request} {s : State} (hm : 613418004 &&& M = 613418004) (h_s : Keep M s0 s) : KeepO M s0 (execPnlGet r s) := by
  unfold execPnlGet
  repeat' first
    | (with_reducible first
      | assumption | apply KeepO.next | apply KeepO.ite | apply keep_begin_ | apply keep_finish | apply keep_pnlGet)
    | exact mask_sub hm rfl

theorem keep_pnlSetLed {r : Request} {s : State} (hm : 268435456 &&& M = 268435456) (h_s : Keep M s0 s) : Keep M s0 (pnlSetLed r s).2 := by
  unfold pnlSetLed
  try dsimp only
  repeat' first
    | (with_reducible first
      | assumption | apply Keep.ite | apply keep_command | apply keep_setCage | apply Keep.foldl | apply Keep.foldlP
      | refine Keep.ofPair (by assumption) ?_ | refine Keep.ofTriple (by assumption) ?_)
    | ((simp only [keep_mk]; apply Keep.upd) <;> try first | exact .inl (mask_bit hm rfl) | exact .inr rfl | exact fun h => h | exact rfl)
    | exact mask_sub hm rfl | exact rfl | split | intro _ _ _ | intro _ _

theorem keep_execPnlSetLed {r : Request} {s : State} (hm : 881853460 &&& M = 881853460) (h_s : Keep M s0 s) :
    KeepO M s0 (execPnlSetLed r s) := by
  unfold execPnlSetLed
  repeat' first
    | (with_reducible first
      | assumption | apply KeepO.next | apply KeepO.ite | apply keep_begin_ | apply keep_finish | apply keep_pnlSetLed)
    | exact mask_sub hm rfl

theorem keep_pnlGetLog {r : Request} {s : State} (hm : 0 &&& M = 0) (h_s : Keep M s0 s) : Keep M s0 (pnlGetLog r s).2 := by
  unfold pnlGetLog
  try dsimp only
  repeat' first
    | (with_reducible first
      | assumption | apply Keep.ite | apply keep_command)
    | ((simp only [keep_mk]; apply Keep.upd) <;> try first | exact .inl (mask_bit hm rfl) | exact .inr rfl | exact fun h => h | exact rfl)
    | exact mask_sub hm rfl | exact rfl | split | intro _ _ _ | intro _ _

theorem keep_execPnlGetLog {r : Request} {s : State} (hm : 613418004 &&& M = 613418004) (h_s : Keep M s0 s) :
    KeepO M s0 (execPnlGetLog r s) := by
  unfold execPnlGetLog
  repeat' first
    | (with_reducible first
      | assumption | apply KeepO.next | apply KeepO.ite | apply keep_begin_ | apply keep_finish | apply keep_pnlGetLog)
    | exact mask_sub hm rfl

end Sys2Proof.Machine
end

