-- ==== Sys2Proof/Laws/KeepWatch.lean ====
section
/-! SUPPORT. What the operations of Machine/Watch.lean keep (`Keep`, Laws/Keep.lean): one lemma per operation. -/
namespace Sys2Proof.Machine

set_option linter.unusedSimpArgs false
set_option linter.unusedVariables false

variable {M : Nat} {s0 : State}

theorem keep_setWpt {w : Nat} {f : WatchPoint → WatchPoint} {s : State} (hm : 131072 &&& M = 131072) (h_s : Keep M s0 s) :
    Keep M s0 (setWpt w f s) := by
  unfold setWpt
  repeat' first
    | (with_reducible first
      | assumption)
    | ((simp only [keep_mk]; apply Keep.upd) <;> try first | exact .inl (mask_bit hm rfl) | exact .inr rfl | exact fun h => h | exact rfl) | exact rfl

theorem keep_watchEvent {w : Nat} {a : Access} {s : State} (hm : 1048576 &&& M = 1048576) (h_s : Keep M s0 s) :
    Keep M s0 (watchEvent w a s) := by
  unfold watchEvent
  try dsimp only
  repeat' first | (with_reducible first | assumption | apply keep_ownEntry) | exact mask_sub hm rfl

theorem keep_writeCapture {head : Bytes} {first : Bool} {data : Bytes} {s : State} (hm : 1073872896 &&& M = 1073872896) (h_s : Keep M s0 s) :
    Keep M s0 (writeCapture head first data s) := by
  unfold writeCapture
  try dsimp only
  repeat' first
    | (with_reducible first
      | assumption | apply Keep.ite | apply keep_drawBytes | refine Keep.ofPair (by assumption) ?_ | refine Keep.ofTriple (by assumption) ?_)
    | ((simp only [keep_mk]; apply Keep.upd) <;> try first | exact .inl (mask_bit hm rfl) | exact .inr rfl | exact fun h => h | exact rfl)
    | exact mask_sub hm rfl | exact rfl | split

theorem keep_watchData {held : Nat} {w : Nat} {a : Access} {s : State} (hm : 1073872896 &&& M = 1073872896) (h_s : Keep M s0 s) :
    Keep M s0 (watchData held w a s).2 := by
  unfold watchData
  try dsimp only
  repeat' first
    | (with_reducible first
      | assumption | apply Keep.ite | apply keep_writeCapture | refine Keep.ofPair (by assumption) ?_ | refine Keep.ofTriple (by assumption) ?_)
    | ((simp only [keep_mk]; apply Keep.upd) <;> try first | exact .inl (mask_bit hm rfl) | exact .inr rfl | exact fun h => h | exact rfl)
    | exact mask_sub hm rfl | exact rfl | split

theorem keep_watchHit (hm : 1074921504 &&& M = 1074921504) {a : Access} {acc : List (Bytes × Bool) × State} {w : Nat} (h_s : Keep M s0 acc.2) :
    Keep M s0 (watchHit a acc w).2 := by
  unfold watchHit
  dsimp only
  repeat' first
    | with_reducible assumption
    | exact mask_sub hm rfl
    | with_reducible apply Keep.ite
    | with_reducible apply keep_watchData
    | with_reducible apply keep_setWpt
    | with_reducible apply keep_watchEvent
    | with_reducible apply keep_addCtr
    | split

theorem keep_watchTrigger {ws : List Nat} {s : State} (hm : 1073938944 &&& M = 1073938944) (h_s : Keep M s0 s) :
    Keep M s0 (watchTrigger ws s) := by
  unfold watchTrigger
  repeat' first
    | (with_reducible first
      | assumption | apply keep_takeTrigger | apply keep_setWpt | apply Keep.foldl | apply Keep.foldlP | refine Keep.ofPair (by assumption) ?_
      | refine Keep.ofTriple (by assumption) ?_)
    | ((simp only [keep_mk]; apply Keep.upd) <;> try first | exact .inl (mask_bit hm rfl) | exact .inr rfl | exact fun h => h | exact rfl)
    | exact mask_sub hm rfl | exact rfl | split | intro _ _ _ | intro _ _

theorem keep_watchShutter {ws : List Nat} {s : State} (hm : 1611085312 &&& M = 1611085312) (h_s : Keep M s0 s) :
    Keep M s0 (watchShutter ws s) := by
  unfold watchShutter
  try dsimp only
  repeat' first
    | (with_reducible first
      | assumption | apply keep_immediateStop | apply keep_setWpt | apply Keep.foldl | apply Keep.foldlP | refine Keep.ofPair (by assumption) ?_
      | refine Keep.ofTriple (by assumption) ?_)
    | ((simp only [keep_mk]; apply Keep.upd) <;> try first | exact .inl (mask_bit hm rfl) | exact .inr rfl | exact fun h => h | exact rfl)
    | exact mask_sub hm rfl | exact rfl | split | intro _ _ _ | intro _ _

theorem keep_execWatchpointAccess {after : Nat} {acc : Access} {s : State} (hm : 1612133940 &&& M = 1612133940) (h_s : Keep M s0 s) :
    KeepO M s0 (execWatchpointAccess after acc s) := by
  unfold execWatchpointAccess
  try dsimp only
  repeat' first
    | (with_reducible first
      | assumption | apply Keep.ite | apply KeepO.next | apply KeepO.ite | apply keep_begin_ | apply keep_watchHit | apply keep_watchTrigger
      | apply keep_watchShutter | apply Keep.foldl | apply Keep.foldlP | refine Keep.ofPair (by assumption) ?_
      | refine Keep.ofTriple (by assumption) ?_)
    | ((simp only [keep_mk]; apply Keep.upd) <;> try first | exact .inl (mask_bit hm rfl) | exact .inr rfl | exact fun h => h | exact rfl)
    | exact mask_sub hm rfl | exact rfl | split | intro _ _ _ | intro _ _

theorem keep_execWatchedReadData {bus : Nat} {data : Bytes} {s : State} (hm : 1610743808 &&& M = 1610743808) (h_s : Keep M s0 s) :
    KeepO M s0 (execWatchedReadData bus data s) := by
  unfold execWatchedReadData
  try dsimp only
  repeat' first
    | (with_reducible first
      | assumption | apply Keep.ite | apply KeepO.next | apply KeepO.ite | apply keep_fresh | apply keep_writeCapture | apply Keep.foldl
      | apply Keep.foldlP | refine Keep.ofPair (by assumption) ?_ | refine Keep.ofTriple (by assumption) ?_)
    | ((simp only [keep_mk]; apply Keep.upd) <;> try first | exact .inl (mask_bit hm rfl) | exact .inr rfl | exact fun h => h | exact rfl)
    | exact mask_sub hm rfl | exact rfl | split | intro _ _ _ | intro _ _

theorem keep_endCapture {s : State} (hm : 131072 &&& M = 131072) (h_s : Keep M s0 s) : Keep M s0 (endCapture s) := by
  unfold endCapture
  try dsimp only
  repeat' first
    | (with_reducible first
      | assumption)
    | ((simp only [keep_mk]; apply Keep.upd) <;> try first | exact .inl (mask_bit hm rfl) | exact .inr rfl | exact fun h => h | exact rfl) | exact rfl
    | intro _ _ _ | intro _ _

theorem keep_execCaptureExpiry {s : State} (hm : 537001984 &&& M = 537001984) (h_s : Keep M s0 s) : KeepO M s0 (execCaptureExpiry s) := by
  unfold execCaptureExpiry
  try dsimp only
  repeat' first
    | (with_reducible first
      | assumption | apply Keep.ite | apply KeepO.next | apply KeepO.ite | apply keep_fresh | apply keep_endCapture
      | refine Keep.ofPair (by assumption) ?_ | refine Keep.ofTriple (by assumption) ?_)
    | ((simp only [keep_mk]; apply Keep.upd) <;> try first | exact .inl (mask_bit hm rfl) | exact .inr rfl | exact fun h => h | exact rfl)
    | exact mask_sub hm rfl | split

theorem keep_wptSet {r : Request} {s : State} (hm : 134217728 &&& M = 134217728) (h_s : Keep M s0 s) : Keep M s0 (wptSet r s).2 := by
  unfold wptSet
  try dsimp only
  repeat' first
    | (with_reducible first
      | assumption | apply Keep.ite | apply keep_command | apply keep_defer | refine Keep.ofPair (by assumption) ?_
      | refine Keep.ofTriple (by assumption) ?_)
    | ((simp only [keep_mk]; apply Keep.upd) <;> try first | exact .inl (mask_bit hm rfl) | exact .inr rfl | exact fun h => h | exact rfl)
    | exact mask_sub hm rfl | exact rfl | split | intro _ _ _ | intro _ _

theorem keep_execWptSet {r : Request} {s : State} (hm : 747635732 &&& M = 747635732) (h_s : Keep M s0 s) : KeepO M s0 (execWptSet r s) := by
  unfold execWptSet
  repeat' first
    | (with_reducible first
      | assumption | apply KeepO.next | apply KeepO.ite | apply keep_begin_ | apply keep_finish | apply keep_wptSet)
    | exact mask_sub hm rfl

theorem keep_applyWatch {ps : List (Nat × WatchPoint)} {s : State} (hm : 131072 &&& M = 131072) (h_s : Keep M s0 s) :
    Keep M s0 (applyWatch ps s) := by
  unfold applyWatch
  try dsimp only
  repeat' first
    | (with_reducible first
      | assumption | apply Keep.ite | apply keep_setWpt | apply Keep.foldl | apply Keep.foldlP)
    | ((simp only [keep_mk]; apply Keep.upd) <;> try first | exact .inl (mask_bit hm rfl) | exact .inr rfl | exact fun h => h | exact rfl)
    | exact mask_sub hm rfl | exact rfl | split | intro _ _ _ | intro _ _

theorem keep_wptGet {r : Request} {s : State} (hm : 0 &&& M = 0) (h_s : Keep M s0 s) : Keep M s0 (wptGet r s).2 := by
  unfold wptGet
  try dsimp only
  repeat' first
    | (with_reducible first
      | assumption | apply keep_command | apply keep_wptSet | refine Keep.ofPair (by assumption) ?_ | refine Keep.ofTriple (by assumption) ?_)
    | ((simp only [keep_mk]; apply Keep.upd) <;> try first | exact .inl (mask_bit hm rfl) | exact .inr rfl | exact fun h => h | exact rfl | exact fun h => PendDistinct.filter h _)
    | exact mask_sub hm rfl | exact rfl | split | intro _ _ _ | intro _ _

theorem keep_execWptGet {r : Request} {s : State} (hm : 613418004 &&& M = 613418004) (h_s : Keep M s0 s) : KeepO M s0 (execWptGet r s) := by
  unfold execWptGet
  repeat' first
    | (with_reducible first
      | assumption | apply KeepO.next | apply KeepO.ite | apply keep_begin_ | apply keep_finish | apply keep_wptGet)
    | exact mask_sub hm rfl

theorem keep_wptEnableData {r : Request} {s : State} (hm : 131072 &&& M = 131072) (h_s : Keep M s0 s) : Keep M s0 (wptEnableData r s).2 := by
  unfold wptEnableData
  try dsimp only
  repeat' first
    | (with_reducible first
      | assumption | apply Keep.ite | apply keep_command | apply keep_endCapture | refine Keep.ofPair (by assumption) ?_
      | refine Keep.ofTriple (by assumption) ?_)
    | ((simp only [keep_mk]; apply Keep.upd) <;> try first | exact .inl (mask_bit hm rfl) | exact .inr rfl | exact fun h => h | exact rfl)
    | exact mask_sub hm rfl | exact rfl | split | intro _ _ _ | intro _ _

theorem keep_execWptEnableData {r : Request} {s : State} (hm : 613549076 &&& M = 613549076) (h_s : Keep M s0 s) :
    KeepO M s0 (execWptEnableData r s) := by
  unfold execWptEnableData
  repeat' first
    | (with_reducible first
      | assumption | apply KeepO.next | apply KeepO.ite | apply keep_begin_ | apply keep_finish | apply keep_wptEnableData)
    | exact mask_sub hm rfl

theorem keep_wptDisableData {r : Request} {s : State} (hm : 131072 &&& M = 131072) (h_s : Keep M s0 s) : Keep M s0 (wptDisableData r s).2 := by
  unfold wptDisableData
  repeat' first
    | (with_reducible first
      | assumption | apply Keep.ite | apply keep_command | apply keep_endCapture)
    | ((simp only [keep_mk]; apply Keep.upd) <;> try first | exact .inl (mask_bit hm rfl) | exact .inr rfl | exact fun h => h | exact rfl)
    | exact mask_sub hm rfl | exact rfl | split | intro _ _ _ | intro _ _

theorem keep_execWptDisableData {r : Request} {s : State} (hm : 613549076 &&& M = 613549076) (h_s : Keep M s0 s) :
    KeepO M s0 (execWptDisableData r s) := by
  unfold execWptDisableData
  repeat' first
    | (with_reducible first
      | assumption | apply KeepO.next | apply KeepO.ite | apply keep_begin_ | apply keep_finish | apply keep_wptDisableData)
    | exact mask_sub hm rfl

theorem keep_wptReadCapture {r : Request} {s : State} (hm : 131072 &&& M = 131072) (h_s : Keep M s0 s) : Keep M s0 (wptReadCapture r s).2 := by
  unfold wptReadCapture
  try dsimp only
  repeat' first
    | (with_reducible first
      | assumption | apply Keep.ite | apply keep_command)
    | ((simp only [keep_mk]; apply Keep.upd) <;> try first | exact .inl (mask_bit hm rfl) | exact .inr rfl | exact fun h => h | exact rfl)
    | exact mask_sub hm rfl | exact rfl | split | intro _ _ _ | intro _ _

theorem keep_execWptReadCapture {r : Request} {s : State} (hm : 613549076 &&& M = 613549076) (h_s : Keep M s0 s) :
    KeepO M s0 (execWptReadCapture r s) := by
  unfold execWptReadCapture
  repeat' first
    | (with_reducible first
      | assumption | apply KeepO.next | apply KeepO.ite | apply keep_begin_ | apply keep_finish | apply keep_wptReadCapture)
    | exact mask_sub hm rfl

end Sys2Proof.Machine
end

