-- ==== Sys2Proof/Laws/KeepPackets.lean ====
section
/-! SUPPORT. What the operations of Machine/Packets.lean keep (`Keep`, Laws/Keep.lean): one lemma per operation. -/
namespace Sys2Proof.Machine

set_option linter.unusedSimpArgs false
set_option linter.unusedVariables false

variable {M : Nat} {s0 : State}

theorem keep_cmdGet {r : Request} {s : State} (hm : 0 &&& M = 0) (h_s : Keep M s0 s) : Keep M s0 (cmdGet r s).2 := by
  unfold cmdGet
  try dsimp only
  repeat' first
    | (with_reducible first
      | assumption | apply Keep.ite | apply keep_command)
    | ((simp only [keep_mk]; apply Keep.upd) <;> try first | exact .inl (mask_bit hm rfl) | exact .inr rfl | exact fun h => h | exact rfl)
    | exact mask_sub hm rfl | exact rfl | split | intro _ _ _ | intro _ _

theorem keep_execCmdGet {r : Request} {s : State} (hm : 613418004 &&& M = 613418004) (h_s : Keep M s0 s) : KeepO M s0 (execCmdGet r s) := by
  unfold execCmdGet
  repeat' first
    | (with_reducible first
      | assumption | apply KeepO.next | apply KeepO.ite | apply keep_begin_ | apply keep_finish | apply keep_cmdGet)
    | exact mask_sub hm rfl

theorem keep_cmdEcho {r : Request} {s : State} (hm : 0 &&& M = 0) (h_s : Keep M s0 s) : Keep M s0 (cmdEcho r s).2 := by
  unfold cmdEcho
  try dsimp only
  repeat' first
    | (with_reducible first
      | assumption | apply Keep.ite | apply keep_command)
    | ((simp only [keep_mk]; apply Keep.upd) <;> try first | exact .inl (mask_bit hm rfl) | exact .inr rfl | exact fun h => h | exact rfl)
    | exact mask_sub hm rfl | exact rfl | split | intro _ _ _ | intro _ _

theorem keep_execCmdEcho {r : Request} {s : State} (hm : 613418004 &&& M = 613418004) (h_s : Keep M s0 s) : KeepO M s0 (execCmdEcho r s) := by
  unfold execCmdEcho
  repeat' first
    | (with_reducible first
      | assumption | apply KeepO.next | apply KeepO.ite | apply keep_begin_ | apply keep_finish | apply keep_cmdEcho)
    | exact mask_sub hm rfl

theorem keep_runFrame {o : Host.Outcome State Fault Refusal} {lo : Nat} {r : Request} {s : State} (e : runFrame lo r s = some o) (hm : 747635740 &&& M = 747635740) (h_s : Keep M s0 s) : KeepO M s0 o := by
  unfold runFrame at e
  split at e <;> cases e
  all_goals first
    | (with_reducible refine keep_execFrameSet ?_ h_s) <;> exact mask_sub hm rfl
    | (with_reducible refine keep_execFrameGet ?_ h_s) <;> exact mask_sub hm rfl
    | (with_reducible refine keep_execFrameSetGroup ?_ h_s) <;> exact mask_sub hm rfl
    | (with_reducible refine keep_execFrameGetStats ?_ h_s) <;> exact mask_sub hm rfl
    | (with_reducible refine keep_execFrameGetPresence ?_ h_s) <;> exact mask_sub hm rfl
    | (with_reducible refine keep_execFrameGetContribution ?_ h_s) <;> exact mask_sub hm rfl

theorem keep_runTime {o : Host.Outcome State Fault Refusal} {lo : Nat} {r : Request} {s : State} (e : runTime lo r s = some o) (hm : 1821718036 &&& M = 1821718036) (h_s : Keep M s0 s) : KeepO M s0 o := by
  unfold runTime at e
  split at e <;> cases e
  all_goals first
    | (with_reducible refine keep_execTimeGet ?_ h_s) <;> exact mask_sub hm rfl
    | (with_reducible refine keep_execTimeSet ?_ h_s) <;> exact mask_sub hm rfl
    | (with_reducible refine keep_execTimeSetSource ?_ h_s) <;> exact mask_sub hm rfl
    | (with_reducible refine keep_execTimeSetTod ?_ h_s) <;> exact mask_sub hm rfl
    | (with_reducible refine keep_execTimeSetCal ?_ h_s) <;> exact mask_sub hm rfl
    | (with_reducible refine keep_execTimeSetServo ?_ h_s) <;> exact mask_sub hm rfl
    | (with_reducible refine keep_execTimeSetUtc ?_ h_s) <;> exact mask_sub hm rfl
    | (with_reducible refine keep_execTimeStepRoot ?_ h_s) <;> exact mask_sub hm rfl

theorem keep_runWin {o : Host.Outcome State Fault Refusal} {lo : Nat} {r : Request} {s : State} (e : runWin lo r s = some o) (hm : 747635732 &&& M = 747635732) (h_s : Keep M s0 s) : KeepO M s0 o := by
  unfold runWin at e
  split at e <;> cases e
  all_goals first
    | (with_reducible refine keep_execWinGet ?_ h_s) <;> exact mask_sub hm rfl
    | (with_reducible refine keep_execWinSetEnable ?_ h_s) <;> exact mask_sub hm rfl
    | (with_reducible refine keep_execWinGetStream ?_ h_s) <;> exact mask_sub hm rfl

theorem keep_runCtr {o : Host.Outcome State Fault Refusal} {lo : Nat} {r : Request} {s : State} (e : runCtr lo r s = some o) (hm : 747635732 &&& M = 747635732) (h_s : Keep M s0 s) : KeepO M s0 o := by
  unfold runCtr at e
  split at e <;> cases e
  all_goals first
    | (with_reducible refine keep_execCtrRead ?_ h_s) <;> exact mask_sub hm rfl
    | (with_reducible refine keep_execCtrClear ?_ h_s) <;> exact mask_sub hm rfl
    | (with_reducible refine keep_execCtrGetMap ?_ h_s) <;> exact mask_sub hm rfl

theorem keep_runSen {o : Host.Outcome State Fault Refusal} {lo : Nat} {r : Request} {s : State} (e : runSen lo r s = some o) (hm : 764412980 &&& M = 764412980) (h_s : Keep M s0 s) : KeepO M s0 o := by
  unfold runSen at e
  split at e <;> cases e
  all_goals first
    | (with_reducible refine keep_execSenRead ?_ h_s) <;> exact mask_sub hm rfl
    | (with_reducible refine keep_execSenGet ?_ h_s) <;> exact mask_sub hm rfl
    | (with_reducible refine keep_execSenStageTrim ?_ h_s) <;> exact mask_sub hm rfl
    | (with_reducible refine keep_execSenActivateTrim ?_ h_s) <;> exact mask_sub hm rfl

theorem keep_runRed {o : Host.Outcome State Fault Refusal} {lo : Nat} {r : Request} {s : State} (e : runRed lo r s = some o) (hm : 764413076 &&& M = 764413076) (h_s : Keep M s0 s) : KeepO M s0 o := by
  unfold runRed at e
  split at e <;> cases e
  all_goals first
    | (with_reducible refine keep_execRedStageCatalogue ?_ h_s) <;> exact mask_sub hm rfl
    | (with_reducible refine keep_execRedActivateCatalogue ?_ h_s) <;> exact mask_sub hm rfl
    | (with_reducible refine keep_execRedGetCatalogue ?_ h_s) <;> exact mask_sub hm rfl
    | (with_reducible refine keep_execRedGetSummary ?_ h_s) <;> exact mask_sub hm rfl
    | (with_reducible refine keep_execRedGetReturned ?_ h_s) <;> exact mask_sub hm rfl
    | (with_reducible refine keep_execRedTest ?_ h_s) <;> exact mask_sub hm rfl
    | (with_reducible refine keep_execRedGetCheck ?_ h_s) <;> exact mask_sub hm rfl

theorem keep_runDoor {o : Host.Outcome State Fault Refusal} {lo : Nat} {r : Request} {s : State} (e : runDoor lo r s = some o) (hm : 1016120852 &&& M = 1016120852) (h_s : Keep M s0 s) : KeepO M s0 o := by
  unfold runDoor at e
  split at e <;> cases e
  all_goals first
    | (with_reducible refine keep_execDoorGet ?_ h_s) <;> exact mask_sub hm rfl
    | (with_reducible refine keep_execDoorGetStats ?_ h_s) <;> exact mask_sub hm rfl
    | (with_reducible refine keep_execDoorSet ?_ h_s) <;> exact mask_sub hm rfl
    | (with_reducible refine keep_execDoorRetrain ?_ h_s) <;> exact mask_sub hm rfl
    | (with_reducible refine keep_execDoorClearQuarantine ?_ h_s) <;> exact mask_sub hm rfl

theorem keep_runFea {o : Host.Outcome State Fault Refusal} {lo : Nat} {r : Request} {s : State} (e : runFea lo r s = some o) (hm : 764415036 &&& M = 764415036) (h_s : Keep M s0 s) : KeepO M s0 o := by
  unfold runFea at e
  split at e <;> cases e
  all_goals first
    | (with_reducible refine keep_execFeaStageTable ?_ h_s) <;> exact mask_sub hm rfl
    | (with_reducible refine keep_execFeaActivateTable ?_ h_s) <;> exact mask_sub hm rfl
    | (with_reducible refine keep_execFeaGetTable ?_ h_s) <;> exact mask_sub hm rfl
    | (with_reducible refine keep_execFeaGetVector ?_ h_s) <;> exact mask_sub hm rfl

theorem keep_runPln {o : Host.Outcome State Fault Refusal} {lo : Nat} {r : Request} {s : State} (e : runPln lo r s = some o) (hm : 747635732 &&& M = 747635732) (h_s : Keep M s0 s) : KeepO M s0 o := by
  unfold runPln at e
  split at e <;> cases e
  all_goals first
    | (with_reducible refine keep_execPlnRead ?_ h_s) <;> exact mask_sub hm rfl
    | (with_reducible refine keep_execPlnReset ?_ h_s) <;> exact mask_sub hm rfl
    | (with_reducible refine keep_execPlnGetAlarms ?_ h_s) <;> exact mask_sub hm rfl

theorem keep_runGlen {o : Host.Outcome State Fault Refusal} {lo : Nat} {r : Request} {s : State} (e : runGlen lo r s = some o) (hm : 764419132 &&& M = 764419132) (h_s : Keep M s0 s) : KeepO M s0 o := by
  unfold runGlen at e
  split at e <;> cases e
  all_goals first
    | (with_reducible refine keep_execGlenStagePage ?_ h_s) <;> exact mask_sub hm rfl
    | (with_reducible refine keep_execGlenActivate ?_ h_s) <;> exact mask_sub hm rfl
    | (with_reducible refine keep_execGlenDeactivate ?_ h_s) <;> exact mask_sub hm rfl
    | (with_reducible refine keep_execGlenGet ?_ h_s) <;> exact mask_sub hm rfl
    | (with_reducible refine keep_execGlenSetMode ?_ h_s) <;> exact mask_sub hm rfl
    | (with_reducible refine keep_execGlenSetStraggler ?_ h_s) <;> exact mask_sub hm rfl
    | (with_reducible refine keep_execGlenEval ?_ h_s) <;> exact mask_sub hm rfl
    | (with_reducible refine keep_execGlenTestLink ?_ h_s) <;> exact mask_sub hm rfl
    | (with_reducible refine keep_execGlenGetFindings ?_ h_s) <;> exact mask_sub hm rfl
    | (with_reducible refine keep_execGlenGetHistory ?_ h_s) <;> exact mask_sub hm rfl

theorem keep_runProbe {o : Host.Outcome State Fault Refusal} {lo : Nat} {r : Request} {s : State} (e : runProbe lo r s = some o) (hm : 764945428 &&& M = 764945428) (h_s : Keep M s0 s) : KeepO M s0 o := by
  unfold runProbe at e
  split at e <;> cases e
  all_goals first
    | (with_reducible refine keep_execProbeInstallPack ?_ h_s) <;> exact mask_sub hm rfl
    | (with_reducible refine keep_execProbePushPack ?_ h_s) <;> exact mask_sub hm rfl
    | (with_reducible refine keep_execProbeEndPush ?_ h_s) <;> exact mask_sub hm rfl
    | (with_reducible refine keep_execProbeGetPush ?_ h_s) <;> exact mask_sub hm rfl
    | (with_reducible refine keep_execProbeActivatePack ?_ h_s) <;> exact mask_sub hm rfl
    | (with_reducible refine keep_execProbeSet ?_ h_s) <;> exact mask_sub hm rfl
    | (with_reducible refine keep_execProbeGet ?_ h_s) <;> exact mask_sub hm rfl
    | (with_reducible refine keep_execProbeGetCoverage ?_ h_s) <;> exact mask_sub hm rfl
    | (with_reducible refine keep_execProbeClearCoverage ?_ h_s) <;> exact mask_sub hm rfl
    | (with_reducible refine keep_execProbeDisableTile ?_ h_s) <;> exact mask_sub hm rfl
    | (with_reducible refine keep_execProbeResumeTile ?_ h_s) <;> exact mask_sub hm rfl
    | (with_reducible refine keep_execProbeRun ?_ h_s) <;> exact mask_sub hm rfl

theorem keep_runErr {o : Host.Outcome State Fault Refusal} {lo : Nat} {r : Request} {s : State} (e : runErr lo r s = some o) (hm : 1687208980 &&& M = 1687208980) (h_s : Keep M s0 s) : KeepO M s0 o := by
  unfold runErr at e
  split at e <;> cases e
  all_goals first
    | (with_reducible refine keep_execErrSetRoute ?_ h_s) <;> exact mask_sub hm rfl
    | (with_reducible refine keep_execErrFetch ?_ h_s) <;> exact mask_sub hm rfl
    | (with_reducible refine keep_execErrGet ?_ h_s) <;> exact mask_sub hm rfl
    | (with_reducible refine keep_execErrReadRing ?_ h_s) <;> exact mask_sub hm rfl
    | (with_reducible refine keep_execErrInject ?_ h_s) <;> exact mask_sub hm rfl
    | (with_reducible refine keep_execErrSetExport ?_ h_s) <;> exact mask_sub hm rfl
    | (with_reducible refine keep_execErrGetSignatures ?_ h_s) <;> exact mask_sub hm rfl

theorem keep_runPsn {o : Host.Outcome State Fault Refusal} {lo : Nat} {r : Request} {s : State} (e : runPsn lo r s = some o) (hm : 613418004 &&& M = 613418004) (h_s : Keep M s0 s) : KeepO M s0 o := by
  unfold runPsn at e
  split at e <;> cases e
  all_goals first
    | (with_reducible refine keep_execPsnGetBirths ?_ h_s) <;> exact mask_sub hm rfl
    | (with_reducible refine keep_execPsnGetCounts ?_ h_s) <;> exact mask_sub hm rfl

theorem keep_runTrc {o : Host.Outcome State Fault Refusal} {lo : Nat} {r : Request} {s : State} (e : runTrc lo r s = some o) (hm : 1821574676 &&& M = 1821574676) (h_s : Keep M s0 s) : KeepO M s0 o := by
  unfold runTrc at e
  split at e <;> cases e
  all_goals first
    | (with_reducible refine keep_execTrcSet ?_ h_s) <;> exact mask_sub hm rfl
    | (with_reducible refine keep_execTrcGet ?_ h_s) <;> exact mask_sub hm rfl
    | (with_reducible refine keep_execTrcTrigger ?_ h_s) <;> exact mask_sub hm rfl
    | (with_reducible refine keep_execTrcArm ?_ h_s) <;> exact mask_sub hm rfl
    | (with_reducible refine keep_execTrcGetTriggers ?_ h_s) <;> exact mask_sub hm rfl
    | (with_reducible refine keep_execTrcRead ?_ h_s) <;> exact mask_sub hm rfl
    | (with_reducible refine keep_execTrcReadHistory ?_ h_s) <;> exact mask_sub hm rfl
    | (with_reducible refine keep_execTrcSetHistory ?_ h_s) <;> exact mask_sub hm rfl
    | (with_reducible refine keep_execTrcGetStats ?_ h_s) <;> exact mask_sub hm rfl

theorem keep_runWpt {o : Host.Outcome State Fault Refusal} {lo : Nat} {r : Request} {s : State} (e : runWpt lo r s = some o) (hm : 747766804 &&& M = 747766804) (h_s : Keep M s0 s) : KeepO M s0 o := by
  unfold runWpt at e
  split at e <;> cases e
  all_goals first
    | (with_reducible refine keep_execWptSet ?_ h_s) <;> exact mask_sub hm rfl
    | (with_reducible refine keep_execWptGet ?_ h_s) <;> exact mask_sub hm rfl
    | (with_reducible refine keep_execWptEnableData ?_ h_s) <;> exact mask_sub hm rfl
    | (with_reducible refine keep_execWptDisableData ?_ h_s) <;> exact mask_sub hm rfl
    | (with_reducible refine keep_execWptReadCapture ?_ h_s) <;> exact mask_sub hm rfl

theorem keep_runShutter {o : Host.Outcome State Fault Refusal} {lo : Nat} {r : Request} {s : State} (e : runShutter lo r s = some o) (hm : 1839019540 &&& M = 1839019540) (h_s : Keep M s0 s) : KeepO M s0 o := by
  unfold runShutter at e
  split at e <;> cases e
  all_goals first
    | (with_reducible refine keep_execShutterStageProgram ?_ h_s) <;> exact mask_sub hm rfl
    | (with_reducible refine keep_execShutterActivateProgram ?_ h_s) <;> exact mask_sub hm rfl
    | (with_reducible refine keep_execShutterSet ?_ h_s) <;> exact mask_sub hm rfl
    | (with_reducible refine keep_execShutterStop ?_ h_s) <;> exact mask_sub hm rfl
    | (with_reducible refine keep_execShutterArmTimed ?_ h_s) <;> exact mask_sub hm rfl
    | (with_reducible refine keep_execShutterCancelTimed ?_ h_s) <;> exact mask_sub hm rfl
    | (with_reducible refine keep_execShutterScan ?_ h_s) <;> exact mask_sub hm rfl
    | (with_reducible refine keep_execShutterAbortScan ?_ h_s) <;> exact mask_sub hm rfl
    | (with_reducible refine keep_execShutterResume ?_ h_s) <;> exact mask_sub hm rfl
    | (with_reducible refine keep_execShutterSetHang ?_ h_s) <;> exact mask_sub hm rfl
    | (with_reducible refine keep_execShutterGet ?_ h_s) <;> exact mask_sub hm rfl
    | (with_reducible refine keep_execShutterGetCut ?_ h_s) <;> exact mask_sub hm rfl
    | (with_reducible refine keep_execShutterSetArea ?_ h_s) <;> exact mask_sub hm rfl
    | (with_reducible refine keep_execShutterListImages ?_ h_s) <;> exact mask_sub hm rfl
    | (with_reducible refine keep_execShutterReadImage ?_ h_s) <;> exact mask_sub hm rfl
    | (with_reducible refine keep_execShutterReleaseImage ?_ h_s) <;> exact mask_sub hm rfl
    | (with_reducible refine keep_execShutterReadScan ?_ h_s) <;> exact mask_sub hm rfl

theorem keep_runCdc {o : Host.Outcome State Fault Refusal} {lo : Nat} {r : Request} {s : State} (e : runCdc lo r s = some o) (hm : 630719508 &&& M = 630719508) (h_s : Keep M s0 s) : KeepO M s0 o := by
  unfold runCdc at e
  split at e <;> cases e
  all_goals first
    | (with_reducible refine keep_execCdcGet ?_ h_s) <;> exact mask_sub hm rfl
    | (with_reducible refine keep_execCdcTest ?_ h_s) <;> exact mask_sub hm rfl

theorem keep_runEvr {o : Host.Outcome State Fault Refusal} {lo : Nat} {r : Request} {s : State} (e : runEvr lo r s = some o) (hm : 615515156 &&& M = 615515156) (h_s : Keep M s0 s) : KeepO M s0 o := by
  unfold runEvr at e
  split at e <;> cases e
  all_goals first
    | (with_reducible refine keep_execEvrRead ?_ h_s) <;> exact mask_sub hm rfl
    | (with_reducible refine keep_execEvrGet ?_ h_s) <;> exact mask_sub hm rfl
    | (with_reducible refine keep_execEvrClear ?_ h_s) <;> exact mask_sub hm rfl
    | (with_reducible refine keep_execEvrReadMirror ?_ h_s) <;> exact mask_sub hm rfl
    | (with_reducible refine keep_execEvrGetMirror ?_ h_s) <;> exact mask_sub hm rfl
    | (with_reducible refine keep_execEvrClearMirror ?_ h_s) <;> exact mask_sub hm rfl

theorem keep_runSrm {o : Host.Outcome State Fault Refusal} {lo : Nat} {r : Request} {s : State} (e : runSrm lo r s = some o) (hm : 615515156 &&& M = 615515156) (h_s : Keep M s0 s) : KeepO M s0 o := by
  unfold runSrm at e
  split at e <;> cases e
  all_goals first
    | (with_reducible refine keep_execSrmGet ?_ h_s) <;> exact mask_sub hm rfl
    | (with_reducible refine keep_execSrmSetBank ?_ h_s) <;> exact mask_sub hm rfl
    | (with_reducible refine keep_execSrmGetMap ?_ h_s) <;> exact mask_sub hm rfl

theorem keep_runHsh {o : Host.Outcome State Fault Refusal} {lo : Nat} {r : Request} {s : State} (e : runHsh lo r s = some o) (hm : 1821377556 &&& M = 1821377556) (h_s : Keep M s0 s) : KeepO M s0 o := by
  unfold runHsh at e
  split at e <;> cases e
  all_goals first
    | (with_reducible refine keep_execHshGet ?_ h_s) <;> exact mask_sub hm rfl
    | (with_reducible refine keep_execHshSetAudit ?_ h_s) <;> exact mask_sub hm rfl
    | (with_reducible refine keep_execHshGetDigest ?_ h_s) <;> exact mask_sub hm rfl
    | (with_reducible refine keep_execHshGetJobDigest ?_ h_s) <;> exact mask_sub hm rfl

theorem keep_runSec {o : Host.Outcome State Fault Refusal} {lo : Nat} {r : Request} {s : State} (e : runSec lo r s = some o) (hm : 1840251924 &&& M = 1840251924) (h_s : Keep M s0 s) : KeepO M s0 o := by
  unfold runSec at e
  split at e <;> cases e
  all_goals first
    | (with_reducible refine keep_execSecOpenSession ?_ h_s) <;> exact mask_sub hm rfl
    | (with_reducible refine keep_execSecCloseSession ?_ h_s) <;> exact mask_sub hm rfl
    | (with_reducible refine keep_execSecRotateKey ?_ h_s) <;> exact mask_sub hm rfl
    | (with_reducible refine keep_execSecSelfTest ?_ h_s) <;> exact mask_sub hm rfl
    | (with_reducible refine keep_execSecStageFirmware ?_ h_s) <;> exact mask_sub hm rfl
    | (with_reducible refine keep_execSecHandover ?_ h_s) <;> exact mask_sub hm rfl
    | (with_reducible refine keep_execSecGet ?_ h_s) <;> exact mask_sub hm rfl
    | (with_reducible refine keep_execSecGetCert ?_ h_s) <;> exact mask_sub hm rfl

theorem keep_runCmd {o : Host.Outcome State Fault Refusal} {lo : Nat} {r : Request} {s : State} (e : runCmd lo r s = some o) (hm : 613418004 &&& M = 613418004) (h_s : Keep M s0 s) : KeepO M s0 o := by
  unfold runCmd at e
  split at e <;> cases e
  all_goals first
    | (with_reducible refine keep_execCmdGet ?_ h_s) <;> exact mask_sub hm rfl
    | (with_reducible refine keep_execCmdEcho ?_ h_s) <;> exact mask_sub hm rfl

theorem keep_runPwr {o : Host.Outcome State Fault Refusal} {lo : Nat} {r : Request} {s : State} (e : runPwr lo r s = some o) (hm : 747635732 &&& M = 747635732) (h_s : Keep M s0 s) : KeepO M s0 o := by
  unfold runPwr at e
  split at e <;> cases e
  all_goals first
    | (with_reducible refine keep_execPwrGet ?_ h_s) <;> exact mask_sub hm rfl
    | (with_reducible refine keep_execPwrSet ?_ h_s) <;> exact mask_sub hm rfl

theorem keep_runPnl {o : Host.Outcome State Fault Refusal} {lo : Nat} {r : Request} {s : State} (e : runPnl lo r s = some o) (hm : 881853460 &&& M = 881853460) (h_s : Keep M s0 s) : KeepO M s0 o := by
  unfold runPnl at e
  split at e <;> cases e
  all_goals first
    | (with_reducible refine keep_execPnlGet ?_ h_s) <;> exact mask_sub hm rfl
    | (with_reducible refine keep_execPnlSetLed ?_ h_s) <;> exact mask_sub hm rfl
    | (with_reducible refine keep_execPnlGetLog ?_ h_s) <;> exact mask_sub hm rfl

theorem keep_runOpcode {o : Host.Outcome State Fault Refusal} {code : Nat} {r : Request} {s : State} (e : runOpcode code r s = some o) (hm : 2109734588 &&& M = 2109734588) (h_s : Keep M s0 s) : KeepO M s0 o := by
  unfold runOpcode at e
  split at e <;> first
    | (with_reducible refine keep_runFrame e ?_ h_s) <;> exact mask_sub hm rfl
    | (with_reducible refine keep_runTime e ?_ h_s) <;> exact mask_sub hm rfl
    | (with_reducible refine keep_runWin e ?_ h_s) <;> exact mask_sub hm rfl
    | (with_reducible refine keep_runCtr e ?_ h_s) <;> exact mask_sub hm rfl
    | (with_reducible refine keep_runSen e ?_ h_s) <;> exact mask_sub hm rfl
    | (with_reducible refine keep_runRed e ?_ h_s) <;> exact mask_sub hm rfl
    | (with_reducible refine keep_runDoor e ?_ h_s) <;> exact mask_sub hm rfl
    | (with_reducible refine keep_runFea e ?_ h_s) <;> exact mask_sub hm rfl
    | (with_reducible refine keep_runPln e ?_ h_s) <;> exact mask_sub hm rfl
    | (with_reducible refine keep_runGlen e ?_ h_s) <;> exact mask_sub hm rfl
    | (with_reducible refine keep_runProbe e ?_ h_s) <;> exact mask_sub hm rfl
    | (with_reducible refine keep_runErr e ?_ h_s) <;> exact mask_sub hm rfl
    | (with_reducible refine keep_runPsn e ?_ h_s) <;> exact mask_sub hm rfl
    | (with_reducible refine keep_runTrc e ?_ h_s) <;> exact mask_sub hm rfl
    | (with_reducible refine keep_runWpt e ?_ h_s) <;> exact mask_sub hm rfl
    | (with_reducible refine keep_runShutter e ?_ h_s) <;> exact mask_sub hm rfl
    | (with_reducible refine keep_runCdc e ?_ h_s) <;> exact mask_sub hm rfl
    | (with_reducible refine keep_runEvr e ?_ h_s) <;> exact mask_sub hm rfl
    | (with_reducible refine keep_runSrm e ?_ h_s) <;> exact mask_sub hm rfl
    | (with_reducible refine keep_runHsh e ?_ h_s) <;> exact mask_sub hm rfl
    | (with_reducible refine keep_runSec e ?_ h_s) <;> exact mask_sub hm rfl
    | (with_reducible refine keep_runCmd e ?_ h_s) <;> exact mask_sub hm rfl
    | (with_reducible refine keep_runPwr e ?_ h_s) <;> exact mask_sub hm rfl
    | (with_reducible refine keep_runPnl e ?_ h_s) <;> exact mask_sub hm rfl
    | cases e

theorem keep_stateOf {s : State} {o : Host.Outcome State Fault Refusal} (ho : KeepO M s0 o) (h : Keep M s0 s) : Keep M s0 (stateOf o s) := by
  unfold stateOf
  split
  · exact ho.keep _ rfl
  · exact h

theorem keep_answerEarly {row : Nat} {st : Nat} {path : Path} {pkt : Bytes} {s : State} (hm : 612369408 &&& M = 612369408) (h_s : Keep M s0 s) :
    Keep M s0 (answerEarly row st path pkt s) := by
  unfold answerEarly
  try dsimp only
  repeat' first
    | (with_reducible first
      | assumption | apply Keep.ite | apply keep_countRefusal | apply keep_answerPlain | apply keep_setSec)
    | ((simp only [keep_mk]; apply Keep.upd) <;> try first | exact .inl (mask_bit hm rfl) | exact .inr rfl | exact fun h => h | exact rfl)
    | exact mask_sub hm rfl | exact rfl | split | intro _ _ _ | intro _ _

theorem keep_answerRow {row : Nat} {st : Nat} {code : Nat} {r : Request} {s : State} (hm : 612369408 &&& M = 612369408) (h_s : Keep M s0 s) :
    Keep M s0 (answerRow row st code r s) := by
  unfold answerRow
  repeat' first
    | (with_reducible first
      | assumption | apply keep_fillCache | apply keep_countRefusal | apply keep_answerPlain)
    | exact mask_sub hm rfl

theorem keep_executePacket {code : Nat} {r : Request} {pkt : Bytes} {s : State} (hm : 2143289020 &&& M = 2143289020) (h_s : Keep M s0 s) :
    Keep M s0 (executePacket code r pkt s) := by
  unfold executePacket
  try dsimp only
  repeat' first
    | (with_reducible first
      | assumption | apply Keep.ite | refine keep_runOpcode (by assumption) ?_ ?_ | apply keep_stateOf | apply keep_answerRow
      | refine Keep.ofPair (by assumption) ?_ | refine Keep.ofTriple (by assumption) ?_)
    | ((simp only [keep_mk]; apply Keep.upd) <;> try first | exact .inl (mask_bit hm rfl) | exact .inr rfl | exact fun h => h | exact rfl)
    | exact mask_sub hm rfl | exact rfl | split

theorem keep_answerRepeat {c : Cached} {code : Nat} {r : Request} {s : State} (hm : 2109734588 &&& M = 2109734588) (h_s : Keep M s0 s) :
    Keep M s0 (answerRepeat c code r s) := by
  unfold answerRepeat
  try dsimp only
  repeat' first
    | (with_reducible first
      | assumption | apply Keep.ite | apply keep_fresh | apply keep_answerPlain | refine keep_runOpcode (by assumption) ?_ ?_ | apply keep_stateOf
      | refine Keep.ofPair (by assumption) ?_ | refine Keep.ofTriple (by assumption) ?_)
    | ((simp only [keep_mk]; apply Keep.upd) <;> try first | exact .inl (mask_bit hm rfl) | exact .inr rfl | exact fun h => h | exact rfl)
    | exact mask_sub hm rfl | exact rfl | split

theorem keep_replay_ (hm : 612369408 &&& M = 612369408) {s : State} {x : Session} {code : Nat} {r : Request} (h_s : Keep M s0 s) :
    Keep M s0 (takeSequence.replay_ x code r s) := keep_answerPlain (mask_sub hm rfl) (keep_countRefusal (mask_sub hm rfl) h_s)

theorem keep_takeSequence (hm : 2143289020 &&& M = 2143289020) {x : Session} {trailer : Bytes} {code : Nat} {r : Request} {pkt : Bytes} {s : State} (h_s : Keep M s0 s) : Keep M s0 (takeSequence x trailer code r pkt s) := by
  unfold takeSequence
  try dsimp only
  repeat' first
    | with_reducible apply keep_replay_
    | with_reducible assumption
    | with_reducible apply Keep.ite
    | with_reducible apply KeepO.ite
    | with_reducible apply KeepO.next
    | with_reducible apply keep_countRefusal
    | with_reducible apply keep_answerPlain
    | with_reducible apply keep_setSession
    | with_reducible apply keep_executePacket
    | with_reducible apply keep_answerRepeat
    | ((simp only [keep_mk]; apply Keep.upd) <;> try first | exact .inl (mask_bit hm rfl) | (with_reducible exact .inr rfl) | exact fun h => h | (with_reducible exact rfl) | exact fun h => PendDistinct.filter h _ | exact fun h => ⟨h.1, h.2, h.3, h.4⟩)
    | exact mask_sub hm rfl
    | with_reducible apply Keep.foldl
    | with_reducible apply Keep.foldlP
    | rfl
    | with_reducible exact Keep.refl _
    | with_reducible refine Keep.ofPair (by assumption) ?_
    | with_reducible refine Keep.ofTriple (by assumption) ?_
    | split
    | intro _ _ _
    | intro _ _

theorem keep_takePacket {path : Path} {pkt : Bytes} {s : State} (hm : 2143289020 &&& M = 2143289020) (h_s : Keep M s0 s) :
    Keep M s0 (takePacket path pkt s) := by
  unfold takePacket
  try dsimp only
  repeat' first
    | (with_reducible first
      | assumption | apply Keep.ite | apply keep_endSession | apply keep_answerEarly | apply keep_executePacket | apply keep_takeSequence
      | refine Keep.ofPair (by assumption) ?_ | refine Keep.ofTriple (by assumption) ?_)
    | ((simp only [keep_mk]; apply Keep.upd) <;> try first | exact .inl (mask_bit hm rfl) | exact .inr rfl | exact fun h => h | exact rfl)
    | exact mask_sub hm rfl | exact rfl | split

theorem keep_serveWaiting {s : State} (hm : 2143289020 &&& M = 2143289020) (h_s : Keep M s0 s) : Keep M s0 (serveWaiting s) := by
  unfold serveWaiting
  try dsimp only
  repeat' first
    | (with_reducible first
      | assumption | apply Keep.ite | apply keep_setSec | apply keep_takePacket | apply Keep.foldl | apply Keep.foldlP)
    | ((simp only [keep_mk]; apply Keep.upd) <;> try first | exact .inl (mask_bit hm rfl) | exact .inr rfl | exact fun h => h | exact rfl)
    | exact mask_sub hm rfl | exact rfl | split | intro _ _ _ | intro _ _

theorem keep_joinQueue {path : Path} {pkt : Bytes} {s : State} (hm : 2143289020 &&& M = 2143289020) (h_s : Keep M s0 s) :
    Keep M s0 (joinQueue path pkt s) := by
  unfold joinQueue
  repeat' first
    | (with_reducible first
      | assumption | apply Keep.ite | apply keep_setSec | apply keep_answerEarly | apply keep_takePacket)
    | ((simp only [keep_mk]; apply Keep.upd) <;> try first | exact .inl (mask_bit hm rfl) | exact .inr rfl | exact fun h => h | exact rfl)
    | exact mask_sub hm rfl | exact rfl | split | intro _ _ _ | intro _ _

theorem keep_arrivePacket {path : Path} {pkt : Bytes} {s : State} (hm : 2143289020 &&& M = 2143289020) (h_s : Keep M s0 s) :
    Keep M s0 (arrivePacket path pkt s) := by
  unfold arrivePacket
  try dsimp only
  repeat' first
    | (with_reducible first
      | assumption | apply Keep.ite | apply keep_takePacket | apply keep_serveWaiting | apply keep_joinQueue)
    | exact mask_sub hm rfl | split

theorem keep_execFirmwareBoot {s : State} (hm : 2143289020 &&& M = 2143289020) (h_s : Keep M s0 s) : KeepO M s0 (execFirmwareBoot s) := by
  unfold execFirmwareBoot
  try dsimp only
  repeat' first
    | (with_reducible first
      | assumption | apply Keep.ite | apply KeepO.next | apply KeepO.ite | apply keep_fresh | apply keep_advanceCycles | apply keep_bootRom
      | apply keep_serveWaiting)
    | exact mask_sub hm rfl | split

theorem keep_returnByTag {tag : Nat} {pkt : Bytes} {s : State} (hm : 536871936 &&& M = 536871936) (h_s : Keep M s0 s) :
    Keep M s0 (returnByTag tag pkt s) := by
  unfold returnByTag
  repeat' first
    | (with_reducible first
      | assumption | apply keep_sendDatagram | refine Keep.ofPair (by assumption) ?_ | refine Keep.ofTriple (by assumption) ?_)
    | ((simp only [keep_mk]; apply Keep.upd) <;> try first | exact .inl (mask_bit hm rfl) | exact .inr rfl | exact fun h => h | exact rfl)
    | exact mask_sub hm rfl | exact rfl | split

theorem keep_commandArrived {door : Nat} {flags : Nat} {target : Word} {body : Bytes} {s : State} (hm : 2143289020 &&& M = 2143289020) (h_s : Keep M s0 s) :
    Keep M s0 (commandArrived door flags target body s) := by
  unfold commandArrived
  try dsimp only
  repeat' first
    | (with_reducible first
      | assumption | apply Keep.ite | apply keep_malformedOn | apply keep_forwardMsg | apply keep_arrivePacket)
    | ((simp only [keep_mk]; apply Keep.upd) <;> try first | exact .inl (mask_bit hm rfl) | exact .inr rfl | exact fun h => h | exact rfl)
    | exact mask_sub hm rfl | exact rfl | split

theorem keep_execCommandMessageArrival {after : Nat} {door : Nat} {flags : BitVec 8} {target : Word} {body : Bytes} {s : State} (hm : 2143289020 &&& M = 2143289020) (h_s : Keep M s0 s) :
    KeepO M s0 (execCommandMessageArrival after door flags target body s) := by
  unfold execCommandMessageArrival
  try dsimp only
  repeat' first
    | (with_reducible first
      | assumption | apply Keep.ite | apply KeepO.next | apply KeepO.ite | apply keep_begin_ | apply keep_malformedOn | apply keep_takeCut
      | apply keep_commandArrived | refine Keep.ofPair (by assumption) ?_ | refine Keep.ofTriple (by assumption) ?_)
    | ((simp only [keep_mk]; apply Keep.upd) <;> try first | exact .inl (mask_bit hm rfl) | exact .inr rfl | exact fun h => h | exact rfl)
    | exact mask_sub hm rfl | split

theorem keep_replyArrived {door : Nat} {target : Word} {body : Bytes} {s : State} (hm : 536871936 &&& M = 536871936) (h_s : Keep M s0 s) :
    Keep M s0 (replyArrived door target body s) := by
  unfold replyArrived
  try dsimp only
  repeat' first
    | (with_reducible first
      | assumption | apply Keep.ite | apply keep_malformedOn | apply keep_forwardMsg | apply keep_returnByTag)
    | ((simp only [keep_mk]; apply Keep.upd) <;> try first | exact .inl (mask_bit hm rfl) | exact .inr rfl | exact fun h => h | exact rfl)
    | exact mask_sub hm rfl | exact rfl | split

theorem keep_execReplyMessageArrival {door : Nat} {target : Word} {body : Bytes} {s : State} (hm : 536871936 &&& M = 536871936) (h_s : Keep M s0 s) :
    KeepO M s0 (execReplyMessageArrival door target body s) := by
  unfold execReplyMessageArrival
  try dsimp only
  repeat' first
    | (with_reducible first
      | assumption | apply Keep.ite | apply KeepO.next | apply KeepO.ite | apply keep_fresh | apply keep_replyArrived)
    | exact mask_sub hm rfl | split

theorem keep_answerHeld {m : Msg} {s : State} (hm : 536871936 &&& M = 536871936) (h_s : Keep M s0 s) : Keep M s0 (answerHeld m s) := by
  unfold answerHeld
  try dsimp only
  repeat' first
    | (with_reducible first
      | assumption | apply Keep.ite | apply keep_forwardMsg | apply keep_returnByTag)
    | ((simp only [keep_mk]; apply Keep.upd) <;> try first | exact .inl (mask_bit hm rfl) | exact .inr rfl | exact fun h => h | exact rfl)
    | exact mask_sub hm rfl | exact rfl | split

theorem keep_execCommandHoldTimeout {s : State} (hm : 537920532 &&& M = 537920532) (h_s : Keep M s0 s) :
    KeepO M s0 (execCommandHoldTimeout s) := by
  unfold execCommandHoldTimeout
  try dsimp only
  repeat' first
    | (with_reducible first
      | assumption | apply KeepO.next | apply KeepO.ite | apply keep_fresh | apply keep_advanceCycles | apply keep_answerHeld | apply Keep.foldl
      | apply Keep.foldlP | refine Keep.ofPair (by assumption) ?_ | refine Keep.ofTriple (by assumption) ?_)
    | ((simp only [keep_mk]; apply Keep.upd) <;> try first | exact .inl (mask_bit hm rfl) | exact .inr rfl | exact fun h => h | exact rfl)
    | exact mask_sub hm rfl | exact rfl | split | intro _ _ _ | intro _ _

theorem keep_execReturnTagExpiry {tag : Nat} {s : State} (hm : 537920532 &&& M = 537920532) (h_s : Keep M s0 s) :
    KeepO M s0 (execReturnTagExpiry tag s) := by
  unfold execReturnTagExpiry
  try dsimp only
  repeat' first
    | (with_reducible first
      | assumption | apply KeepO.next | apply KeepO.ite | apply keep_fresh | apply keep_advanceCycles | refine Keep.ofPair (by assumption) ?_
      | refine Keep.ofTriple (by assumption) ?_)
    | ((simp only [keep_mk]; apply Keep.upd) <;> try first | exact .inl (mask_bit hm rfl) | exact .inr rfl | exact fun h => h | exact rfl)
    | exact mask_sub hm rfl | exact rfl | split

theorem keep_discardDatagram {s : State} (hm : 1024 &&& M = 1024) (h_s : Keep M s0 s) : Keep M s0 (discardDatagram s) := by
  unfold discardDatagram
  repeat' first
    | (with_reducible first
      | assumption)
    | ((simp only [keep_mk]; apply Keep.upd) <;> try first | exact .inl (mask_bit hm rfl) | exact .inr rfl | exact fun h => h | exact rfl) | exact rfl

theorem keep_takeDatagram {src : Endpoint} {p : Bytes} {s : State} (hm : 2143289020 &&& M = 2143289020) (h_s : Keep M s0 s) :
    Keep M s0 (takeDatagram src p s) := by
  unfold takeDatagram
  try dsimp only
  repeat' first
    | (with_reducible first
      | assumption | apply Keep.ite | apply KeepO.next | apply KeepO.ite | apply keep_forwardMsg | apply keep_answerEarly | apply keep_arrivePacket
      | apply keep_discardDatagram)
    | ((simp only [keep_mk]; apply Keep.upd) <;> try first | exact .inl (mask_bit hm rfl) | exact .inr rfl | exact fun h => h | exact rfl)
    | exact mask_sub hm rfl | exact rfl | split

theorem keep_takeFragment {src : Endpoint} {f : Fragment} {p : Bytes} {s : State} (hm : 2143289020 &&& M = 2143289020) (h_s : Keep M s0 s) :
    Keep M s0 (takeFragment src f p s) := by
  unfold takeFragment
  try dsimp only
  repeat' first
    | (with_reducible first
      | assumption | apply Keep.ite | apply keep_discardDatagram | apply keep_takeDatagram | refine Keep.ofPair (by assumption) ?_
      | refine Keep.ofTriple (by assumption) ?_)
    | ((simp only [keep_mk]; apply Keep.upd) <;> try first | exact .inl (mask_bit hm rfl) | exact .inr rfl | exact fun h => h | exact rfl)
    | exact mask_sub hm rfl | exact rfl | split | intro _ _ _ | intro _ _

theorem keep_execManagementDatagram {after : Nat} {src : Endpoint} {frag : Option Fragment} {payload : Bytes} {s : State} (hm : 2143289020 &&& M = 2143289020) (h_s : Keep M s0 s) :
    KeepO M s0 (execManagementDatagram after src frag payload s) := by
  unfold execManagementDatagram
  try dsimp only
  repeat' first
    | (with_reducible first
      | assumption | apply Keep.ite | apply KeepO.next | apply KeepO.ite | apply keep_begin_ | apply keep_takeDatagram | apply keep_takeFragment
      | refine Keep.ofPair (by assumption) ?_ | refine Keep.ofTriple (by assumption) ?_)
    | ((simp only [keep_mk]; apply Keep.upd) <;> try first | exact .inl (mask_bit hm rfl) | exact .inr rfl | exact fun h => h | exact rfl)
    | exact mask_sub hm rfl | split

theorem keep_execFragmentReassemblyTimeout {src : Endpoint} {ident : Nat} {s : State} (hm : 537920532 &&& M = 537920532) (h_s : Keep M s0 s) :
    KeepO M s0 (execFragmentReassemblyTimeout src ident s) := by
  unfold execFragmentReassemblyTimeout
  try dsimp only
  repeat' first
    | (with_reducible first
      | assumption | apply KeepO.next | apply KeepO.ite | apply keep_fresh | apply keep_advanceCycles | apply keep_discardDatagram
      | refine Keep.ofPair (by assumption) ?_ | refine Keep.ofTriple (by assumption) ?_)
    | ((simp only [keep_mk]; apply Keep.upd) <;> try first | exact .inl (mask_bit hm rfl) | exact .inr rfl | exact fun h => h | exact rfl)
    | exact mask_sub hm rfl | exact rfl | split | intro _ _ _ | intro _ _

theorem keep_execIcmpv6Message {msg : IcmpMsg} {s : State} (hm : 536871936 &&& M = 536871936) (h_s : Keep M s0 s) :
    KeepO M s0 (execIcmpv6Message msg s) := by
  unfold execIcmpv6Message
  try dsimp only
  repeat' first
    | (with_reducible first
      | assumption | apply Keep.ite | apply KeepO.next | apply KeepO.ite | apply keep_fresh | apply keep_emit | refine Keep.ofPair (by assumption) ?_
      | refine Keep.ofTriple (by assumption) ?_)
    | ((simp only [keep_mk]; apply Keep.upd) <;> try first | exact .inl (mask_bit hm rfl) | exact .inr rfl | exact fun h => h | exact rfl)
    | exact mask_sub hm rfl | exact rfl | split

end Sys2Proof.Machine
end

