-- ==== Sys2Proof/Laws/KeepHostDoor.lean ====
section
/-! SUPPORT. What the operations of Machine/HostDoor.lean keep (`Keep`, Laws/Keep.lean): one lemma per operation. -/
namespace Sys2Proof.Machine

set_option linter.unusedSimpArgs false
set_option linter.unusedVariables false

variable {M : Nat} {s0 : State}

theorem keep_setHost {s : State} {f : HostDoor → HostDoor} (hm : 67108864 &&& M = 67108864) (h : Keep M s0 s) (hf : (f s.host).cmdWin = s.host.cmdWin) :
    Keep M s0 (setHost f s) := by
  unfold setHost
  simp only [keep_mk]; apply Keep.upd h <;> first | exact .inl (mask_bit hm rfl) | (with_reducible exact .inr rfl) | exact fun h => h | exact hf | rfl

theorem keep_badAccess {write : Bool} {off : Nat} {s : State} (hm : 67108864 &&& M = 67108864) (h_s : Keep M s0 s) :
    Keep M s0 (badAccess write off s) := by
  unfold badAccess
  repeat' first
    | (with_reducible first
      | assumption | apply Keep.ite | apply keep_setHost)
    | ((simp only [keep_mk]; apply Keep.upd) <;> try first | exact .inl (mask_bit hm rfl) | exact .inr rfl | exact fun h => h | exact rfl)
    | exact mask_sub hm rfl | exact rfl | split | intro _ _ _ | intro _ _

theorem keep_answerRead {v : Nat} {s : State} (hm : 603979776 &&& M = 603979776) (h_s : Keep M s0 s) : Keep M s0 (answerRead v s) := by
  unfold answerRead
  repeat' first
    | (with_reducible first
      | assumption | apply keep_emit | apply keep_setHost | apply keep_hostRead)
    | ((simp only [keep_mk]; apply Keep.upd) <;> try first | exact .inl (mask_bit hm rfl) | exact .inr rfl | exact fun h => h | exact rfl)
    | exact mask_sub hm rfl | exact rfl | intro _ _ _ | intro _ _

theorem keep_latchTime {s : State} (hm : 67108864 &&& M = 67108864) (h_s : Keep M s0 s) : Keep M s0 (latchTime s) := by
  unfold latchTime
  try dsimp only
  repeat' first
    | (with_reducible first
      | assumption | apply keep_setHost)
    | ((simp only [keep_mk]; apply Keep.upd) <;> try first | exact .inl (mask_bit hm rfl) | exact .inr rfl | exact fun h => h | exact rfl)
    | exact mask_sub hm rfl | exact rfl | intro _ _ _ | intro _ _

theorem keep_latchCounter {s : State} (hm : 67108864 &&& M = 67108864) (h_s : Keep M s0 s) : Keep M s0 (latchCounter s) := by
  unfold latchCounter
  try dsimp only
  repeat' first
    | (with_reducible first
      | assumption | apply Keep.ite | apply keep_setHost | refine Keep.ofPair (by assumption) ?_ | refine Keep.ofTriple (by assumption) ?_)
    | ((simp only [keep_mk]; apply Keep.upd) <;> try first | exact .inl (mask_bit hm rfl) | exact .inr rfl | exact fun h => h | exact rfl)
    | exact mask_sub hm rfl | exact rfl | split | intro _ _ _ | intro _ _

theorem keep_latchRecorder {s : State} (hm : 67108864 &&& M = 67108864) (h_s : Keep M s0 s) : Keep M s0 (latchRecorder s) := by
  unfold latchRecorder
  repeat' first
    | (with_reducible first
      | assumption | apply keep_setHost)
    | ((simp only [keep_mk]; apply Keep.upd) <;> try first | exact .inl (mask_bit hm rfl) | exact .inr rfl | exact fun h => h | exact rfl | exact fun h => ⟨h.1, h.2, h.3, h.4⟩)
    | exact mask_sub hm rfl | exact rfl | intro _ _ _ | intro _ _

theorem keep_latchErrors {s : State} (hm : 67108864 &&& M = 67108864) (h_s : Keep M s0 s) : Keep M s0 (latchErrors s) := by
  unfold latchErrors
  repeat' first
    | (with_reducible first
      | assumption | apply KeepO.next | apply KeepO.ite | apply keep_release | apply keep_setHost)
    | ((simp only [keep_mk]; apply Keep.upd) <;> try first | exact .inl (mask_bit hm rfl) | exact .inr rfl | exact fun h => h | exact rfl)
    | exact mask_sub hm rfl | exact rfl | intro _ _ _ | intro _ _

theorem keep_latchFor {off : Nat} {s : State} (hm : 67108864 &&& M = 67108864) (h_s : Keep M s0 s) : Keep M s0 (latchFor off s) := by
  unfold latchFor
  repeat' first
    | (with_reducible first
      | assumption | apply Keep.ite | apply keep_latchTime | apply keep_latchCounter | apply keep_latchRecorder | apply keep_latchErrors
      | refine Keep.ofPair (by assumption) ?_ | refine Keep.ofTriple (by assumption) ?_)
    | ((simp only [keep_mk]; apply Keep.upd) <;> try first | exact .inl (mask_bit hm rfl) | exact .inr rfl | exact fun h => h | exact rfl)
    | exact mask_sub hm rfl | split

theorem keep_hostRead {off : Nat} {s : State} (hm : 603979776 &&& M = 603979776) (h_s : Keep M s0 s) : Keep M s0 (hostRead off s) := by
  unfold hostRead
  try dsimp only
  repeat' first
    | (with_reducible first
      | assumption | apply Keep.ite | apply keep_badAccess | apply keep_answerRead | apply keep_latchFor | refine Keep.ofPair (by assumption) ?_
      | refine Keep.ofTriple (by assumption) ?_)
    | ((simp only [keep_mk]; apply Keep.upd) <;> try first | exact .inl (mask_bit hm rfl) | exact .inr rfl | exact fun h => h | exact rfl)
    | exact mask_sub hm rfl | split

theorem keep_writeWindow {s : State} {off : Nat} {data : Word} (hm : 67108864 &&& M = 67108864) (h : Keep M s0 s) : Keep M s0 (writeWindow off data s) := by
  refine ⟨h.build, h.pending, fun x => memWrite_wf _ _ (h.window x), h.recorder, h.pend, h.requests, h.chain, ?_⟩
  obtain ⟨a1, a2, a3, a4, a5, a6, a7, a8, a9, a10, a11, a12, a13, a14, a15, a16, a17, a18, a19, a20, a21, a22, a23, a24, a25, a26, a27, a28, a29, a30⟩ := h.same
  constructor <;> first | assumption | exact .inl (mask_bit hm rfl)

theorem keep_commandTake {data : Word} {s : State} (hm : 2143289020 &&& M = 2143289020) (h_s : Keep M s0 s) :
    Keep M s0 (commandTake data s) := by
  unfold commandTake
  try dsimp only
  repeat' first
    | (with_reducible first
      | assumption | apply Keep.ite | apply keep_arrivePacket | apply keep_setHost | apply keep_writeWindow)
    | ((simp only [keep_mk]; apply Keep.upd) <;> try first | exact .inl (mask_bit hm rfl) | exact .inr rfl | exact fun h => h | exact rfl)
    | exact mask_sub hm rfl | exact rfl | split | intro _ _ _ | intro _ _

theorem keep_execCommandTake {after : Nat} {data : Word} {s : State} (hm : 2143289020 &&& M = 2143289020) (h_s : Keep M s0 s) :
    KeepO M s0 (execCommandTake after data s) := by
  unfold execCommandTake
  repeat' first
    | (with_reducible first
      | assumption | apply KeepO.next | apply KeepO.ite | apply keep_begin_ | apply keep_commandTake)
    | exact mask_sub hm rfl

theorem keep_w1cWrite {off : Nat} {data : Word} {hardware : Word} {s : State} (hm : 69009424 &&& M = 69009424) (h_s : Keep M s0 s) :
    Keep M s0 (w1cWrite off data hardware s) := by
  unfold w1cWrite
  try dsimp only
  repeat' first
    | (with_reducible first
      | assumption | apply keep_setHost | apply keep_badAccess | refine Keep.ofPair (by assumption) ?_ | refine Keep.ofTriple (by assumption) ?_)
    | ((simp only [keep_mk]; apply Keep.upd) <;> try first | exact .inl (mask_bit hm rfl) | exact .inr rfl | exact fun h => h | exact rfl | exact fun h => ⟨h.1, h.2, h.3, h.4⟩)
    | exact mask_sub hm rfl | exact rfl | split | intro _ _ _ | intro _ _

theorem keep_execW1cWrite {offset : Nat} {data : Word} {hardware : Word} {s : State} (hm : 605880336 &&& M = 605880336) (h_s : Keep M s0 s) :
    KeepO M s0 (execW1cWrite offset data hardware s) := by
  unfold execW1cWrite
  try dsimp only
  repeat' first
    | (with_reducible first
      | assumption | apply Keep.ite | apply KeepO.next | apply KeepO.ite | apply keep_fresh | apply keep_w1cWrite)
    | exact mask_sub hm rfl | split

theorem keep_hostWrite {off : Nat} {data : Word} {s : State} (hm : 2143289020 &&& M = 2143289020) (h_s : Keep M s0 s) :
    Keep M s0 (hostWrite off data s) := by
  unfold hostWrite
  repeat' first
    | (with_reducible first
      | assumption | apply Keep.ite | apply keep_setHost | apply keep_badAccess | apply keep_writeWindow | apply keep_commandTake
      | apply keep_w1cWrite | refine Keep.ofPair (by assumption) ?_ | refine Keep.ofTriple (by assumption) ?_)
    | ((simp only [keep_mk]; apply Keep.upd) <;> try first | exact .inl (mask_bit hm rfl) | exact .inr rfl | exact fun h => h | exact rfl)
    | exact mask_sub hm rfl | exact rfl | split | intro _ _ _ | intro _ _

theorem keep_hostAccess {a : HostAccess} {s : State} (hm : 2143289020 &&& M = 2143289020) (h_s : Keep M s0 s) :
    Keep M s0 (hostAccess a s) := by
  unfold hostAccess
  repeat' first
    | (with_reducible first
      | assumption | apply Keep.ite | apply keep_badAccess | apply keep_answerRead | apply keep_hostRead | apply keep_hostWrite)
    | exact mask_sub hm rfl | split

theorem keep_execHostDoorWrite {access : HostAccess} {s : State} (hm : 2143289020 &&& M = 2143289020) (h_s : Keep M s0 s) :
    KeepO M s0 (execHostDoorWrite access s) := by
  unfold execHostDoorWrite
  repeat' first
    | (with_reducible first
      | assumption | apply KeepO.next | apply KeepO.ite | apply keep_fresh | apply keep_hostAccess)
    | exact mask_sub hm rfl

theorem keep_execTimeLatchRead {after : Nat} {s : State} (hm : 605028372 &&& M = 605028372) (h_s : Keep M s0 s) :
    KeepO M s0 (execTimeLatchRead after s) := by
  unfold execTimeLatchRead
  repeat' first
    | (with_reducible first
      | assumption | apply KeepO.next | apply KeepO.ite | apply keep_begin_ | apply keep_hostRead)
    | exact mask_sub hm rfl

theorem keep_execCounterLatchRead {s : State} (hm : 603979776 &&& M = 603979776) (h_s : Keep M s0 s) :
    KeepO M s0 (execCounterLatchRead s) := by
  unfold execCounterLatchRead
  repeat' first
    | (with_reducible first
      | assumption | apply KeepO.next | apply KeepO.ite | apply keep_fresh | apply keep_hostRead)
    | exact mask_sub hm rfl

theorem keep_execRecorderLatchRead {s : State} (hm : 603979776 &&& M = 603979776) (h_s : Keep M s0 s) :
    KeepO M s0 (execRecorderLatchRead s) := by
  unfold execRecorderLatchRead
  repeat' first
    | (with_reducible first
      | assumption | apply KeepO.next | apply KeepO.ite | apply keep_fresh | apply keep_hostRead)
    | exact mask_sub hm rfl

theorem keep_execErrorRingLatchRead {s : State} (hm : 603979776 &&& M = 603979776) (h_s : Keep M s0 s) :
    KeepO M s0 (execErrorRingLatchRead s) := by
  unfold execErrorRingLatchRead
  repeat' first
    | (with_reducible first
      | assumption | apply KeepO.next | apply KeepO.ite | apply keep_fresh | apply keep_hostRead)
    | exact mask_sub hm rfl

end Sys2Proof.Machine
end

