-- ==== Sys2Proof/Laws/KeepDeliver.lean ====
section
/-! SUPPORT. What the operations of Machine/Deliver.lean keep (`Keep`, Laws/Keep.lean): one lemma per operation. -/
namespace Sys2Proof.Machine

set_option linter.unusedSimpArgs false
set_option linter.unusedVariables false

variable {M : Nat} {s0 : State}

theorem keep_keepOut {s : State} {f : State → Host.Outcome State Fault Refusal} (ho : KeepO M s0 (f s)) (hm : 536870912 &&& M = 536870912) (h : Keep M s0 s) :
    Keep M s0 (keepOut f s) := by
  unfold keepOut
  dsimp only
  simp only [keep_mk]; apply Keep.upd (keep_stateOf ho h) <;> first | exact .inl (mask_bit hm rfl) | (with_reducible exact .inr rfl) | exact fun h => h | exact rfl

theorem keep_deliverItem {d : Nat} {sub : Nat} {serial : Nat} {item : Bytes} {s : State} (hm : 552416256 &&& M = 552416256) (h_s : Keep M s0 s) :
    Keep M s0 (deliverItem d sub serial item s) := by
  unfold deliverItem
  repeat' first
    | (with_reducible first
      | assumption | apply keep_malformedOn | apply keep_execTraceReadoutArrival | apply keep_execReserveReplyArrival | apply keep_execReserveArrival
      | apply keep_execScanImageArrival | apply keep_execHangDumpArrival | apply keep_execProbePackArrival | apply keep_execPackOutcomeArrival
      | apply keep_execRecorderMirrorArrival | apply keep_execAuditRecordArrival | apply keep_execAuditNodeArrival | apply keep_execBootRequestArrival
      | apply keep_execBootImageArrival | apply keep_keepOut | refine Keep.ofPair (by assumption) ?_ | refine Keep.ofTriple (by assumption) ?_)
    | ((simp only [keep_mk]; apply Keep.upd) <;> try first | exact .inl (mask_bit hm rfl) | exact .inr rfl | exact fun h => h | exact rfl)
    | exact mask_sub hm rfl | split

theorem keep_dropTransfer {d : Nat} {sub : Nat} {serial : Nat} {s : State} (hm : 1024 &&& M = 1024) (h_s : Keep M s0 s) :
    Keep M s0 (dropTransfer d sub serial s) := by
  unfold dropTransfer
  try dsimp only
  repeat' first
    | (with_reducible first
      | assumption | apply keep_setDoor)
    | ((simp only [keep_mk]; apply Keep.upd) <;> try first | exact .inl (mask_bit hm rfl) | exact .inr rfl | exact fun h => h | exact rfl)
    | exact mask_sub hm rfl | exact rfl | intro _ _ _ | intro _ _

theorem keep_takeBulk {d : Nat} {body : Bytes} {s : State} (hm : 552416256 &&& M = 552416256) (h_s : Keep M s0 s) :
    Keep M s0 (takeBulk d body s) := by
  unfold takeBulk
  try dsimp only
  repeat' first
    | (with_reducible first
      | assumption | apply Keep.ite | apply keep_setDoor | apply keep_malformedOn | apply keep_deliverItem | apply keep_dropTransfer
      | refine Keep.ofPair (by assumption) ?_ | refine Keep.ofTriple (by assumption) ?_)
    | ((simp only [keep_mk]; apply Keep.upd) <;> try first | exact .inl (mask_bit hm rfl) | exact .inr rfl | exact fun h => h | exact rfl)
    | exact mask_sub hm rfl | exact rfl | split | intro _ _ _ | intro _ _

theorem keep_deliverBody {d : Nat} {ty : Nat} {flags : Nat} {target : Word} {body : Bytes} {s : State} (hm : 2147483324 &&& M = 2147483324) (h_s : Keep M s0 s) :
    Keep M s0 (deliverBody d ty flags target body s) := by
  unfold deliverBody
  repeat' first
    | (with_reducible first
      | assumption | apply Keep.ite | apply keep_malformedOn | apply keep_execTriggerNoticeArrival | apply keep_execTraceMessageArrival
      | apply keep_execCutOutcomeReport | apply keep_execTimeFlitArrival | apply keep_execRecordAcknowledgement | apply keep_execErrorRecordMessage
      | apply keep_execContributionArrival | apply keep_execSummaryArrival | apply keep_execRootCheckArrival | apply keep_execRootParametersArrival
      | apply keep_execReturnedSummaryArrival | apply keep_execHelloArrival | apply keep_execCommandMessageArrival
      | apply keep_execReplyMessageArrival | apply keep_keepOut | apply keep_takeBulk | refine Keep.ofPair (by assumption) ?_
      | refine Keep.ofTriple (by assumption) ?_)
    | ((simp only [keep_mk]; apply Keep.upd) <;> try first | exact .inl (mask_bit hm rfl) | exact .inr rfl | exact fun h => h | exact rfl)
    | exact mask_sub hm rfl | split

theorem keep_deliverMessage {d : Nat} {kind : Nat} {m : Bytes} {s : State} (hm : 2147483324 &&& M = 2147483324) (h_s : Keep M s0 s) :
    Keep M s0 (deliverMessage d kind m s) := by
  unfold deliverMessage
  try dsimp only
  repeat' first
    | (with_reducible first
      | assumption | apply Keep.ite | apply keep_malformedOn | apply keep_deliverBody)
    | exact mask_sub hm rfl | split

theorem keep_abortMessage {d : Nat} {m : Bytes} {s : State} (hm : 537921052 &&& M = 537921052) (h_s : Keep M s0 s) :
    Keep M s0 (abortMessage d m s) := by
  unfold abortMessage
  repeat' first
    | (with_reducible first
      | assumption | apply Keep.ite | apply keep_execReturnedSummaryArrival | apply keep_keepOut)
    | exact mask_sub hm rfl | split

theorem keep_setGathered {d : Nat} {kind : Nat} {b : Option Bytes} {s : State} (hm : 1024 &&& M = 1024) (h_s : Keep M s0 s) :
    Keep M s0 (setGathered d kind b s) := by
  unfold setGathered
  repeat' first
    | (with_reducible first
      | assumption | apply keep_setDoor | refine Keep.ofPair (by assumption) ?_ | refine Keep.ofTriple (by assumption) ?_)
    | ((simp only [keep_mk]; apply Keep.upd) <;> try first | exact .inl (mask_bit hm rfl) | exact .inr rfl | exact fun h => h | exact rfl)
    | exact mask_sub hm rfl | exact rfl | split | intro _ _ _ | intro _ _

theorem keep_takePayload {d : Nat} {kind : Nat} {som : Bool} {eom : Bool} {abort : Bool} {payload : Bytes} {s : State} (hm : 2147483324 &&& M = 2147483324) (h_s : Keep M s0 s) :
    Keep M s0 (takePayload d kind som eom abort payload s) := by
  unfold takePayload
  try dsimp only
  repeat' first
    | (with_reducible first
      | assumption | apply Keep.ite | apply keep_malformedOn | apply keep_throughPart | apply keep_endThrough | apply keep_deliverMessage
      | apply keep_abortMessage | apply keep_setGathered)
    | exact mask_sub hm rfl | split

theorem keep_sendIdle {d : Nat} {s : State} (hm : 536871936 &&& M = 536871936) (h_s : Keep M s0 s) : Keep M s0 (sendIdle d s) := by
  unfold sendIdle
  repeat' first | (with_reducible first | assumption | apply keep_emitFlit) | exact mask_sub hm rfl

theorem keep_takeFlit {d : Nat} {h : Nat} {payload : Bytes} {s : State} (hm : 2147483324 &&& M = 2147483324) (h_s : Keep M s0 s) :
    Keep M s0 (takeFlit d h payload s) := by
  unfold takeFlit
  try dsimp only
  repeat' first
    | (with_reducible first
      | assumption | apply Keep.ite | apply keep_setDoor | apply keep_takePayload | apply keep_sendIdle)
    | ((simp only [keep_mk]; apply Keep.upd) <;> try first | exact .inl (mask_bit hm rfl) | exact .inr rfl | exact fun h => h | exact rfl)
    | exact mask_sub hm rfl | exact rfl | split | intro _ _ _ | intro _ _

theorem keep_takeHead {d : Nat} {h : Nat} {s : State} (hm : 1880212992 &&& M = 1880212992) (h_s : Keep M s0 s) :
    Keep M s0 (takeHead d h s) := by
  unfold takeHead
  try dsimp only
  repeat' first
    | (with_reducible first
      | assumption | apply Keep.ite | apply keep_pump | apply keep_takeAck | apply keep_replay | apply keep_endDrops)
    | exact mask_sub hm rfl | split

theorem keep_receiveFlit {d : Nat} {flit : Bytes} {s : State} (hm : 2147483324 &&& M = 2147483324) (h_s : Keep M s0 s) :
    Keep M s0 (receiveFlit d flit s) := by
  unfold receiveFlit
  try dsimp only
  repeat' first
    | (with_reducible first
      | assumption | apply Keep.ite | apply keep_setDoor | apply keep_cageCount | apply keep_malformedOn | apply keep_deliverMessage
      | apply keep_sendIdle | apply keep_takeFlit | apply keep_takeHead)
    | ((simp only [keep_mk]; apply Keep.upd) <;> try first | exact .inl (mask_bit hm rfl) | exact .inr rfl | exact fun h => h | exact rfl)
    | exact mask_sub hm rfl | exact rfl | split | intro _ _ _ | intro _ _

theorem keep_execFlitReceive {after : Nat} {door : Nat} {flit : Bytes} {s : State} (hm : 2147483324 &&& M = 2147483324) (h_s : Keep M s0 s) :
    KeepO M s0 (execFlitReceive after door flit s) := by
  unfold execFlitReceive
  try dsimp only
  repeat' first
    | (with_reducible first
      | assumption | apply Keep.ite | apply KeepO.next | apply KeepO.ite | apply keep_begin_ | apply keep_receiveFlit)
    | exact mask_sub hm rfl | split

end Sys2Proof.Machine
end

