-- ==== Sys2Proof/Laws/KeepTick.lean ====
section
/-! SUPPORT. What the operations of Machine/Tick.lean keep (`Keep`, Laws/Keep.lean): one lemma per operation. -/
namespace Sys2Proof.Machine

set_option linter.unusedSimpArgs false
set_option linter.unusedVariables false

variable {M : Nat} {s0 : State}

theorem keep_applyChange {n : Nat} {c : Change} {s : State} (hm : 2029518572 &&& M = 2029518572) (h_s : Keep M s0 s) :
    Keep M s0 (applyChange n c s) := by
  unfold applyChange
  try dsimp only
  repeat' first
    | (with_reducible first
      | assumption | apply keep_setPend | apply keep_applyTrace | apply keep_trcSet | apply keep_clearCounters | apply keep_setEnable
      | apply keep_activateTrim | apply keep_ctrClear | apply keep_setSht | apply keep_activateCatalogue | apply keep_activateTable
      | apply keep_plnReset | apply keep_activateModel | apply keep_deactivateModel | apply keep_setStraggler | apply keep_setMode
      | apply keep_glenActivate | apply keep_glenDeactivate | apply keep_setPrb | apply keep_activatePack | apply keep_clearCoverage
      | apply keep_tileOn | apply keep_probeSet | apply keep_setAud | apply keep_startAudit | apply keep_handOver | apply keep_swapDieBoot
      | apply keep_applyDoor | apply keep_applyPwr | apply keep_wptSet | apply keep_applyWatch | refine Keep.ofPair (by assumption) ?_
      | refine Keep.ofTriple (by assumption) ?_)
    | ((simp only [keep_mk]; apply Keep.upd) <;> try first | exact .inl (mask_bit hm rfl) | exact .inr rfl | exact fun h => h | exact rfl)
    | exact mask_sub hm rfl | exact rfl | split | intro _ _ _ | intro _ _

theorem keep_applyDue {pick : Pend → Bool} {n : Nat} {s : State} (hm : 2029518572 &&& M = 2029518572) (h_s : Keep M s0 s) :
    Keep M s0 (applyDue pick n s) := by
  unfold applyDue
  try dsimp only
  repeat' first
    | (with_reducible first
      | assumption | apply keep_applyChange | apply Keep.foldl | apply Keep.foldlP)
    | ((simp only [keep_mk]; apply Keep.upd) <;> try first | exact .inl (mask_bit hm rfl) | exact .inr rfl | exact fun h => h | exact rfl | exact fun h => PendDistinct.filter h _)
    | exact mask_sub hm rfl | exact rfl | intro _ _ _ | intro _ _

theorem keep_abandonOld {n : Nat} {d : Nat} {s : State} (hm : 536871936 &&& M = 536871936) (h_s : Keep M s0 s) :
    Keep M s0 (abandonOld n d s) := by
  unfold abandonOld
  try dsimp only
  repeat' first
    | (with_reducible first
      | assumption | apply Keep.ite | apply keep_setDoor | apply keep_pump | refine Keep.ofPair (by assumption) ?_
      | refine Keep.ofTriple (by assumption) ?_)
    | ((simp only [keep_mk]; apply Keep.upd) <;> try first | exact .inl (mask_bit hm rfl) | exact .inr rfl | exact fun h => h | exact rfl)
    | exact mask_sub hm rfl | exact rfl | split | intro _ _ _ | intro _ _

theorem keep_afterRelease {s : State} (hm : 331776 &&& M = 331776) (h_s : Keep M s0 s) : Keep M s0 (afterRelease s) := by
  unfold afterRelease
  try dsimp only
  repeat' first
    | (with_reducible first
      | assumption | apply Keep.ite | apply keep_syncAll | apply keep_setSht | apply keep_hangCount | apply keep_enterMode)
    | ((simp only [keep_mk]; apply Keep.upd) <;> try first | exact .inl (mask_bit hm rfl) | exact .inr rfl | exact fun h => h | exact rfl)
    | exact mask_sub hm rfl | exact rfl | split | intro _ _ _ | intro _ _

theorem keep_collectTick {n : Nat} {s : State} (hm : 512 &&& M = 512) (h_s : Keep M s0 s) : Keep M s0 (collectTick n s) := by
  unfold collectTick
  try dsimp only
  repeat' first
    | (with_reducible first
      | assumption | apply Keep.ite | apply keep_openCollection)
    | ((simp only [keep_mk]; apply Keep.upd) <;> try first | exact .inl (mask_bit hm rfl) | exact .inr rfl | exact fun h => h | exact rfl)
    | exact mask_sub hm rfl | exact rfl | split

theorem keep_enterFrame {n : Nat} {t : Nat} {s : State} (hm : 4104 &&& M = 4104) (h_s : Keep M s0 s) : Keep M s0 (enterFrame n t s) := by
  unfold enterFrame
  try dsimp only
  repeat' first
    | (with_reducible first
      | assumption | apply keep_snapshot)
    | ((simp only [keep_mk]; apply Keep.upd) <;> try first | exact .inl (mask_bit hm rfl) | exact .inr rfl | exact fun h => h | exact rfl)
    | exact mask_sub hm rfl | exact rfl

theorem keep_openReturn {n : Nat} {s : State} (hm : 8 &&& M = 8) (h_s : Keep M s0 s) : Keep M s0 (openReturn n s) := by
  unfold openReturn
  try dsimp only
  repeat' first
    | (with_reducible first
      | assumption)
    | ((simp only [keep_mk]; apply Keep.upd) <;> try first | exact .inl (mask_bit hm rfl) | exact .inr rfl | exact fun h => h | exact rfl) | exact rfl
    | intro _ _ _ | intro _ _

theorem keep_countFrame {s : State} (hm : 131072 &&& M = 131072) (h_s : Keep M s0 s) : Keep M s0 (countFrame s) := by
  unfold countFrame
  repeat' first
    | (with_reducible first
      | assumption)
    | ((simp only [keep_mk]; apply Keep.upd) <;> try first | exact .inl (mask_bit hm rfl) | exact .inr rfl | exact fun h => h | exact rfl) | exact rfl
    | intro _ _ _ | intro _ _

theorem keep_countTrial {s : State} (hm : 8388608 &&& M = 8388608) (h_s : Keep M s0 s) : Keep M s0 (countTrial s) := by
  unfold countTrial
  repeat' first
    | (with_reducible first
      | assumption)
    | ((simp only [keep_mk]; apply Keep.upd) <;> try first | exact .inl (mask_bit hm rfl) | exact .inr rfl | exact fun h => h | exact rfl) | exact rfl

theorem keep_latchStatus {s : State} (hm : 8 &&& M = 8) (h_s : Keep M s0 s) : Keep M s0 (latchStatus s) := by
  unfold latchStatus
  repeat' first
    | (with_reducible first
      | assumption)
    | ((simp only [keep_mk]; apply Keep.upd) <;> try first | exact .inl (mask_bit hm rfl) | exact .inr rfl | exact fun h => h | exact rfl) | exact rfl

theorem keep_beginFrame {n : Nat} {t : Nat} {s : State} (hm : 2030042876 &&& M = 2030042876) (h_s : Keep M s0 s) :
    Keep M s0 (beginFrame n t s) := by
  unfold beginFrame
  try dsimp only
  repeat' first
    | (with_reducible first
      | assumption | apply keep_snapshot | apply keep_streamsAtTick | apply keep_drainEvents | apply keep_sensorsAtTick | apply keep_hubModelReady
      | apply keep_stepAtTick | apply keep_dumpAtTick | apply keep_auditAtTick | apply keep_tailAtTick | apply keep_applyDue | apply keep_abandonOld
      | apply keep_afterRelease | apply keep_collectTick | apply keep_enterFrame | apply keep_openReturn | apply keep_countFrame
      | apply keep_countTrial | apply keep_latchStatus | apply Keep.foldl | apply Keep.foldlP)
    | exact mask_sub hm rfl | intro _ _ _ | intro _ _

theorem keep_takeParams {cur : FrameParams} {pend : Option FrameParams} {s : State} (hm : 8 &&& M = 8) (h_s : Keep M s0 s) :
    Keep M s0 (takeParams cur pend s) := by
  unfold takeParams
  repeat' first
    | (with_reducible first
      | assumption)
    | ((simp only [keep_mk]; apply Keep.upd) <;> try first | exact .inl (mask_bit hm rfl) | exact .inr rfl | exact fun h => h | exact rfl | exact fun h => PendDistinct.filter h _)
    | exact rfl

theorem keep_adoptAt {cur : FrameParams} {pend : Option FrameParams} {t : Nat} {s : State} (hm : 2097151740 &&& M = 2097151740) (h_s : Keep M s0 s) :
    Keep M s0 (adoptAt cur pend t s) := by
  unfold adoptAt
  try dsimp only
  repeat' first
    | (with_reducible first
      | assumption | apply Keep.ite | apply keep_probesAtTick | apply keep_beginFrame | apply keep_takeParams)
    | exact mask_sub hm rfl | split

theorem keep_dropTrayCatalogues {s : State} (hm : 134217920 &&& M = 134217920) (h_s : Keep M s0 s) : Keep M s0 (dropTrayCatalogues s) := by
  unfold dropTrayCatalogues
  repeat' first
    | (with_reducible first
      | assumption)
    | ((simp only [keep_mk]; apply Keep.upd) <;> try first | exact .inl (mask_bit hm rfl) | exact .inr rfl | exact fun h => h | exact rfl | exact fun h => PendDistinct.filter h _)
    | exact rfl

theorem keep_switchAt {q : FrameParams} {n : Nat} {t : Nat} {s : State} (hm : 2097151740 &&& M = 2097151740) (h_s : Keep M s0 s) :
    Keep M s0 (switchAt q n t s) := by
  unfold switchAt
  try dsimp only
  repeat' first
    | (with_reducible first
      | assumption | apply Keep.ite | apply keep_sendRootParams | apply keep_probesAtTick | apply keep_beginFrame | apply keep_takeParams
      | apply keep_adoptAt | apply keep_dropTrayCatalogues | refine Keep.ofPair (by assumption) ?_ | refine Keep.ofTriple (by assumption) ?_)
    | ((simp only [keep_mk]; apply Keep.upd) <;> try first | exact .inl (mask_bit hm rfl) | exact .inr rfl | exact fun h => h | exact rfl | exact fun h => PendDistinct.filter h _)
    | exact mask_sub hm rfl | exact rfl | split

theorem keep_execTick {s : State} (hm : 2097151740 &&& M = 2097151740) (h_s : Keep M s0 s) : KeepO M s0 (execTick s) := by
  unfold execTick
  try dsimp only
  repeat' first
    | (with_reducible first
      | assumption | apply Keep.ite | apply KeepO.next | apply KeepO.ite | apply keep_fresh | apply keep_advanceTo | apply keep_probesAtTick
      | apply keep_beginFrame | apply keep_adoptAt | apply keep_switchAt | refine Keep.ofPair (by assumption) ?_
      | refine Keep.ofTriple (by assumption) ?_)
    | ((simp only [keep_mk]; apply Keep.upd) <;> try first | exact .inl (mask_bit hm rfl) | exact .inr rfl | exact fun h => h | exact rfl | exact fun h => PendDistinct.filter h _)
    | exact mask_sub hm rfl | split

end Sys2Proof.Machine
end

