-- ==== Sys2Proof/Laws/KeepDispatch.lean ====
section
/-! SUPPORT. What the operations of Machine/Dispatch.lean keep (`Keep`, Laws/Keep.lean): one lemma per operation. -/
namespace Sys2Proof.Machine

set_option linter.unusedSimpArgs false
set_option linter.unusedVariables false

variable {M : Nat} {s0 : State}

/-- The mask of a list of parts. -/
def maskOf (l : List Part) : Nat := l.foldl (fun m p => m ||| 2 ^ p.pos) 0

theorem Part.pos_inj : (p q : Part) → p.pos = q.pos → p = q := by
  intro p q
  cases p <;> cases q <;> first | exact fun _ => rfl | exact fun h => absurd h (by decide)

theorem testBit_maskOf (l : List Part) (p : Part) : (maskOf l).testBit p.pos = decide (p ∈ l) := by
  have key : ∀ (l : List Part) (m : Nat), (l.foldl (fun m p => m ||| 2 ^ p.pos) m).testBit p.pos = (m.testBit p.pos || decide (p ∈ l)) := by
    intro l
    induction l with
    | nil => simp
    | cons q l ih =>
      intro m
      have e : (q.pos = p.pos) ↔ p = q := ⟨fun h => (Part.pos_inj q p h).symm, fun h => h ▸ rfl⟩
      simp [ih, Nat.testBit_or, Nat.testBit_two_pow, e, Bool.or_assoc]
  simp [maskOf, key]

/-- A part that is not in the list of a command's parts has one value before and after. -/
theorem Keep.part {l : List Part} {s t : State} (h : Keep (maskOf l) s t) (p : Part) (e : p ∉ l) : p.same s t :=
  h.same.part p (by simp [testBit_maskOf, e])

theorem mask_writes {f : Nat} {i : Instr} {l : List Part} (e : writes i = l) (h : f &&& maskOf l = f) : f &&& maskOf (writes i) = f := by
  rw [e]; exact h

/-- Every command keeps what `Keep` says, and writes no part outside its list. -/
theorem keep_exec {s : State} : (i : Instr) → KeepO (maskOf (writes i)) s (exec i s)
  | .supplyValid .. => keep_execSupplyValid (mask_writes (l := [.pwr, .out]) rfl rfl) (Keep.refl s)
  | .externalBlockReset => keep_execExternalBlockReset (mask_writes (l := allParts) rfl rfl) (Keep.refl s)
  | .sramUncorrectableError .. => keep_execSramUncorrectableError (mask_writes (l := allParts) rfl rfl) (Keep.refl s)
  | .watchdogExpiry => keep_execWatchdogExpiry (mask_writes (l := allParts) rfl rfl) (Keep.refl s)
  | .leaveReset .. => keep_execLeaveReset (mask_writes (l := [.cfg, .pwr, .time, .win, .net, .prb, .err, .exp, .trc, .wpt, .sht, .evr, .mem, .sec, .out]) rfl rfl) (Keep.refl s)
  | .ready => keep_execReady (mask_writes (l := [.pwr, .hub, .net, .out]) rfl rfl) (Keep.refl s)
  | .selfTestComplete .. => keep_execSelfTestComplete (mask_writes (l := [.net, .sec, .host, .out]) rfl rfl) (Keep.refl s)
  | .entropyTestFailure => keep_execEntropyTestFailure (mask_writes (l := [.net, .sec, .host, .out]) rfl rfl) (Keep.refl s)
  | .firmwareBoot => keep_execFirmwareBoot (mask_writes (l := allParts.filter (! [.cfg, .cats, .work, .aud].contains ·)) rfl rfl) (Keep.refl s)
  | .hourCounterExpiry => keep_execHourCounterExpiry (mask_writes (l := [.pwr, .time, .evr, .out]) rfl rfl) (Keep.refl s)
  | .tick => keep_execTick (mask_writes (l := allParts.filter (! [.cfg, .work, .asm, .queueHigh].contains ·)) rfl rfl) (Keep.refl s)
  | .startUpSpanElapsed => keep_execStartUpSpanElapsed (mask_writes (l := [.glen, .out]) rfl rfl) (Keep.refl s)
  | .recoverySpanElapsed => keep_execRecoverySpanElapsed (mask_writes (l := [.glen, .out]) rfl rfl) (Keep.refl s)
  | .sampledValue .. => keep_execSampledValue (mask_writes (l := [.frame, .win, .evr, .out]) rfl rfl) (Keep.refl s)
  | .sampleLate .. => keep_execSampleLate (mask_writes (l := [.pwr, .frame, .time, .win, .evr, .out]) rfl rfl) (Keep.refl s)
  | .snapshotSwap => keep_execSnapshotSwap (mask_writes (l := [.pwr, .frame, .time, .win, .fea, .sht, .evr, .pend, .out]) rfl rfl) (Keep.refl s)
  | .trackerUpdateEnd => keep_execTrackerUpdateEnd (mask_writes (l := [.pwr, .frame, .time, .work, .glen, .evr, .out, .free]) rfl rfl) (Keep.refl s)
  | .entityEvaluated .. => keep_execEntityEvaluated (mask_writes (l := [.pwr, .frame, .time, .glen, .evr, .out]) rfl rfl) (Keep.refl s)
  | .sendCutoff => keep_execSendCutoff (mask_writes (l := [.pwr, .frame, .time, .work, .net, .glen, .evr, .out]) rfl rfl) (Keep.refl s)
  | .contributionArrival .. => keep_execContributionArrival (mask_writes (l := [.pwr, .time, .hub, .net, .err, .exp, .evr, .out]) rfl rfl) (Keep.refl s)
  | .summaryArrival .. => keep_execSummaryArrival (mask_writes (l := [.pwr, .time, .hub, .net, .err, .exp, .evr, .out]) rfl rfl) (Keep.refl s)
  | .passItemBegin .. => keep_execPassItemBegin (mask_writes (l := [.hub, .out]) rfl rfl) (Keep.refl s)
  | .passItemApplied .. => keep_execPassItemApplied (mask_writes (l := [.hub, .net, .err, .exp, .out]) rfl rfl) (Keep.refl s)
  | .inputClose => keep_execInputClose (mask_writes (l := [.pwr, .time, .hub, .net, .err, .exp, .evr, .out]) rfl rfl) (Keep.refl s)
  | .hubMark => keep_execHubMark (mask_writes (l := [.pwr, .time, .hub, .net, .err, .exp, .evr, .out]) rfl rfl) (Keep.refl s)
  | .rootMark => keep_execRootMark (mask_writes (l := [.pwr, .time, .hub, .net, .err, .exp, .evr, .out]) rfl rfl) (Keep.refl s)
  | .rootCheckArrival .. => keep_execRootCheckArrival (mask_writes (l := [.pwr, .time, .hub, .net, .evr, .out]) rfl rfl) (Keep.refl s)
  | .rootParametersArrival .. => keep_execRootParametersArrival (mask_writes (l := [.pwr, .frame, .time, .net, .evr, .out]) rfl rfl) (Keep.refl s)
  | .podSelectPoint => keep_execPodSelectPoint (mask_writes (l := [.pwr, .time, .hub, .net, .evr, .out]) rfl rfl) (Keep.refl s)
  | .traySelectPoint => keep_execTraySelectPoint (mask_writes (l := [.pwr, .time, .hub, .net, .evr, .out]) rfl rfl) (Keep.refl s)
  | .returnedSummaryArrival .. => keep_execReturnedSummaryArrival (mask_writes (l := [.pwr, .frame, .time, .hub, .net, .evr, .out]) rfl rfl) (Keep.refl s)
  | .returnMark => keep_execReturnMark (mask_writes (l := [.pwr, .frame, .time, .net, .glen, .prb, .exp, .evr, .out]) rfl rfl) (Keep.refl s)
  | .returnClose => keep_execReturnClose (mask_writes (l := [.pwr, .frame, .time, .evr, .out]) rfl rfl) (Keep.refl s)
  | .exchangeInterval .. => keep_execExchangeInterval (mask_writes (l := [.pwr, .time, .net, .evr, .out]) rfl rfl) (Keep.refl s)
  | .timeFlitArrival .. => keep_execTimeFlitArrival (mask_writes (l := [.pwr, .time, .net, .evr, .out]) rfl rfl) (Keep.refl s)
  | .filterPeriodEnd => keep_execFilterPeriodEnd (mask_writes (l := [.time, .hub, .net, .glen, .prb, .trc, .sht, .evr, .out, .free]) rfl rfl) (Keep.refl s)
  | .holdoverEntry => keep_execHoldoverEntry (mask_writes (l := [.time, .evr, .out]) rfl rfl) (Keep.refl s)
  | .holdoverLimitExceeded => keep_execHoldoverLimitExceeded (mask_writes (l := [.pwr, .time, .evr, .out]) rfl rfl) (Keep.refl s)
  | .secondaryOwnSource => keep_execSecondaryOwnSource (mask_writes (l := [.pwr, .time, .evr, .out]) rfl rfl) (Keep.refl s)
  | .ptpMessage .. => keep_execPtpMessage (mask_writes (l := [.pwr, .time, .evr, .out]) rfl rfl) (Keep.refl s)
  | .delayReq .. => keep_execDelayReq (mask_writes (l := [.pwr, .time, .evr, .out]) rfl rfl) (Keep.refl s)
  | .ptpSyncLoss => keep_execPtpSyncLoss (mask_writes (l := [.time, .evr, .out]) rfl rfl) (Keep.refl s)
  | .ppsEdge .. => keep_execPpsEdge (mask_writes (l := [.pwr, .time, .evr, .out]) rfl rfl) (Keep.refl s)
  | .incrementWord .. => keep_execIncrementWord (mask_writes (l := [.win, .evr, .out]) rfl rfl) (Keep.refl s)
  | .windowEvent .. => keep_execWindowEvent (mask_writes (l := [.pwr, .time, .win, .hub, .trc, .evr, .out, .free]) rfl rfl) (Keep.refl s)
  | .eventService => keep_execEventService (mask_writes (l := [.pwr, .time, .win, .net, .err, .exp, .evr, .out]) rfl rfl) (Keep.refl s)
  | .stretchEpisodeEnd .. => keep_execStretchEpisodeEnd (mask_writes (l := [.pwr, .time, .win, .hub, .trc, .evr, .out, .free]) rfl rfl) (Keep.refl s)
  | .sensorConversionRequest .. => keep_execSensorConversionRequest (mask_writes (l := [.win, .out]) rfl rfl) (Keep.refl s)
  | .sensorAnswer .. => keep_execSensorAnswer (mask_writes (l := [.frame, .win, .hub, .net, .prb, .err, .exp, .trc, .sec, .host, .out, .free]) rfl rfl) (Keep.refl s)
  | .sensorRequestTimeout .. => keep_execSensorRequestTimeout (mask_writes (l := [.win, .out]) rfl rfl) (Keep.refl s)
  | .flitReceive .. => keep_execFlitReceive (mask_writes (l := allParts.filter (! [.cfg, .cats, .work].contains ·)) rfl rfl) (Keep.refl s)
  | .replayTimeout .. => keep_execReplayTimeout (mask_writes (l := [.hub, .net, .err, .exp, .evr, .pnl, .out]) rfl rfl) (Keep.refl s)
  | .laneLockLoss .. => keep_execLaneLockLoss (mask_writes (l := [.hub, .net, .err, .exp, .evr, .pnl, .out]) rfl rfl) (Keep.refl s)
  | .laneRetire .. => keep_execLaneRetire (mask_writes (l := [.hub, .net, .err, .exp, .evr, .pnl, .out]) rfl rfl) (Keep.refl s)
  | .trainingAttemptTimeout .. => keep_execTrainingAttemptTimeout (mask_writes (l := [.net, .out]) rfl rfl) (Keep.refl s)
  | .quarantineEnd .. => keep_execQuarantineEnd (mask_writes (l := [.pwr, .time, .hub, .net, .evr, .out]) rfl rfl) (Keep.refl s)
  | .helloArrival .. => keep_execHelloArrival (mask_writes (l := [.pwr, .time, .hub, .net, .prb, .err, .exp, .sht, .evr, .pnl, .out, .free]) rfl rfl) (Keep.refl s)
  | .commandMessageArrival .. => keep_execCommandMessageArrival (mask_writes (l := allParts.filter (! [.cfg, .cats, .work, .aud].contains ·)) rfl rfl) (Keep.refl s)
  | .replyMessageArrival .. => keep_execReplyMessageArrival (mask_writes (l := [.net, .out]) rfl rfl) (Keep.refl s)
  | .commandHoldTimeout => keep_execCommandHoldTimeout (mask_writes (l := [.pwr, .time, .net, .evr, .out]) rfl rfl) (Keep.refl s)
  | .returnTagExpiry .. => keep_execReturnTagExpiry (mask_writes (l := [.pwr, .time, .net, .evr, .out]) rfl rfl) (Keep.refl s)
  | .managementDatagram .. => keep_execManagementDatagram (mask_writes (l := allParts.filter (! [.cfg, .cats, .work, .aud].contains ·)) rfl rfl) (Keep.refl s)
  | .fragmentReassemblyTimeout .. => keep_execFragmentReassemblyTimeout (mask_writes (l := [.pwr, .time, .net, .evr, .out]) rfl rfl) (Keep.refl s)
  | .icmpv6Message .. => keep_execIcmpv6Message (mask_writes (l := [.net, .out]) rfl rfl) (Keep.refl s)
  | .errorRecordMessage .. => keep_execErrorRecordMessage (mask_writes (l := [.net, .err, .exp, .out]) rfl rfl) (Keep.refl s)
  | .recordAcknowledgement .. => keep_execRecordAcknowledgement (mask_writes (l := [.net, .err, .out]) rfl rfl) (Keep.refl s)
  | .errorEntrySend => keep_execErrorEntrySend (mask_writes (l := [.net, .err, .out]) rfl rfl) (Keep.refl s)
  | .exportPeriodEnd => keep_execExportPeriodEnd (mask_writes (l := [.net, .exp, .out]) rfl rfl) (Keep.refl s)
  | .traceBundle .. => keep_execTraceBundle (mask_writes (l := [.hub, .trc, .out, .free]) rfl rfl) (Keep.refl s)
  | .lowPowerEntry .. => keep_execLowPowerEntry (mask_writes (l := [.hub, .trc, .out, .free]) rfl rfl) (Keep.refl s)
  | .lowPowerExit .. => keep_execLowPowerExit (mask_writes (l := [.hub, .trc, .out, .free]) rfl rfl) (Keep.refl s)
  | .timeIntervalElapse .. => keep_execTimeIntervalElapse (mask_writes (l := [.pwr, .time, .hub, .trc, .evr, .out, .free]) rfl rfl) (Keep.refl s)
  | .chunkFlushTime .. => keep_execChunkFlushTime (mask_writes (l := [.pwr, .time, .trc, .evr, .out]) rfl rfl) (Keep.refl s)
  | .traceChunkSend => keep_execTraceChunkSend (mask_writes (l := [.net, .trc, .out]) rfl rfl) (Keep.refl s)
  | .traceMessageArrival .. => keep_execTraceMessageArrival (mask_writes (l := [.pwr, .time, .hub, .net, .trc, .evr, .out]) rfl rfl) (Keep.refl s)
  | .triggerNoticeArrival .. => keep_execTriggerNoticeArrival (mask_writes (l := [.pwr, .time, .net, .trc, .evr, .out]) rfl rfl) (Keep.refl s)
  | .stopInstant => keep_execStopInstant (mask_writes (l := [.pwr, .time, .hub, .trc, .evr, .out, .free]) rfl rfl) (Keep.refl s)
  | .trayTriggerAtTime => keep_execTrayTriggerAtTime (mask_writes (l := [.pwr, .time, .trc, .evr, .out]) rfl rfl) (Keep.refl s)
  | .watchpointAccess .. => keep_execWatchpointAccess (mask_writes (l := [.pwr, .time, .win, .hub, .net, .glen, .prb, .trc, .wpt, .sht, .evr, .out, .free]) rfl rfl) (Keep.refl s)
  | .watchedReadData .. => keep_execWatchedReadData (mask_writes (l := [.wpt, .out, .free]) rfl rfl) (Keep.refl s)
  | .captureExpiry => keep_execCaptureExpiry (mask_writes (l := [.wpt, .out]) rfl rfl) (Keep.refl s)
  | .probeSchedulerPass .. => keep_execProbeSchedulerPass (mask_writes (l := [.pwr, .time, .prb, .evr, .out]) rfl rfl) (Keep.refl s)
  | .probeDone .. => keep_execProbeDone (mask_writes (l := [.pwr, .frame, .time, .hub, .net, .prb, .err, .exp, .trc, .evr, .sec, .host, .out, .free]) rfl rfl) (Keep.refl s)
  | .probeDurationExpiry .. => keep_execProbeDurationExpiry (mask_writes (l := [.pwr, .time, .prb, .evr, .out]) rfl rfl) (Keep.refl s)
  | .probeAbortTimeout .. => keep_execProbeAbortTimeout (mask_writes (l := [.pwr, .frame, .time, .hub, .net, .prb, .err, .exp, .trc, .evr, .sec, .host, .out, .free]) rfl rfl) (Keep.refl s)
  | .retestLimitExpiry .. => keep_execRetestLimitExpiry (mask_writes (l := [.net, .prb, .err, .exp, .out]) rfl rfl) (Keep.refl s)
  | .probeStarved .. => keep_execProbeStarved (mask_writes (l := [.net, .prb, .err, .exp, .out]) rfl rfl) (Keep.refl s)
  | .passingRecordDrop => keep_execPassingRecordDrop (mask_writes (l := [.frame, .prb, .out]) rfl rfl) (Keep.refl s)
  | .probeRunTimeout .. => keep_execProbeRunTimeout (mask_writes (l := [.net, .prb, .sec, .host, .out]) rfl rfl) (Keep.refl s)
  | .probePackArrival .. => keep_execProbePackArrival (mask_writes (l := [.net, .prb, .cdc, .out]) rfl rfl) (Keep.refl s)
  | .packOutcomeArrival .. => keep_execPackOutcomeArrival (mask_writes (l := [.net, .prb, .out]) rfl rfl) (Keep.refl s)
  | .scanImageArrival _ n _ => keep_execScanImageArrival (_serial := n) (mask_writes (l := [.net, .sht, .out]) rfl rfl) (Keep.refl s)
  | .hangDumpArrival _ n _ => keep_execHangDumpArrival (_serial := n) (mask_writes (l := [.net, .sht, .out]) rfl rfl) (Keep.refl s)
  | .reserveArrival .. => keep_execReserveArrival (mask_writes (l := [.net, .sht, .out]) rfl rfl) (Keep.refl s)
  | .reserveReplyArrival .. => keep_execReserveReplyArrival (mask_writes (l := [.net, .glen, .sht, .out]) rfl rfl) (Keep.refl s)
  | .traceReadoutArrival .. => keep_execTraceReadoutArrival (mask_writes (l := [.trc, .out]) rfl rfl) (Keep.refl s)
  | .recorderMirrorArrival .. => keep_execRecorderMirrorArrival (mask_writes (l := [.net, .mem, .out]) rfl rfl) (Keep.refl s)
  | .mirrorEntrySend => keep_execMirrorEntrySend (mask_writes (l := [.net, .evr, .out]) rfl rfl) (Keep.refl s)
  | .auditRecordArrival .. => keep_execAuditRecordArrival (mask_writes (l := [.net, .aud, .out]) rfl rfl) (Keep.refl s)
  | .auditNodeArrival .. => keep_execAuditNodeArrival (mask_writes (l := [.net, .aud, .out]) rfl rfl) (Keep.refl s)
  | .auditClose .. => keep_execAuditClose (mask_writes (l := [.net, .aud, .out]) rfl rfl) (Keep.refl s)
  | .auditTransfer .. => keep_execAuditTransfer (mask_writes (l := [.aud, .out]) rfl rfl) (Keep.refl s)
  | .auditLoss .. => keep_execAuditLoss (mask_writes (l := [.aud, .out]) rfl rfl) (Keep.refl s)
  | .bootRequestArrival .. => keep_execBootRequestArrival (mask_writes (l := [.net, .out]) rfl rfl) (Keep.refl s)
  | .bootImageArrival .. => keep_execBootImageArrival (mask_writes (l := [.mem, .sec, .out]) rfl rfl) (Keep.refl s)
  | .trialEnd => keep_execTrialEnd (mask_writes (l := [.sec, .out]) rfl rfl) (Keep.refl s)
  | .cutArrival .. => keep_execCutArrival (mask_writes (l := [.pwr, .time, .net, .glen, .sht, .evr, .out]) rfl rfl) (Keep.refl s)
  | .cutOutcomeReport .. => keep_execCutOutcomeReport (mask_writes (l := [.net, .sht, .out]) rfl rfl) (Keep.refl s)
  | .timedStopInstant => keep_execTimedStopInstant (mask_writes (l := [.pwr, .time, .hub, .net, .glen, .prb, .trc, .sht, .evr, .out, .free]) rfl rfl) (Keep.refl s)
  | .regionStopAck .. => keep_execRegionStopAck (mask_writes (l := [.net, .glen, .sht, .out]) rfl rfl) (Keep.refl s)
  | .regionAckTimeout .. => keep_execRegionAckTimeout (mask_writes (l := [.pwr, .time, .net, .glen, .sht, .evr, .out]) rfl rfl) (Keep.refl s)
  | .channelClosed .. => keep_execChannelClosed (mask_writes (l := [.net, .glen, .sht, .out]) rfl rfl) (Keep.refl s)
  | .scanEnd .. => keep_execScanEnd (mask_writes (l := [.net, .glen, .sht, .cdc, .out]) rfl rfl) (Keep.refl s)
  | .resumeInstant => keep_execResumeInstant (mask_writes (l := [.pwr, .time, .glen, .sht, .evr, .out]) rfl rfl) (Keep.refl s)
  | .regionResetPulse .. => keep_execRegionResetPulse (mask_writes (l := [.sht, .out]) rfl rfl) (Keep.refl s)
  | .hangDeclared => keep_execHangDeclared (mask_writes (l := [.hub, .net, .glen, .prb, .trc, .sht, .evr, .out, .free]) rfl rfl) (Keep.refl s)
  | .codecBlock => keep_execCodecBlock (mask_writes (l := [.net, .prb, .sht, .cdc, .sec, .host, .pend, .out]) rfl rfl) (Keep.refl s)
  | .recorderWrite => keep_execRecorderWrite (mask_writes (l := [.pwr, .time, .evr, .mem, .out]) rfl rfl) (Keep.refl s)
  | .recorderClearDone => keep_execRecorderClearDone (mask_writes (l := [.pwr, .time, .evr, .mem, .out]) rfl rfl) (Keep.refl s)
  | .partialLogFlush => keep_execPartialLogFlush (mask_writes (l := [.evr, .mem, .out]) rfl rfl) (Keep.refl s)
  | .storageCompletion .. => keep_execStorageCompletion (mask_writes (l := [.mem, .out]) rfl rfl) (Keep.refl s)
  | .storeCompletion .. => keep_execStoreCompletion (mask_writes (l := [.hub, .net, .err, .exp, .trc, .out, .free]) rfl rfl) (Keep.refl s)
  | .storeReadyChange .. => keep_execStoreReadyChange (mask_writes (l := [.net, .err, .exp, .mem, .out]) rfl rfl) (Keep.refl s)
  | .patrolScrub .. => keep_execPatrolScrub (mask_writes (l := [.net, .err, .exp, .mem, .out]) rfl rfl) (Keep.refl s)
  | .bankChangeComplete .. => keep_execBankChangeComplete (mask_writes (l := [.net, .glen, .trc, .wpt, .evr, .mem, .sec, .asm, .host, .out]) rfl rfl) (Keep.refl s)
  | .panelInputAccepted .. => keep_execPanelInputAccepted (mask_writes (l := [.pnl, .out]) rfl rfl) (Keep.refl s)
  | .serviceWindowClose .. => keep_execServiceWindowClose (mask_writes (l := [.pwr, .time, .evr, .pnl, .out]) rfl rfl) (Keep.refl s)
  | .holdPress => keep_execHoldPress (mask_writes (l := [.pwr, .time, .trc, .evr, .pnl, .out]) rfl rfl) (Keep.refl s)
  | .hostDoorWrite .. => keep_execHostDoorWrite (mask_writes (l := allParts.filter (! [.cfg, .cats, .work, .aud].contains ·)) rfl rfl) (Keep.refl s)
  | .w1cWrite .. => keep_execW1cWrite (mask_writes (l := [.time, .trc, .sht, .cdc, .evr, .host, .out]) rfl rfl) (Keep.refl s)
  | .commandTake .. => keep_execCommandTake (mask_writes (l := allParts.filter (! [.cfg, .cats, .work, .aud].contains ·)) rfl rfl) (Keep.refl s)
  | .timeLatchRead .. => keep_execTimeLatchRead (mask_writes (l := [.pwr, .time, .evr, .host, .out]) rfl rfl) (Keep.refl s)
  | .counterLatchRead => keep_execCounterLatchRead (mask_writes (l := [.host, .out]) rfl rfl) (Keep.refl s)
  | .recorderLatchRead => keep_execRecorderLatchRead (mask_writes (l := [.host, .out]) rfl rfl) (Keep.refl s)
  | .errorRingLatchRead => keep_execErrorRingLatchRead (mask_writes (l := [.host, .out]) rfl rfl) (Keep.refl s)
  | .frameSet .. => keep_execFrameSet (mask_writes (l := .frame :: answers) rfl rfl) (Keep.refl s)
  | .frameGet .. => keep_execFrameGet (mask_writes (l := answers) rfl rfl) (Keep.refl s)
  | .frameSetGroup .. => keep_execFrameSetGroup (mask_writes (l := .pend :: answers) rfl rfl) (Keep.refl s)
  | .frameGetStats .. => keep_execFrameGetStats (mask_writes (l := answers) rfl rfl) (Keep.refl s)
  | .frameGetPresence .. => keep_execFrameGetPresence (mask_writes (l := answers) rfl rfl) (Keep.refl s)
  | .frameGetContribution .. => keep_execFrameGetContribution (mask_writes (l := answers) rfl rfl) (Keep.refl s)
  | .timeGet .. => keep_execTimeGet (mask_writes (l := answers) rfl rfl) (Keep.refl s)
  | .timeSet .. => keep_execTimeSet (mask_writes (l := .hub :: .glen :: .prb :: .trc :: .sht :: .free :: answers) rfl rfl) (Keep.refl s)
  | .timeSetSource .. => keep_execTimeSetSource (mask_writes (l := answers) rfl rfl) (Keep.refl s)
  | .timeSetTod .. => keep_execTimeSetTod (mask_writes (l := answers) rfl rfl) (Keep.refl s)
  | .timeSetCal .. => keep_execTimeSetCal (mask_writes (l := answers) rfl rfl) (Keep.refl s)
  | .timeSetServo .. => keep_execTimeSetServo (mask_writes (l := answers) rfl rfl) (Keep.refl s)
  | .timeSetUtc .. => keep_execTimeSetUtc (mask_writes (l := answers) rfl rfl) (Keep.refl s)
  | .timeStepRoot .. => keep_execTimeStepRoot (mask_writes (l := .pend :: answers) rfl rfl) (Keep.refl s)
  | .winGet .. => keep_execWinGet (mask_writes (l := answers) rfl rfl) (Keep.refl s)
  | .winSetEnable .. => keep_execWinSetEnable (mask_writes (l := .pend :: answers) rfl rfl) (Keep.refl s)
  | .winGetStream .. => keep_execWinGetStream (mask_writes (l := answers) rfl rfl) (Keep.refl s)
  | .ctrRead .. => keep_execCtrRead (mask_writes (l := answers) rfl rfl) (Keep.refl s)
  | .ctrClear .. => keep_execCtrClear (mask_writes (l := .pend :: answers) rfl rfl) (Keep.refl s)
  | .ctrGetMap .. => keep_execCtrGetMap (mask_writes (l := answers) rfl rfl) (Keep.refl s)
  | .senRead .. => keep_execSenRead (mask_writes (l := answers) rfl rfl) (Keep.refl s)
  | .senGet .. => keep_execSenGet (mask_writes (l := answers) rfl rfl) (Keep.refl s)
  | .senStageTrim .. => keep_execSenStageTrim (mask_writes (l := .win :: .asm :: answers) rfl rfl) (Keep.refl s)
  | .senActivateTrim .. => keep_execSenActivateTrim (mask_writes (l := .pend :: answers) rfl rfl) (Keep.refl s)
  | .redStageCatalogue .. => keep_execRedStageCatalogue (mask_writes (l := .catsStaged :: .asm :: answers) rfl rfl) (Keep.refl s)
  | .redActivateCatalogue .. => keep_execRedActivateCatalogue (mask_writes (l := .pend :: answers) rfl rfl) (Keep.refl s)
  | .redGetCatalogue .. => keep_execRedGetCatalogue (mask_writes (l := answers) rfl rfl) (Keep.refl s)
  | .redGetSummary .. => keep_execRedGetSummary (mask_writes (l := answers) rfl rfl) (Keep.refl s)
  | .redGetReturned .. => keep_execRedGetReturned (mask_writes (l := answers) rfl rfl) (Keep.refl s)
  | .redTest .. => keep_execRedTest (mask_writes (l := answers) rfl rfl) (Keep.refl s)
  | .redGetCheck .. => keep_execRedGetCheck (mask_writes (l := answers) rfl rfl) (Keep.refl s)
  | .doorGet .. => keep_execDoorGet (mask_writes (l := answers) rfl rfl) (Keep.refl s)
  | .doorSet .. => keep_execDoorSet (mask_writes (l := .pend :: answers) rfl rfl) (Keep.refl s)
  | .doorRetrain .. => keep_execDoorRetrain (mask_writes (l := .hub :: .err :: .exp :: .pnl :: answers) rfl rfl) (Keep.refl s)
  | .doorClearQuarantine .. => keep_execDoorClearQuarantine (mask_writes (l := .hub :: answers) rfl rfl) (Keep.refl s)
  | .doorGetStats .. => keep_execDoorGetStats (mask_writes (l := answers) rfl rfl) (Keep.refl s)
  | .feaStageTable .. => keep_execFeaStageTable (mask_writes (l := .fea :: .asm :: answers) rfl rfl) (Keep.refl s)
  | .feaActivateTable .. => keep_execFeaActivateTable (mask_writes (l := .pend :: answers) rfl rfl) (Keep.refl s)
  | .feaGetTable .. => keep_execFeaGetTable (mask_writes (l := answers) rfl rfl) (Keep.refl s)
  | .feaGetVector .. => keep_execFeaGetVector (mask_writes (l := .frame :: .win :: .fea :: .pend :: answers) rfl rfl) (Keep.refl s)
  | .plnRead .. => keep_execPlnRead (mask_writes (l := answers) rfl rfl) (Keep.refl s)
  | .plnReset .. => keep_execPlnReset (mask_writes (l := .pend :: answers) rfl rfl) (Keep.refl s)
  | .plnGetAlarms .. => keep_execPlnGetAlarms (mask_writes (l := answers) rfl rfl) (Keep.refl s)
  | .glenStagePage .. => keep_execGlenStagePage (mask_writes (l := .glen :: .asm :: answers) rfl rfl) (Keep.refl s)
  | .glenActivate .. => keep_execGlenActivate (mask_writes (l := .pend :: answers) rfl rfl) (Keep.refl s)
  | .glenDeactivate .. => keep_execGlenDeactivate (mask_writes (l := .pend :: answers) rfl rfl) (Keep.refl s)
  | .glenGet .. => keep_execGlenGet (mask_writes (l := answers) rfl rfl) (Keep.refl s)
  | .glenSetMode .. => keep_execGlenSetMode (mask_writes (l := .pend :: answers) rfl rfl) (Keep.refl s)
  | .glenSetStraggler .. => keep_execGlenSetStraggler (mask_writes (l := .pend :: answers) rfl rfl) (Keep.refl s)
  | .glenEval .. => keep_execGlenEval (mask_writes (l := .frame :: .win :: .fea :: .pend :: answers) rfl rfl) (Keep.refl s)
  | .glenTestLink .. => keep_execGlenTestLink (mask_writes (l := answers) rfl rfl) (Keep.refl s)
  | .glenGetFindings .. => keep_execGlenGetFindings (mask_writes (l := answers) rfl rfl) (Keep.refl s)
  | .glenGetHistory .. => keep_execGlenGetHistory (mask_writes (l := answers) rfl rfl) (Keep.refl s)
  | .probeInstallPack .. => keep_execProbeInstallPack (mask_writes (l := .prb :: .cdc :: .asm :: answers) rfl rfl) (Keep.refl s)
  | .probeActivatePack .. => keep_execProbeActivatePack (mask_writes (l := .pend :: answers) rfl rfl) (Keep.refl s)
  | .probePushPack .. => keep_execProbePushPack (mask_writes (l := .prb :: .asm :: answers) rfl rfl) (Keep.refl s)
  | .probeEndPush .. => keep_execProbeEndPush (mask_writes (l := .prb :: answers) rfl rfl) (Keep.refl s)
  | .probeGetPush .. => keep_execProbeGetPush (mask_writes (l := answers) rfl rfl) (Keep.refl s)
  | .probeSet .. => keep_execProbeSet (mask_writes (l := .pend :: answers) rfl rfl) (Keep.refl s)
  | .probeGet .. => keep_execProbeGet (mask_writes (l := answers) rfl rfl) (Keep.refl s)
  | .probeGetCoverage .. => keep_execProbeGetCoverage (mask_writes (l := answers) rfl rfl) (Keep.refl s)
  | .probeClearCoverage .. => keep_execProbeClearCoverage (mask_writes (l := .pend :: answers) rfl rfl) (Keep.refl s)
  | .probeDisableTile .. => keep_execProbeDisableTile (mask_writes (l := .pend :: answers) rfl rfl) (Keep.refl s)
  | .probeResumeTile .. => keep_execProbeResumeTile (mask_writes (l := .pend :: answers) rfl rfl) (Keep.refl s)
  | .probeRun .. => keep_execProbeRun (mask_writes (l := .prb :: answers) rfl rfl) (Keep.refl s)
  | .errSetRoute .. => keep_execErrSetRoute (mask_writes (l := .err :: answers) rfl rfl) (Keep.refl s)
  | .errFetch .. => keep_execErrFetch (mask_writes (l := .err :: .free :: answers) rfl rfl) (Keep.refl s)
  | .errGet .. => keep_execErrGet (mask_writes (l := answers) rfl rfl) (Keep.refl s)
  | .errReadRing .. => keep_execErrReadRing (mask_writes (l := answers) rfl rfl) (Keep.refl s)
  | .errInject .. => keep_execErrInject (mask_writes (l := .err :: .exp :: answers) rfl rfl) (Keep.refl s)
  | .errSetExport .. => keep_execErrSetExport (mask_writes (l := .exp :: answers) rfl rfl) (Keep.refl s)
  | .errGetSignatures .. => keep_execErrGetSignatures (mask_writes (l := answers) rfl rfl) (Keep.refl s)
  | .psnGetBirths .. => keep_execPsnGetBirths (mask_writes (l := answers) rfl rfl) (Keep.refl s)
  | .psnGetCounts .. => keep_execPsnGetCounts (mask_writes (l := answers) rfl rfl) (Keep.refl s)
  | .trcSet .. => keep_execTrcSet (mask_writes (l := .pend :: answers) rfl rfl) (Keep.refl s)
  | .trcGet .. => keep_execTrcGet (mask_writes (l := answers) rfl rfl) (Keep.refl s)
  | .trcTrigger .. => keep_execTrcTrigger (mask_writes (l := .hub :: .trc :: .free :: answers) rfl rfl) (Keep.refl s)
  | .trcArm .. => keep_execTrcArm (mask_writes (l := .hub :: .trc :: .wpt :: .free :: answers) rfl rfl) (Keep.refl s)
  | .trcGetTriggers .. => keep_execTrcGetTriggers (mask_writes (l := answers) rfl rfl) (Keep.refl s)
  | .trcRead .. => keep_execTrcRead (mask_writes (l := answers) rfl rfl) (Keep.refl s)
  | .trcReadHistory .. => keep_execTrcReadHistory (mask_writes (l := answers) rfl rfl) (Keep.refl s)
  | .trcSetHistory .. => keep_execTrcSetHistory (mask_writes (l := .pend :: answers) rfl rfl) (Keep.refl s)
  | .trcGetStats .. => keep_execTrcGetStats (mask_writes (l := answers) rfl rfl) (Keep.refl s)
  | .wptSet .. => keep_execWptSet (mask_writes (l := .pend :: answers) rfl rfl) (Keep.refl s)
  | .wptGet .. => keep_execWptGet (mask_writes (l := answers) rfl rfl) (Keep.refl s)
  | .wptEnableData .. => keep_execWptEnableData (mask_writes (l := .wpt :: answers) rfl rfl) (Keep.refl s)
  | .wptDisableData .. => keep_execWptDisableData (mask_writes (l := .wpt :: answers) rfl rfl) (Keep.refl s)
  | .wptReadCapture .. => keep_execWptReadCapture (mask_writes (l := .wpt :: answers) rfl rfl) (Keep.refl s)
  | .shutterSet .. => keep_execShutterSet (mask_writes (l := .pend :: answers) rfl rfl) (Keep.refl s)
  | .shutterStop .. => keep_execShutterStop (mask_writes (l := .hub :: .glen :: .prb :: .trc :: .sht :: .free :: answers) rfl rfl) (Keep.refl s)
  | .shutterArmTimed .. => keep_execShutterArmTimed (mask_writes (l := .sht :: answers) rfl rfl) (Keep.refl s)
  | .shutterCancelTimed .. => keep_execShutterCancelTimed (mask_writes (l := .sht :: answers) rfl rfl) (Keep.refl s)
  | .shutterScan .. => keep_execShutterScan (mask_writes (l := .sht :: answers) rfl rfl) (Keep.refl s)
  | .shutterAbortScan .. => keep_execShutterAbortScan (mask_writes (l := .sht :: answers) rfl rfl) (Keep.refl s)
  | .shutterResume .. => keep_execShutterResume (mask_writes (l := .glen :: .sht :: answers) rfl rfl) (Keep.refl s)
  | .shutterSetHang .. => keep_execShutterSetHang (mask_writes (l := .pend :: answers) rfl rfl) (Keep.refl s)
  | .shutterStageProgram .. => keep_execShutterStageProgram (mask_writes (l := .sht :: .asm :: answers) rfl rfl) (Keep.refl s)
  | .shutterActivateProgram .. => keep_execShutterActivateProgram (mask_writes (l := .pend :: answers) rfl rfl) (Keep.refl s)
  | .shutterGet .. => keep_execShutterGet (mask_writes (l := answers) rfl rfl) (Keep.refl s)
  | .shutterGetCut .. => keep_execShutterGetCut (mask_writes (l := answers) rfl rfl) (Keep.refl s)
  | .shutterSetArea .. => keep_execShutterSetArea (mask_writes (l := .pend :: answers) rfl rfl) (Keep.refl s)
  | .shutterListImages .. => keep_execShutterListImages (mask_writes (l := answers) rfl rfl) (Keep.refl s)
  | .shutterReadImage .. => keep_execShutterReadImage (mask_writes (l := answers) rfl rfl) (Keep.refl s)
  | .shutterReleaseImage .. => keep_execShutterReleaseImage (mask_writes (l := .sht :: answers) rfl rfl) (Keep.refl s)
  | .shutterReadScan .. => keep_execShutterReadScan (mask_writes (l := .sht :: .cdc :: .free :: answers) rfl rfl) (Keep.refl s)
  | .cdcGet .. => keep_execCdcGet (mask_writes (l := answers) rfl rfl) (Keep.refl s)
  | .cdcTest .. => keep_execCdcTest (mask_writes (l := .cdc :: .asm :: answers) rfl rfl) (Keep.refl s)
  | .evrRead .. => keep_execEvrRead (mask_writes (l := answers) rfl rfl) (Keep.refl s)
  | .evrGet .. => keep_execEvrGet (mask_writes (l := answers) rfl rfl) (Keep.refl s)
  | .evrClear .. => keep_execEvrClear (mask_writes (l := answers) rfl rfl) (Keep.refl s)
  | .evrReadMirror .. => keep_execEvrReadMirror (mask_writes (l := answers) rfl rfl) (Keep.refl s)
  | .evrGetMirror .. => keep_execEvrGetMirror (mask_writes (l := answers) rfl rfl) (Keep.refl s)
  | .evrClearMirror .. => keep_execEvrClearMirror (mask_writes (l := .mem :: answers) rfl rfl) (Keep.refl s)
  | .srmGet .. => keep_execSrmGet (mask_writes (l := answers) rfl rfl) (Keep.refl s)
  | .srmSetBank .. => keep_execSrmSetBank (mask_writes (l := .mem :: answers) rfl rfl) (Keep.refl s)
  | .srmGetMap .. => keep_execSrmGetMap (mask_writes (l := answers) rfl rfl) (Keep.refl s)
  | .hshGet .. => keep_execHshGet (mask_writes (l := .free :: answers) rfl rfl) (Keep.refl s)
  | .hshSetAudit .. => keep_execHshSetAudit (mask_writes (l := .pend :: answers) rfl rfl) (Keep.refl s)
  | .hshGetDigest .. => keep_execHshGetDigest (mask_writes (l := answers) rfl rfl) (Keep.refl s)
  | .hshGetJobDigest .. => keep_execHshGetJobDigest (mask_writes (l := answers) rfl rfl) (Keep.refl s)
  | .secGet .. => keep_execSecGet (mask_writes (l := answers) rfl rfl) (Keep.refl s)
  | .secGetCert .. => keep_execSecGetCert (mask_writes (l := .free :: answers) rfl rfl) (Keep.refl s)
  | .secOpenSession .. => keep_execSecOpenSession (mask_writes (l := answers) rfl rfl) (Keep.refl s)
  | .secCloseSession .. => keep_execSecCloseSession (mask_writes (l := answers) rfl rfl) (Keep.refl s)
  | .secRotateKey .. => keep_execSecRotateKey (mask_writes (l := answers) rfl rfl) (Keep.refl s)
  | .secSelfTest .. => keep_execSecSelfTest (mask_writes (l := answers) rfl rfl) (Keep.refl s)
  | .secStageFirmware .. => keep_execSecStageFirmware (mask_writes (l := .mem :: .asm :: answers) rfl rfl) (Keep.refl s)
  | .secHandover .. => keep_execSecHandover (mask_writes (l := .pend :: answers) rfl rfl) (Keep.refl s)
  | .cmdGet .. => keep_execCmdGet (mask_writes (l := answers) rfl rfl) (Keep.refl s)
  | .cmdEcho .. => keep_execCmdEcho (mask_writes (l := answers) rfl rfl) (Keep.refl s)
  | .pwrGet .. => keep_execPwrGet (mask_writes (l := answers) rfl rfl) (Keep.refl s)
  | .pwrSet .. => keep_execPwrSet (mask_writes (l := .pend :: answers) rfl rfl) (Keep.refl s)
  | .pnlGet .. => keep_execPnlGet (mask_writes (l := answers) rfl rfl) (Keep.refl s)
  | .pnlSetLed .. => keep_execPnlSetLed (mask_writes (l := .pnl :: answers) rfl rfl) (Keep.refl s)
  | .pnlGetLog .. => keep_execPnlGetLog (mask_writes (l := answers) rfl rfl) (Keep.refl s)
  | .supplyLoss => keep_execSupplyLoss (mask_writes (l := allParts) rfl rfl) (Keep.refl s)
  | .regionReleased .. => keep_execRegionReleased (mask_writes (l := [.sht, .out]) rfl rfl) (Keep.refl s)
  | .storageReadyChange .. => keep_execStorageReadyChange (mask_writes (l := [.evr, .mem, .out]) rfl rfl) (Keep.refl s)

end Sys2Proof.Machine
end

