-- ==== Sys2Proof/Laws/State.lean ====
section
/-! SUPPORT. What the updates of State leave in each of its fields: for each update one lemma, so that no proof unfolds it. -/
namespace Sys2Proof.Machine

@[simp] theorem State.fresh_fields (s : State) :
    s.fresh.build = s.build ∧ s.fresh.cfg = s.cfg ∧ s.fresh.pwr = s.pwr ∧ s.fresh.frame = s.frame ∧ s.fresh.time = s.time ∧
    s.fresh.win = s.win ∧ s.fresh.cats = s.cats ∧ s.fresh.catsStaged = s.catsStaged ∧ s.fresh.work = s.work ∧
    s.fresh.hub = s.hub ∧ s.fresh.net = s.net ∧ s.fresh.fea = s.fea ∧ s.fresh.glen = s.glen ∧ s.fresh.prb = s.prb ∧
    s.fresh.err = s.err ∧ s.fresh.exp = s.exp ∧ s.fresh.trc = s.trc ∧ s.fresh.wpt = s.wpt ∧ s.fresh.sht = s.sht ∧
    s.fresh.cdc = s.cdc ∧ s.fresh.evr = s.evr ∧ s.fresh.mem = s.mem ∧ s.fresh.aud = s.aud ∧ s.fresh.sec = s.sec ∧
    s.fresh.asm = s.asm ∧ s.fresh.queueHigh = s.queueHigh ∧ s.fresh.host = s.host ∧ s.fresh.pend = s.pend ∧ s.fresh.pnl = s.pnl ∧
    s.fresh.out = [] ∧ s.fresh.free = s.free ∧ s.fresh.pending = s.pending := ⟨rfl, rfl, rfl, rfl, rfl, rfl, rfl, rfl, rfl, rfl, rfl, rfl, rfl, rfl, rfl, rfl, rfl, rfl, rfl, rfl, rfl, rfl, rfl, rfl, rfl, rfl, rfl, rfl, rfl, rfl, rfl, rfl⟩

@[simp] theorem State.emit_fields (o : Output) (s : State) :
    (State.emit o s).build = s.build ∧ (State.emit o s).cfg = s.cfg ∧ (State.emit o s).pwr = s.pwr ∧
    (State.emit o s).frame = s.frame ∧ (State.emit o s).time = s.time ∧ (State.emit o s).win = s.win ∧
    (State.emit o s).cats = s.cats ∧ (State.emit o s).catsStaged = s.catsStaged ∧ (State.emit o s).work = s.work ∧
    (State.emit o s).hub = s.hub ∧ (State.emit o s).net = s.net ∧ (State.emit o s).fea = s.fea ∧ (State.emit o s).glen = s.glen ∧
    (State.emit o s).prb = s.prb ∧ (State.emit o s).err = s.err ∧ (State.emit o s).exp = s.exp ∧ (State.emit o s).trc = s.trc ∧
    (State.emit o s).wpt = s.wpt ∧ (State.emit o s).sht = s.sht ∧ (State.emit o s).cdc = s.cdc ∧ (State.emit o s).evr = s.evr ∧
    (State.emit o s).mem = s.mem ∧ (State.emit o s).aud = s.aud ∧ (State.emit o s).sec = s.sec ∧ (State.emit o s).asm = s.asm ∧
    (State.emit o s).queueHigh = s.queueHigh ∧ (State.emit o s).host = s.host ∧ (State.emit o s).pend = s.pend ∧
    (State.emit o s).pnl = s.pnl ∧ (State.emit o s).out = s.out ++ [o] ∧ (State.emit o s).free = s.free ∧
    (State.emit o s).pending = s.pending := ⟨rfl, rfl, rfl, rfl, rfl, rfl, rfl, rfl, rfl, rfl, rfl, rfl, rfl, rfl, rfl, rfl, rfl, rfl, rfl, rfl, rfl, rfl, rfl, rfl, rfl, rfl, rfl, rfl, rfl, rfl, rfl, rfl⟩

@[simp] theorem State.emits_fields (os : List Output) (s : State) :
    (State.emits os s).build = s.build ∧ (State.emits os s).cfg = s.cfg ∧ (State.emits os s).pwr = s.pwr ∧
    (State.emits os s).frame = s.frame ∧ (State.emits os s).time = s.time ∧ (State.emits os s).win = s.win ∧
    (State.emits os s).cats = s.cats ∧ (State.emits os s).catsStaged = s.catsStaged ∧ (State.emits os s).work = s.work ∧
    (State.emits os s).hub = s.hub ∧ (State.emits os s).net = s.net ∧ (State.emits os s).fea = s.fea ∧
    (State.emits os s).glen = s.glen ∧ (State.emits os s).prb = s.prb ∧ (State.emits os s).err = s.err ∧
    (State.emits os s).exp = s.exp ∧ (State.emits os s).trc = s.trc ∧ (State.emits os s).wpt = s.wpt ∧
    (State.emits os s).sht = s.sht ∧ (State.emits os s).cdc = s.cdc ∧ (State.emits os s).evr = s.evr ∧
    (State.emits os s).mem = s.mem ∧ (State.emits os s).aud = s.aud ∧ (State.emits os s).sec = s.sec ∧
    (State.emits os s).asm = s.asm ∧ (State.emits os s).queueHigh = s.queueHigh ∧ (State.emits os s).host = s.host ∧
    (State.emits os s).pend = s.pend ∧ (State.emits os s).pnl = s.pnl ∧ (State.emits os s).out = s.out ++ os ∧
    (State.emits os s).free = s.free ∧ (State.emits os s).pending = s.pending := ⟨rfl, rfl, rfl, rfl, rfl, rfl, rfl, rfl, rfl, rfl, rfl, rfl, rfl, rfl, rfl, rfl, rfl, rfl, rfl, rfl, rfl, rfl, rfl, rfl, rfl, rfl, rfl, rfl, rfl, rfl, rfl, rfl⟩

@[simp] theorem advance_fields (k : Nat) (s : State) :
    (advance k s).build = s.build ∧ (advance k s).cfg = s.cfg ∧ (advance k s).frame = s.frame ∧ (advance k s).win = s.win ∧
    (advance k s).cats = s.cats ∧ (advance k s).catsStaged = s.catsStaged ∧ (advance k s).work = s.work ∧
    (advance k s).hub = s.hub ∧ (advance k s).net = s.net ∧ (advance k s).fea = s.fea ∧ (advance k s).glen = s.glen ∧
    (advance k s).prb = s.prb ∧ (advance k s).err = s.err ∧ (advance k s).exp = s.exp ∧ (advance k s).trc = s.trc ∧
    (advance k s).wpt = s.wpt ∧ (advance k s).sht = s.sht ∧ (advance k s).cdc = s.cdc ∧ (advance k s).mem = s.mem ∧
    (advance k s).aud = s.aud ∧ (advance k s).sec = s.sec ∧ (advance k s).asm = s.asm ∧ (advance k s).queueHigh = s.queueHigh ∧
    (advance k s).host = s.host ∧ (advance k s).pend = s.pend ∧ (advance k s).pnl = s.pnl ∧ (advance k s).out = s.out ∧
    (advance k s).free = s.free ∧ (advance k s).pending = s.pending := by
  unfold advance; split <;> exact ⟨rfl, rfl, rfl, rfl, rfl, rfl, rfl, rfl, rfl, rfl, rfl, rfl, rfl, rfl, rfl, rfl, rfl, rfl, rfl, rfl, rfl, rfl, rfl, rfl, rfl, rfl, rfl, rfl, rfl⟩

@[simp] theorem advanceTo_fields (t : Nat) (s : State) :
    (advanceTo t s).build = s.build ∧ (advanceTo t s).cfg = s.cfg ∧ (advanceTo t s).frame = s.frame ∧
    (advanceTo t s).win = s.win ∧ (advanceTo t s).cats = s.cats ∧ (advanceTo t s).catsStaged = s.catsStaged ∧
    (advanceTo t s).work = s.work ∧ (advanceTo t s).hub = s.hub ∧ (advanceTo t s).net = s.net ∧ (advanceTo t s).fea = s.fea ∧
    (advanceTo t s).glen = s.glen ∧ (advanceTo t s).prb = s.prb ∧ (advanceTo t s).err = s.err ∧ (advanceTo t s).exp = s.exp ∧
    (advanceTo t s).trc = s.trc ∧ (advanceTo t s).wpt = s.wpt ∧ (advanceTo t s).sht = s.sht ∧ (advanceTo t s).cdc = s.cdc ∧
    (advanceTo t s).mem = s.mem ∧ (advanceTo t s).aud = s.aud ∧ (advanceTo t s).sec = s.sec ∧ (advanceTo t s).asm = s.asm ∧
    (advanceTo t s).queueHigh = s.queueHigh ∧ (advanceTo t s).host = s.host ∧ (advanceTo t s).pend = s.pend ∧
    (advanceTo t s).pnl = s.pnl ∧ (advanceTo t s).out = s.out ∧ (advanceTo t s).free = s.free ∧
    (advanceTo t s).pending = s.pending := by
  unfold advanceTo; split
  · exact advance_fields _ s
  · exact ⟨rfl, rfl, rfl, rfl, rfl, rfl, rfl, rfl, rfl, rfl, rfl, rfl, rfl, rfl, rfl, rfl, rfl, rfl, rfl, rfl, rfl, rfl, rfl, rfl, rfl, rfl, rfl, rfl, rfl⟩

@[simp] theorem advanceCycles_fields (c : Nat) (s : State) :
    (advanceCycles c s).build = s.build ∧ (advanceCycles c s).cfg = s.cfg ∧ (advanceCycles c s).frame = s.frame ∧
    (advanceCycles c s).win = s.win ∧ (advanceCycles c s).cats = s.cats ∧ (advanceCycles c s).catsStaged = s.catsStaged ∧
    (advanceCycles c s).work = s.work ∧ (advanceCycles c s).hub = s.hub ∧ (advanceCycles c s).net = s.net ∧
    (advanceCycles c s).fea = s.fea ∧ (advanceCycles c s).glen = s.glen ∧ (advanceCycles c s).prb = s.prb ∧
    (advanceCycles c s).err = s.err ∧ (advanceCycles c s).exp = s.exp ∧ (advanceCycles c s).trc = s.trc ∧
    (advanceCycles c s).wpt = s.wpt ∧ (advanceCycles c s).sht = s.sht ∧ (advanceCycles c s).cdc = s.cdc ∧
    (advanceCycles c s).mem = s.mem ∧ (advanceCycles c s).aud = s.aud ∧ (advanceCycles c s).sec = s.sec ∧
    (advanceCycles c s).asm = s.asm ∧ (advanceCycles c s).queueHigh = s.queueHigh ∧ (advanceCycles c s).host = s.host ∧
    (advanceCycles c s).pend = s.pend ∧ (advanceCycles c s).pnl = s.pnl ∧ (advanceCycles c s).out = s.out ∧
    (advanceCycles c s).free = s.free ∧ (advanceCycles c s).pending = s.pending := advance_fields _ s

@[simp] theorem begin__fields (n : Nat) (s : State) :
    (begin_ n s).build = s.build ∧ (begin_ n s).cfg = s.cfg ∧ (begin_ n s).frame = s.frame ∧ (begin_ n s).win = s.win ∧
    (begin_ n s).cats = s.cats ∧ (begin_ n s).catsStaged = s.catsStaged ∧ (begin_ n s).work = s.work ∧ (begin_ n s).hub = s.hub ∧
    (begin_ n s).net = s.net ∧ (begin_ n s).fea = s.fea ∧ (begin_ n s).glen = s.glen ∧ (begin_ n s).prb = s.prb ∧
    (begin_ n s).err = s.err ∧ (begin_ n s).exp = s.exp ∧ (begin_ n s).trc = s.trc ∧ (begin_ n s).wpt = s.wpt ∧
    (begin_ n s).sht = s.sht ∧ (begin_ n s).cdc = s.cdc ∧ (begin_ n s).mem = s.mem ∧ (begin_ n s).aud = s.aud ∧
    (begin_ n s).sec = s.sec ∧ (begin_ n s).asm = s.asm ∧ (begin_ n s).queueHigh = s.queueHigh ∧ (begin_ n s).host = s.host ∧
    (begin_ n s).pend = s.pend ∧ (begin_ n s).pnl = s.pnl ∧ (begin_ n s).out = [] ∧ (begin_ n s).free = s.free ∧
    (begin_ n s).pending = s.pending := by
  simp [begin_]

@[simp] theorem setPend_fields (p : Pend) (s : State) :
    (setPend p s).build = s.build ∧ (setPend p s).cfg = s.cfg ∧ (setPend p s).pwr = s.pwr ∧ (setPend p s).frame = s.frame ∧
    (setPend p s).time = s.time ∧ (setPend p s).win = s.win ∧ (setPend p s).cats = s.cats ∧
    (setPend p s).catsStaged = s.catsStaged ∧ (setPend p s).work = s.work ∧ (setPend p s).hub = s.hub ∧
    (setPend p s).net = s.net ∧ (setPend p s).fea = s.fea ∧ (setPend p s).glen = s.glen ∧ (setPend p s).prb = s.prb ∧
    (setPend p s).err = s.err ∧ (setPend p s).exp = s.exp ∧ (setPend p s).trc = s.trc ∧ (setPend p s).wpt = s.wpt ∧
    (setPend p s).sht = s.sht ∧ (setPend p s).cdc = s.cdc ∧ (setPend p s).evr = s.evr ∧ (setPend p s).mem = s.mem ∧
    (setPend p s).aud = s.aud ∧ (setPend p s).sec = s.sec ∧ (setPend p s).asm = s.asm ∧ (setPend p s).queueHigh = s.queueHigh ∧
    (setPend p s).host = s.host ∧ (setPend p s).pnl = s.pnl ∧ (setPend p s).out = s.out ∧ (setPend p s).free = s.free ∧
    (setPend p s).pending = s.pending := ⟨rfl, rfl, rfl, rfl, rfl, rfl, rfl, rfl, rfl, rfl, rfl, rfl, rfl, rfl, rfl, rfl, rfl, rfl, rfl, rfl, rfl, rfl, rfl, rfl, rfl, rfl, rfl, rfl, rfl, rfl, rfl⟩

@[simp] theorem dropPend_fields (c o : Nat) (s : State) :
    (dropPend c o s).build = s.build ∧ (dropPend c o s).cfg = s.cfg ∧ (dropPend c o s).pwr = s.pwr ∧
    (dropPend c o s).frame = s.frame ∧ (dropPend c o s).time = s.time ∧ (dropPend c o s).win = s.win ∧
    (dropPend c o s).cats = s.cats ∧ (dropPend c o s).catsStaged = s.catsStaged ∧ (dropPend c o s).work = s.work ∧
    (dropPend c o s).hub = s.hub ∧ (dropPend c o s).net = s.net ∧ (dropPend c o s).fea = s.fea ∧ (dropPend c o s).glen = s.glen ∧
    (dropPend c o s).prb = s.prb ∧ (dropPend c o s).err = s.err ∧ (dropPend c o s).exp = s.exp ∧ (dropPend c o s).trc = s.trc ∧
    (dropPend c o s).wpt = s.wpt ∧ (dropPend c o s).sht = s.sht ∧ (dropPend c o s).cdc = s.cdc ∧ (dropPend c o s).evr = s.evr ∧
    (dropPend c o s).mem = s.mem ∧ (dropPend c o s).aud = s.aud ∧ (dropPend c o s).sec = s.sec ∧ (dropPend c o s).asm = s.asm ∧
    (dropPend c o s).queueHigh = s.queueHigh ∧ (dropPend c o s).host = s.host ∧
    (dropPend c o s).pend = (s.pend.filter fun q => !(q.opcode == c && q.object == o)) ∧ (dropPend c o s).pnl = s.pnl ∧
    (dropPend c o s).out = s.out ∧ (dropPend c o s).free = s.free ∧ (dropPend c o s).pending = s.pending := ⟨rfl, rfl, rfl, rfl, rfl, rfl, rfl, rfl, rfl, rfl, rfl, rfl, rfl, rfl, rfl, rfl, rfl, rfl, rfl, rfl, rfl, rfl, rfl, rfl, rfl, rfl, rfl, rfl, rfl, rfl, rfl, rfl⟩

@[simp] theorem enqueueEvr_fields (e : EvrEntry) (s : State) :
    (enqueueEvr e s).build = s.build ∧ (enqueueEvr e s).cfg = s.cfg ∧ (enqueueEvr e s).pwr = s.pwr ∧
    (enqueueEvr e s).frame = s.frame ∧ (enqueueEvr e s).time = s.time ∧ (enqueueEvr e s).win = s.win ∧
    (enqueueEvr e s).cats = s.cats ∧ (enqueueEvr e s).catsStaged = s.catsStaged ∧ (enqueueEvr e s).work = s.work ∧
    (enqueueEvr e s).hub = s.hub ∧ (enqueueEvr e s).net = s.net ∧ (enqueueEvr e s).fea = s.fea ∧ (enqueueEvr e s).glen = s.glen ∧
    (enqueueEvr e s).prb = s.prb ∧ (enqueueEvr e s).err = s.err ∧ (enqueueEvr e s).exp = s.exp ∧ (enqueueEvr e s).trc = s.trc ∧
    (enqueueEvr e s).wpt = s.wpt ∧ (enqueueEvr e s).sht = s.sht ∧ (enqueueEvr e s).cdc = s.cdc ∧ (enqueueEvr e s).mem = s.mem ∧
    (enqueueEvr e s).aud = s.aud ∧ (enqueueEvr e s).sec = s.sec ∧ (enqueueEvr e s).asm = s.asm ∧
    (enqueueEvr e s).queueHigh = s.queueHigh ∧ (enqueueEvr e s).host = s.host ∧ (enqueueEvr e s).pend = s.pend ∧
    (enqueueEvr e s).pnl = s.pnl ∧ (enqueueEvr e s).out = s.out ∧ (enqueueEvr e s).free = s.free ∧
    (enqueueEvr e s).pending = s.pending := by
  unfold enqueueEvr; split
  · exact ⟨rfl, rfl, rfl, rfl, rfl, rfl, rfl, rfl, rfl, rfl, rfl, rfl, rfl, rfl, rfl, rfl, rfl, rfl, rfl, rfl, rfl, rfl, rfl, rfl, rfl, rfl, rfl, rfl, rfl, rfl, rfl⟩
  · split <;> exact ⟨rfl, rfl, rfl, rfl, rfl, rfl, rfl, rfl, rfl, rfl, rfl, rfl, rfl, rfl, rfl, rfl, rfl, rfl, rfl, rfl, rfl, rfl, rfl, rfl, rfl, rfl, rfl, rfl, rfl, rfl, rfl⟩

@[simp] theorem ownEntry_fields (c e k : Nat) (p : Bytes) (s : State) :
    (ownEntry c e k p s).build = s.build ∧ (ownEntry c e k p s).cfg = s.cfg ∧ (ownEntry c e k p s).pwr = s.pwr ∧
    (ownEntry c e k p s).frame = s.frame ∧ (ownEntry c e k p s).time = s.time ∧ (ownEntry c e k p s).win = s.win ∧
    (ownEntry c e k p s).cats = s.cats ∧ (ownEntry c e k p s).catsStaged = s.catsStaged ∧ (ownEntry c e k p s).work = s.work ∧
    (ownEntry c e k p s).hub = s.hub ∧ (ownEntry c e k p s).net = s.net ∧ (ownEntry c e k p s).fea = s.fea ∧
    (ownEntry c e k p s).glen = s.glen ∧ (ownEntry c e k p s).prb = s.prb ∧ (ownEntry c e k p s).err = s.err ∧
    (ownEntry c e k p s).exp = s.exp ∧ (ownEntry c e k p s).trc = s.trc ∧ (ownEntry c e k p s).wpt = s.wpt ∧
    (ownEntry c e k p s).sht = s.sht ∧ (ownEntry c e k p s).cdc = s.cdc ∧ (ownEntry c e k p s).mem = s.mem ∧
    (ownEntry c e k p s).aud = s.aud ∧ (ownEntry c e k p s).sec = s.sec ∧ (ownEntry c e k p s).asm = s.asm ∧
    (ownEntry c e k p s).queueHigh = s.queueHigh ∧ (ownEntry c e k p s).host = s.host ∧ (ownEntry c e k p s).pend = s.pend ∧
    (ownEntry c e k p s).pnl = s.pnl ∧ (ownEntry c e k p s).out = s.out ∧ (ownEntry c e k p s).free = s.free ∧
    (ownEntry c e k p s).pending = s.pending := enqueueEvr_fields _ s

@[simp] theorem setHost_fields (f : HostDoor → HostDoor) (s : State) :
    (setHost f s).build = s.build ∧ (setHost f s).cfg = s.cfg ∧ (setHost f s).pwr = s.pwr ∧ (setHost f s).frame = s.frame ∧
    (setHost f s).time = s.time ∧ (setHost f s).win = s.win ∧ (setHost f s).cats = s.cats ∧
    (setHost f s).catsStaged = s.catsStaged ∧ (setHost f s).work = s.work ∧ (setHost f s).hub = s.hub ∧
    (setHost f s).net = s.net ∧ (setHost f s).fea = s.fea ∧ (setHost f s).glen = s.glen ∧ (setHost f s).prb = s.prb ∧
    (setHost f s).err = s.err ∧ (setHost f s).exp = s.exp ∧ (setHost f s).trc = s.trc ∧ (setHost f s).wpt = s.wpt ∧
    (setHost f s).sht = s.sht ∧ (setHost f s).cdc = s.cdc ∧ (setHost f s).evr = s.evr ∧ (setHost f s).mem = s.mem ∧
    (setHost f s).aud = s.aud ∧ (setHost f s).sec = s.sec ∧ (setHost f s).asm = s.asm ∧ (setHost f s).queueHigh = s.queueHigh ∧
    (setHost f s).host = f s.host ∧ (setHost f s).pend = s.pend ∧ (setHost f s).pnl = s.pnl ∧ (setHost f s).out = s.out ∧
    (setHost f s).free = s.free ∧ (setHost f s).pending = s.pending := ⟨rfl, rfl, rfl, rfl, rfl, rfl, rfl, rfl, rfl, rfl, rfl, rfl, rfl, rfl, rfl, rfl, rfl, rfl, rfl, rfl, rfl, rfl, rfl, rfl, rfl, rfl, rfl, rfl, rfl, rfl, rfl, rfl⟩

@[simp] theorem setSec_fields (f : Security → Security) (s : State) :
    (setSec f s).build = s.build ∧ (setSec f s).cfg = s.cfg ∧ (setSec f s).pwr = s.pwr ∧ (setSec f s).frame = s.frame ∧
    (setSec f s).time = s.time ∧ (setSec f s).win = s.win ∧ (setSec f s).cats = s.cats ∧ (setSec f s).catsStaged = s.catsStaged ∧
    (setSec f s).work = s.work ∧ (setSec f s).hub = s.hub ∧ (setSec f s).net = s.net ∧ (setSec f s).fea = s.fea ∧
    (setSec f s).glen = s.glen ∧ (setSec f s).prb = s.prb ∧ (setSec f s).err = s.err ∧ (setSec f s).exp = s.exp ∧
    (setSec f s).trc = s.trc ∧ (setSec f s).wpt = s.wpt ∧ (setSec f s).sht = s.sht ∧ (setSec f s).cdc = s.cdc ∧
    (setSec f s).evr = s.evr ∧ (setSec f s).mem = s.mem ∧ (setSec f s).aud = s.aud ∧ (setSec f s).sec = f s.sec ∧
    (setSec f s).asm = s.asm ∧ (setSec f s).queueHigh = s.queueHigh ∧ (setSec f s).host = s.host ∧ (setSec f s).pend = s.pend ∧
    (setSec f s).pnl = s.pnl ∧ (setSec f s).out = s.out ∧ (setSec f s).free = s.free ∧ (setSec f s).pending = s.pending := ⟨rfl, rfl, rfl, rfl, rfl, rfl, rfl, rfl, rfl, rfl, rfl, rfl, rfl, rfl, rfl, rfl, rfl, rfl, rfl, rfl, rfl, rfl, rfl, rfl, rfl, rfl, rfl, rfl, rfl, rfl, rfl, rfl⟩

@[simp] theorem setPrb_fields (f : Probes → Probes) (s : State) :
    (setPrb f s).build = s.build ∧ (setPrb f s).cfg = s.cfg ∧ (setPrb f s).pwr = s.pwr ∧ (setPrb f s).frame = s.frame ∧
    (setPrb f s).time = s.time ∧ (setPrb f s).win = s.win ∧ (setPrb f s).cats = s.cats ∧ (setPrb f s).catsStaged = s.catsStaged ∧
    (setPrb f s).work = s.work ∧ (setPrb f s).hub = s.hub ∧ (setPrb f s).net = s.net ∧ (setPrb f s).fea = s.fea ∧
    (setPrb f s).glen = s.glen ∧ (setPrb f s).prb = f s.prb ∧ (setPrb f s).err = s.err ∧ (setPrb f s).exp = s.exp ∧
    (setPrb f s).trc = s.trc ∧ (setPrb f s).wpt = s.wpt ∧ (setPrb f s).sht = s.sht ∧ (setPrb f s).cdc = s.cdc ∧
    (setPrb f s).evr = s.evr ∧ (setPrb f s).mem = s.mem ∧ (setPrb f s).aud = s.aud ∧ (setPrb f s).sec = s.sec ∧
    (setPrb f s).asm = s.asm ∧ (setPrb f s).queueHigh = s.queueHigh ∧ (setPrb f s).host = s.host ∧ (setPrb f s).pend = s.pend ∧
    (setPrb f s).pnl = s.pnl ∧ (setPrb f s).out = s.out ∧ (setPrb f s).free = s.free ∧ (setPrb f s).pending = s.pending := ⟨rfl, rfl, rfl, rfl, rfl, rfl, rfl, rfl, rfl, rfl, rfl, rfl, rfl, rfl, rfl, rfl, rfl, rfl, rfl, rfl, rfl, rfl, rfl, rfl, rfl, rfl, rfl, rfl, rfl, rfl, rfl, rfl⟩

@[simp] theorem setTile_fields (k : Nat) (f : Tile → Tile) (s : State) :
    (setTile k f s).build = s.build ∧ (setTile k f s).cfg = s.cfg ∧ (setTile k f s).pwr = s.pwr ∧
    (setTile k f s).frame = s.frame ∧ (setTile k f s).time = s.time ∧ (setTile k f s).win = s.win ∧
    (setTile k f s).cats = s.cats ∧ (setTile k f s).catsStaged = s.catsStaged ∧ (setTile k f s).work = s.work ∧
    (setTile k f s).hub = s.hub ∧ (setTile k f s).net = s.net ∧ (setTile k f s).fea = s.fea ∧ (setTile k f s).glen = s.glen ∧
    (setTile k f s).prb = { s.prb with tiles := modifyAt k f s.prb.tiles } ∧ (setTile k f s).err = s.err ∧
    (setTile k f s).exp = s.exp ∧ (setTile k f s).trc = s.trc ∧ (setTile k f s).wpt = s.wpt ∧ (setTile k f s).sht = s.sht ∧
    (setTile k f s).cdc = s.cdc ∧ (setTile k f s).evr = s.evr ∧ (setTile k f s).mem = s.mem ∧ (setTile k f s).aud = s.aud ∧
    (setTile k f s).sec = s.sec ∧ (setTile k f s).asm = s.asm ∧ (setTile k f s).queueHigh = s.queueHigh ∧
    (setTile k f s).host = s.host ∧ (setTile k f s).pend = s.pend ∧ (setTile k f s).pnl = s.pnl ∧ (setTile k f s).out = s.out ∧
    (setTile k f s).free = s.free ∧ (setTile k f s).pending = s.pending := ⟨rfl, rfl, rfl, rfl, rfl, rfl, rfl, rfl, rfl, rfl, rfl, rfl, rfl, rfl, rfl, rfl, rfl, rfl, rfl, rfl, rfl, rfl, rfl, rfl, rfl, rfl, rfl, rfl, rfl, rfl, rfl, rfl⟩

@[simp] theorem setSht_fields (f : Shutter → Shutter) (s : State) :
    (setSht f s).build = s.build ∧ (setSht f s).cfg = s.cfg ∧ (setSht f s).pwr = s.pwr ∧ (setSht f s).frame = s.frame ∧
    (setSht f s).time = s.time ∧ (setSht f s).win = s.win ∧ (setSht f s).cats = s.cats ∧ (setSht f s).catsStaged = s.catsStaged ∧
    (setSht f s).work = s.work ∧ (setSht f s).hub = s.hub ∧ (setSht f s).net = s.net ∧ (setSht f s).fea = s.fea ∧
    (setSht f s).glen = s.glen ∧ (setSht f s).prb = s.prb ∧ (setSht f s).err = s.err ∧ (setSht f s).exp = s.exp ∧
    (setSht f s).trc = s.trc ∧ (setSht f s).wpt = s.wpt ∧ (setSht f s).sht = f s.sht ∧ (setSht f s).cdc = s.cdc ∧
    (setSht f s).evr = s.evr ∧ (setSht f s).mem = s.mem ∧ (setSht f s).aud = s.aud ∧ (setSht f s).sec = s.sec ∧
    (setSht f s).asm = s.asm ∧ (setSht f s).queueHigh = s.queueHigh ∧ (setSht f s).host = s.host ∧ (setSht f s).pend = s.pend ∧
    (setSht f s).pnl = s.pnl ∧ (setSht f s).out = s.out ∧ (setSht f s).free = s.free ∧ (setSht f s).pending = s.pending := ⟨rfl, rfl, rfl, rfl, rfl, rfl, rfl, rfl, rfl, rfl, rfl, rfl, rfl, rfl, rfl, rfl, rfl, rfl, rfl, rfl, rfl, rfl, rfl, rfl, rfl, rfl, rfl, rfl, rfl, rfl, rfl, rfl⟩

@[simp] theorem setRegion_fields (i : Nat) (f : Region → Region) (s : State) :
    (setRegion i f s).build = s.build ∧ (setRegion i f s).cfg = s.cfg ∧ (setRegion i f s).pwr = s.pwr ∧
    (setRegion i f s).frame = s.frame ∧ (setRegion i f s).time = s.time ∧ (setRegion i f s).win = s.win ∧
    (setRegion i f s).cats = s.cats ∧ (setRegion i f s).catsStaged = s.catsStaged ∧ (setRegion i f s).work = s.work ∧
    (setRegion i f s).hub = s.hub ∧ (setRegion i f s).net = s.net ∧ (setRegion i f s).fea = s.fea ∧
    (setRegion i f s).glen = s.glen ∧ (setRegion i f s).prb = s.prb ∧ (setRegion i f s).err = s.err ∧
    (setRegion i f s).exp = s.exp ∧ (setRegion i f s).trc = s.trc ∧ (setRegion i f s).wpt = s.wpt ∧
    (setRegion i f s).sht = ({ s.sht with regions := s.sht.regions.map fun r => if r.index == i then f r else r }) ∧
    (setRegion i f s).cdc = s.cdc ∧ (setRegion i f s).evr = s.evr ∧ (setRegion i f s).mem = s.mem ∧
    (setRegion i f s).aud = s.aud ∧ (setRegion i f s).sec = s.sec ∧ (setRegion i f s).asm = s.asm ∧
    (setRegion i f s).queueHigh = s.queueHigh ∧ (setRegion i f s).host = s.host ∧ (setRegion i f s).pend = s.pend ∧
    (setRegion i f s).pnl = s.pnl ∧ (setRegion i f s).out = s.out ∧ (setRegion i f s).free = s.free ∧
    (setRegion i f s).pending = s.pending := ⟨rfl, rfl, rfl, rfl, rfl, rfl, rfl, rfl, rfl, rfl, rfl, rfl, rfl, rfl, rfl, rfl, rfl, rfl, rfl, rfl, rfl, rfl, rfl, rfl, rfl, rfl, rfl, rfl, rfl, rfl, rfl, rfl⟩

@[simp] theorem setAud_fields (f : Audit → Audit) (s : State) :
    (setAud f s).build = s.build ∧ (setAud f s).cfg = s.cfg ∧ (setAud f s).pwr = s.pwr ∧ (setAud f s).frame = s.frame ∧
    (setAud f s).time = s.time ∧ (setAud f s).win = s.win ∧ (setAud f s).cats = s.cats ∧ (setAud f s).catsStaged = s.catsStaged ∧
    (setAud f s).work = s.work ∧ (setAud f s).hub = s.hub ∧ (setAud f s).net = s.net ∧ (setAud f s).fea = s.fea ∧
    (setAud f s).glen = s.glen ∧ (setAud f s).prb = s.prb ∧ (setAud f s).err = s.err ∧ (setAud f s).exp = s.exp ∧
    (setAud f s).trc = s.trc ∧ (setAud f s).wpt = s.wpt ∧ (setAud f s).sht = s.sht ∧ (setAud f s).cdc = s.cdc ∧
    (setAud f s).evr = s.evr ∧ (setAud f s).mem = s.mem ∧ (setAud f s).aud = f s.aud ∧ (setAud f s).sec = s.sec ∧
    (setAud f s).asm = s.asm ∧ (setAud f s).queueHigh = s.queueHigh ∧ (setAud f s).host = s.host ∧ (setAud f s).pend = s.pend ∧
    (setAud f s).pnl = s.pnl ∧ (setAud f s).out = s.out ∧ (setAud f s).free = s.free ∧ (setAud f s).pending = s.pending := ⟨rfl, rfl, rfl, rfl, rfl, rfl, rfl, rfl, rfl, rfl, rfl, rfl, rfl, rfl, rfl, rfl, rfl, rfl, rfl, rfl, rfl, rfl, rfl, rfl, rfl, rfl, rfl, rfl, rfl, rfl, rfl, rfl⟩

@[simp] theorem setDoor_fields (d : Nat) (f : Door → Door) (s : State) :
    (setDoor d f s).build = s.build ∧ (setDoor d f s).cfg = s.cfg ∧ (setDoor d f s).pwr = s.pwr ∧
    (setDoor d f s).frame = s.frame ∧ (setDoor d f s).time = s.time ∧ (setDoor d f s).win = s.win ∧
    (setDoor d f s).cats = s.cats ∧ (setDoor d f s).catsStaged = s.catsStaged ∧ (setDoor d f s).work = s.work ∧
    (setDoor d f s).hub = s.hub ∧ (setDoor d f s).net = { s.net with doors := modifyAt d f s.net.doors } ∧
    (setDoor d f s).fea = s.fea ∧ (setDoor d f s).glen = s.glen ∧ (setDoor d f s).prb = s.prb ∧ (setDoor d f s).err = s.err ∧
    (setDoor d f s).exp = s.exp ∧ (setDoor d f s).trc = s.trc ∧ (setDoor d f s).wpt = s.wpt ∧ (setDoor d f s).sht = s.sht ∧
    (setDoor d f s).cdc = s.cdc ∧ (setDoor d f s).evr = s.evr ∧ (setDoor d f s).mem = s.mem ∧ (setDoor d f s).aud = s.aud ∧
    (setDoor d f s).sec = s.sec ∧ (setDoor d f s).asm = s.asm ∧ (setDoor d f s).queueHigh = s.queueHigh ∧
    (setDoor d f s).host = s.host ∧ (setDoor d f s).pend = s.pend ∧ (setDoor d f s).pnl = s.pnl ∧ (setDoor d f s).out = s.out ∧
    (setDoor d f s).free = s.free ∧ (setDoor d f s).pending = s.pending := ⟨rfl, rfl, rfl, rfl, rfl, rfl, rfl, rfl, rfl, rfl, rfl, rfl, rfl, rfl, rfl, rfl, rfl, rfl, rfl, rfl, rfl, rfl, rfl, rfl, rfl, rfl, rfl, rfl, rfl, rfl, rfl, rfl⟩

@[simp] theorem setPort_fields (p : Nat) (f : Port → Port) (s : State) :
    (setPort p f s).build = s.build ∧ (setPort p f s).cfg = s.cfg ∧ (setPort p f s).pwr = s.pwr ∧
    (setPort p f s).frame = s.frame ∧ (setPort p f s).time = s.time ∧
    (setPort p f s).win = { s.win with ports := modifyAt p f s.win.ports } ∧ (setPort p f s).cats = s.cats ∧
    (setPort p f s).catsStaged = s.catsStaged ∧ (setPort p f s).work = s.work ∧ (setPort p f s).hub = s.hub ∧
    (setPort p f s).net = s.net ∧ (setPort p f s).fea = s.fea ∧ (setPort p f s).glen = s.glen ∧ (setPort p f s).prb = s.prb ∧
    (setPort p f s).err = s.err ∧ (setPort p f s).exp = s.exp ∧ (setPort p f s).trc = s.trc ∧ (setPort p f s).wpt = s.wpt ∧
    (setPort p f s).sht = s.sht ∧ (setPort p f s).cdc = s.cdc ∧ (setPort p f s).evr = s.evr ∧ (setPort p f s).mem = s.mem ∧
    (setPort p f s).aud = s.aud ∧ (setPort p f s).sec = s.sec ∧ (setPort p f s).asm = s.asm ∧
    (setPort p f s).queueHigh = s.queueHigh ∧ (setPort p f s).host = s.host ∧ (setPort p f s).pend = s.pend ∧
    (setPort p f s).pnl = s.pnl ∧ (setPort p f s).out = s.out ∧ (setPort p f s).free = s.free ∧
    (setPort p f s).pending = s.pending := ⟨rfl, rfl, rfl, rfl, rfl, rfl, rfl, rfl, rfl, rfl, rfl, rfl, rfl, rfl, rfl, rfl, rfl, rfl, rfl, rfl, rfl, rfl, rfl, rfl, rfl, rfl, rfl, rfl, rfl, rfl, rfl, rfl⟩

@[simp] theorem setCtr_fields (i : Nat) (f : Ctr → Ctr) (s : State) :
    (setCtr i f s).build = s.build ∧ (setCtr i f s).cfg = s.cfg ∧ (setCtr i f s).pwr = s.pwr ∧ (setCtr i f s).frame = s.frame ∧
    (setCtr i f s).time = s.time ∧ (setCtr i f s).win = { s.win with ctrs := tput i (f (tget {} i s.win.ctrs)) s.win.ctrs } ∧
    (setCtr i f s).cats = s.cats ∧ (setCtr i f s).catsStaged = s.catsStaged ∧ (setCtr i f s).work = s.work ∧
    (setCtr i f s).hub = s.hub ∧ (setCtr i f s).net = s.net ∧ (setCtr i f s).fea = s.fea ∧ (setCtr i f s).glen = s.glen ∧
    (setCtr i f s).prb = s.prb ∧ (setCtr i f s).err = s.err ∧ (setCtr i f s).exp = s.exp ∧ (setCtr i f s).trc = s.trc ∧
    (setCtr i f s).wpt = s.wpt ∧ (setCtr i f s).sht = s.sht ∧ (setCtr i f s).cdc = s.cdc ∧ (setCtr i f s).evr = s.evr ∧
    (setCtr i f s).mem = s.mem ∧ (setCtr i f s).aud = s.aud ∧ (setCtr i f s).sec = s.sec ∧ (setCtr i f s).asm = s.asm ∧
    (setCtr i f s).queueHigh = s.queueHigh ∧ (setCtr i f s).host = s.host ∧ (setCtr i f s).pend = s.pend ∧
    (setCtr i f s).pnl = s.pnl ∧ (setCtr i f s).out = s.out ∧ (setCtr i f s).free = s.free ∧ (setCtr i f s).pending = s.pending := ⟨rfl, rfl, rfl, rfl, rfl, rfl, rfl, rfl, rfl, rfl, rfl, rfl, rfl, rfl, rfl, rfl, rfl, rfl, rfl, rfl, rfl, rfl, rfl, rfl, rfl, rfl, rfl, rfl, rfl, rfl, rfl, rfl⟩

@[simp] theorem setStream_fields (e : Nat) (st : Stream) (s : State) :
    (setStream e st s).build = s.build ∧ (setStream e st s).cfg = s.cfg ∧ (setStream e st s).pwr = s.pwr ∧
    (setStream e st s).frame = s.frame ∧ (setStream e st s).time = s.time ∧
    (setStream e st s).win = { s.win with streams := tput e st s.win.streams } ∧ (setStream e st s).cats = s.cats ∧
    (setStream e st s).catsStaged = s.catsStaged ∧ (setStream e st s).work = s.work ∧ (setStream e st s).hub = s.hub ∧
    (setStream e st s).net = s.net ∧ (setStream e st s).fea = s.fea ∧ (setStream e st s).glen = s.glen ∧
    (setStream e st s).prb = s.prb ∧ (setStream e st s).err = s.err ∧ (setStream e st s).exp = s.exp ∧
    (setStream e st s).trc = s.trc ∧ (setStream e st s).wpt = s.wpt ∧ (setStream e st s).sht = s.sht ∧
    (setStream e st s).cdc = s.cdc ∧ (setStream e st s).evr = s.evr ∧ (setStream e st s).mem = s.mem ∧
    (setStream e st s).aud = s.aud ∧ (setStream e st s).sec = s.sec ∧ (setStream e st s).asm = s.asm ∧
    (setStream e st s).queueHigh = s.queueHigh ∧ (setStream e st s).host = s.host ∧ (setStream e st s).pend = s.pend ∧
    (setStream e st s).pnl = s.pnl ∧ (setStream e st s).out = s.out ∧ (setStream e st s).free = s.free ∧
    (setStream e st s).pending = s.pending := ⟨rfl, rfl, rfl, rfl, rfl, rfl, rfl, rfl, rfl, rfl, rfl, rfl, rfl, rfl, rfl, rfl, rfl, rfl, rfl, rfl, rfl, rfl, rfl, rfl, rfl, rfl, rfl, rfl, rfl, rfl, rfl, rfl⟩

@[simp] theorem setCtx_fields (k : Nat) (f : Ctx → Ctx) (s : State) :
    (setCtx k f s).build = s.build ∧ (setCtx k f s).cfg = s.cfg ∧ (setCtx k f s).pwr = s.pwr ∧ (setCtx k f s).frame = s.frame ∧
    (setCtx k f s).time = s.time ∧ (setCtx k f s).win = s.win ∧ (setCtx k f s).cats = s.cats ∧
    (setCtx k f s).catsStaged = s.catsStaged ∧ (setCtx k f s).work = s.work ∧ (setCtx k f s).hub = s.hub ∧
    (setCtx k f s).net = s.net ∧ (setCtx k f s).fea = s.fea ∧ (setCtx k f s).glen = s.glen ∧ (setCtx k f s).prb = s.prb ∧
    (setCtx k f s).err = s.err ∧ (setCtx k f s).exp = s.exp ∧ (setCtx k f s).trc = s.trc ∧ (setCtx k f s).wpt = s.wpt ∧
    (setCtx k f s).sht = s.sht ∧ (setCtx k f s).cdc = { s.cdc with ctxs := modifyAt k f s.cdc.ctxs } ∧
    (setCtx k f s).evr = s.evr ∧ (setCtx k f s).mem = s.mem ∧ (setCtx k f s).aud = s.aud ∧ (setCtx k f s).sec = s.sec ∧
    (setCtx k f s).asm = s.asm ∧ (setCtx k f s).queueHigh = s.queueHigh ∧ (setCtx k f s).host = s.host ∧
    (setCtx k f s).pend = s.pend ∧ (setCtx k f s).pnl = s.pnl ∧ (setCtx k f s).out = s.out ∧ (setCtx k f s).free = s.free ∧
    (setCtx k f s).pending = s.pending := ⟨rfl, rfl, rfl, rfl, rfl, rfl, rfl, rfl, rfl, rfl, rfl, rfl, rfl, rfl, rfl, rfl, rfl, rfl, rfl, rfl, rfl, rfl, rfl, rfl, rfl, rfl, rfl, rfl, rfl, rfl, rfl, rfl⟩

@[simp] theorem setCage_fields (c : Nat) (f : Cage → Cage) (s : State) :
    (setCage c f s).build = s.build ∧ (setCage c f s).cfg = s.cfg ∧ (setCage c f s).pwr = s.pwr ∧
    (setCage c f s).frame = s.frame ∧ (setCage c f s).time = s.time ∧ (setCage c f s).win = s.win ∧
    (setCage c f s).cats = s.cats ∧ (setCage c f s).catsStaged = s.catsStaged ∧ (setCage c f s).work = s.work ∧
    (setCage c f s).hub = s.hub ∧ (setCage c f s).net = s.net ∧ (setCage c f s).fea = s.fea ∧ (setCage c f s).glen = s.glen ∧
    (setCage c f s).prb = s.prb ∧ (setCage c f s).err = s.err ∧ (setCage c f s).exp = s.exp ∧ (setCage c f s).trc = s.trc ∧
    (setCage c f s).wpt = s.wpt ∧ (setCage c f s).sht = s.sht ∧ (setCage c f s).cdc = s.cdc ∧ (setCage c f s).evr = s.evr ∧
    (setCage c f s).mem = s.mem ∧ (setCage c f s).aud = s.aud ∧ (setCage c f s).sec = s.sec ∧ (setCage c f s).asm = s.asm ∧
    (setCage c f s).queueHigh = s.queueHigh ∧ (setCage c f s).host = s.host ∧ (setCage c f s).pend = s.pend ∧
    (setCage c f s).pnl = { s.pnl with cages := modifyAt c f s.pnl.cages } ∧ (setCage c f s).out = s.out ∧
    (setCage c f s).free = s.free ∧ (setCage c f s).pending = s.pending := ⟨rfl, rfl, rfl, rfl, rfl, rfl, rfl, rfl, rfl, rfl, rfl, rfl, rfl, rfl, rfl, rfl, rfl, rfl, rfl, rfl, rfl, rfl, rfl, rfl, rfl, rfl, rfl, rfl, rfl, rfl, rfl, rfl⟩

@[simp] theorem setItem_fields (i : Nat) (t : Stage) (s : State) :
    (setItem i t s).build = s.build ∧ (setItem i t s).cfg = s.cfg ∧ (setItem i t s).pwr = s.pwr ∧
    (setItem i t s).frame = s.frame ∧ (setItem i t s).time = s.time ∧ (setItem i t s).win = s.win ∧
    (setItem i t s).cats = s.cats ∧ (setItem i t s).catsStaged = s.catsStaged ∧ (setItem i t s).work = s.work ∧
    (setItem i t s).hub = ({ s.hub with items := modifyAt i (fun x => { x with stage := t }) s.hub.items }) ∧
    (setItem i t s).net = s.net ∧ (setItem i t s).fea = s.fea ∧ (setItem i t s).glen = s.glen ∧ (setItem i t s).prb = s.prb ∧
    (setItem i t s).err = s.err ∧ (setItem i t s).exp = s.exp ∧ (setItem i t s).trc = s.trc ∧ (setItem i t s).wpt = s.wpt ∧
    (setItem i t s).sht = s.sht ∧ (setItem i t s).cdc = s.cdc ∧ (setItem i t s).evr = s.evr ∧ (setItem i t s).mem = s.mem ∧
    (setItem i t s).aud = s.aud ∧ (setItem i t s).sec = s.sec ∧ (setItem i t s).asm = s.asm ∧
    (setItem i t s).queueHigh = s.queueHigh ∧ (setItem i t s).host = s.host ∧ (setItem i t s).pend = s.pend ∧
    (setItem i t s).pnl = s.pnl ∧ (setItem i t s).out = s.out ∧ (setItem i t s).free = s.free ∧
    (setItem i t s).pending = s.pending := ⟨rfl, rfl, rfl, rfl, rfl, rfl, rfl, rfl, rfl, rfl, rfl, rfl, rfl, rfl, rfl, rfl, rfl, rfl, rfl, rfl, rfl, rfl, rfl, rfl, rfl, rfl, rfl, rfl, rfl, rfl, rfl, rfl⟩

@[simp] theorem setFw_fields (f : FwStore → FwStore) (s : State) :
    (setFw f s).build = s.build ∧ (setFw f s).cfg = s.cfg ∧ (setFw f s).pwr = s.pwr ∧ (setFw f s).frame = s.frame ∧
    (setFw f s).time = s.time ∧ (setFw f s).win = s.win ∧ (setFw f s).cats = s.cats ∧ (setFw f s).catsStaged = s.catsStaged ∧
    (setFw f s).work = s.work ∧ (setFw f s).hub = s.hub ∧ (setFw f s).net = s.net ∧ (setFw f s).fea = s.fea ∧
    (setFw f s).glen = s.glen ∧ (setFw f s).prb = s.prb ∧ (setFw f s).err = s.err ∧ (setFw f s).exp = s.exp ∧
    (setFw f s).trc = s.trc ∧ (setFw f s).wpt = s.wpt ∧ (setFw f s).sht = s.sht ∧ (setFw f s).cdc = s.cdc ∧
    (setFw f s).evr = s.evr ∧ (setFw f s).mem = { s.mem with fw := f s.mem.fw } ∧ (setFw f s).aud = s.aud ∧
    (setFw f s).sec = s.sec ∧ (setFw f s).asm = s.asm ∧ (setFw f s).queueHigh = s.queueHigh ∧ (setFw f s).host = s.host ∧
    (setFw f s).pend = s.pend ∧ (setFw f s).pnl = s.pnl ∧ (setFw f s).out = s.out ∧ (setFw f s).free = s.free ∧
    (setFw f s).pending = s.pending := ⟨rfl, rfl, rfl, rfl, rfl, rfl, rfl, rfl, rfl, rfl, rfl, rfl, rfl, rfl, rfl, rfl, rfl, rfl, rfl, rfl, rfl, rfl, rfl, rfl, rfl, rfl, rfl, rfl, rfl, rfl, rfl, rfl⟩

@[simp] theorem setPtp_fields (f : Ptp → Ptp) (s : State) :
    (setPtp f s).build = s.build ∧ (setPtp f s).cfg = s.cfg ∧ (setPtp f s).pwr = s.pwr ∧ (setPtp f s).frame = s.frame ∧
    (setPtp f s).time = { s.time with ptp := f s.time.ptp } ∧ (setPtp f s).win = s.win ∧ (setPtp f s).cats = s.cats ∧
    (setPtp f s).catsStaged = s.catsStaged ∧ (setPtp f s).work = s.work ∧ (setPtp f s).hub = s.hub ∧ (setPtp f s).net = s.net ∧
    (setPtp f s).fea = s.fea ∧ (setPtp f s).glen = s.glen ∧ (setPtp f s).prb = s.prb ∧ (setPtp f s).err = s.err ∧
    (setPtp f s).exp = s.exp ∧ (setPtp f s).trc = s.trc ∧ (setPtp f s).wpt = s.wpt ∧ (setPtp f s).sht = s.sht ∧
    (setPtp f s).cdc = s.cdc ∧ (setPtp f s).evr = s.evr ∧ (setPtp f s).mem = s.mem ∧ (setPtp f s).aud = s.aud ∧
    (setPtp f s).sec = s.sec ∧ (setPtp f s).asm = s.asm ∧ (setPtp f s).queueHigh = s.queueHigh ∧ (setPtp f s).host = s.host ∧
    (setPtp f s).pend = s.pend ∧ (setPtp f s).pnl = s.pnl ∧ (setPtp f s).out = s.out ∧ (setPtp f s).free = s.free ∧
    (setPtp f s).pending = s.pending := ⟨rfl, rfl, rfl, rfl, rfl, rfl, rfl, rfl, rfl, rfl, rfl, rfl, rfl, rfl, rfl, rfl, rfl, rfl, rfl, rfl, rfl, rfl, rfl, rfl, rfl, rfl, rfl, rfl, rfl, rfl, rfl, rfl⟩

@[simp] theorem setSrc_fields (i : Nat) (f : Source → Source) (s : State) :
    (setSrc i f s).build = s.build ∧ (setSrc i f s).cfg = s.cfg ∧ (setSrc i f s).pwr = s.pwr ∧ (setSrc i f s).frame = s.frame ∧
    (setSrc i f s).time = s.time ∧ (setSrc i f s).win = s.win ∧ (setSrc i f s).cats = s.cats ∧
    (setSrc i f s).catsStaged = s.catsStaged ∧ (setSrc i f s).work = s.work ∧ (setSrc i f s).hub = s.hub ∧
    (setSrc i f s).net = s.net ∧ (setSrc i f s).fea = s.fea ∧ (setSrc i f s).glen = s.glen ∧ (setSrc i f s).prb = s.prb ∧
    (setSrc i f s).err = s.err ∧ (setSrc i f s).exp = s.exp ∧
    (setSrc i f s).trc = { s.trc with srcs := modifyAt i f s.trc.srcs } ∧ (setSrc i f s).wpt = s.wpt ∧
    (setSrc i f s).sht = s.sht ∧ (setSrc i f s).cdc = s.cdc ∧ (setSrc i f s).evr = s.evr ∧ (setSrc i f s).mem = s.mem ∧
    (setSrc i f s).aud = s.aud ∧ (setSrc i f s).sec = s.sec ∧ (setSrc i f s).asm = s.asm ∧
    (setSrc i f s).queueHigh = s.queueHigh ∧ (setSrc i f s).host = s.host ∧ (setSrc i f s).pend = s.pend ∧
    (setSrc i f s).pnl = s.pnl ∧ (setSrc i f s).out = s.out ∧ (setSrc i f s).free = s.free ∧ (setSrc i f s).pending = s.pending := ⟨rfl, rfl, rfl, rfl, rfl, rfl, rfl, rfl, rfl, rfl, rfl, rfl, rfl, rfl, rfl, rfl, rfl, rfl, rfl, rfl, rfl, rfl, rfl, rfl, rfl, rfl, rfl, rfl, rfl, rfl, rfl, rfl⟩

@[simp] theorem setIngress_fields (d : Nat) (f : Ingress → Ingress) (s : State) :
    (setIngress d f s).build = s.build ∧ (setIngress d f s).cfg = s.cfg ∧ (setIngress d f s).pwr = s.pwr ∧
    (setIngress d f s).frame = s.frame ∧ (setIngress d f s).time = s.time ∧ (setIngress d f s).win = s.win ∧
    (setIngress d f s).cats = s.cats ∧ (setIngress d f s).catsStaged = s.catsStaged ∧ (setIngress d f s).work = s.work ∧
    (setIngress d f s).hub = s.hub ∧ (setIngress d f s).net = s.net ∧ (setIngress d f s).fea = s.fea ∧
    (setIngress d f s).glen = s.glen ∧ (setIngress d f s).prb = s.prb ∧ (setIngress d f s).err = s.err ∧
    (setIngress d f s).exp = s.exp ∧ (setIngress d f s).wpt = s.wpt ∧ (setIngress d f s).sht = s.sht ∧
    (setIngress d f s).cdc = s.cdc ∧ (setIngress d f s).evr = s.evr ∧ (setIngress d f s).mem = s.mem ∧
    (setIngress d f s).aud = s.aud ∧ (setIngress d f s).sec = s.sec ∧ (setIngress d f s).asm = s.asm ∧
    (setIngress d f s).queueHigh = s.queueHigh ∧ (setIngress d f s).host = s.host ∧ (setIngress d f s).pend = s.pend ∧
    (setIngress d f s).pnl = s.pnl ∧ (setIngress d f s).out = s.out ∧ (setIngress d f s).free = s.free ∧
    (setIngress d f s).pending = s.pending := ⟨rfl, rfl, rfl, rfl, rfl, rfl, rfl, rfl, rfl, rfl, rfl, rfl, rfl, rfl, rfl, rfl, rfl, rfl, rfl, rfl, rfl, rfl, rfl, rfl, rfl, rfl, rfl, rfl, rfl, rfl, rfl⟩

@[simp] theorem setWpt_fields (w : Nat) (f : WatchPoint → WatchPoint) (s : State) :
    (setWpt w f s).build = s.build ∧ (setWpt w f s).cfg = s.cfg ∧ (setWpt w f s).pwr = s.pwr ∧ (setWpt w f s).frame = s.frame ∧
    (setWpt w f s).time = s.time ∧ (setWpt w f s).win = s.win ∧ (setWpt w f s).cats = s.cats ∧
    (setWpt w f s).catsStaged = s.catsStaged ∧ (setWpt w f s).work = s.work ∧ (setWpt w f s).hub = s.hub ∧
    (setWpt w f s).net = s.net ∧ (setWpt w f s).fea = s.fea ∧ (setWpt w f s).glen = s.glen ∧ (setWpt w f s).prb = s.prb ∧
    (setWpt w f s).err = s.err ∧ (setWpt w f s).exp = s.exp ∧ (setWpt w f s).trc = s.trc ∧
    (setWpt w f s).wpt = { s.wpt with points := modifyAt w f s.wpt.points } ∧ (setWpt w f s).sht = s.sht ∧
    (setWpt w f s).cdc = s.cdc ∧ (setWpt w f s).evr = s.evr ∧ (setWpt w f s).mem = s.mem ∧ (setWpt w f s).aud = s.aud ∧
    (setWpt w f s).sec = s.sec ∧ (setWpt w f s).asm = s.asm ∧ (setWpt w f s).queueHigh = s.queueHigh ∧
    (setWpt w f s).host = s.host ∧ (setWpt w f s).pend = s.pend ∧ (setWpt w f s).pnl = s.pnl ∧ (setWpt w f s).out = s.out ∧
    (setWpt w f s).free = s.free ∧ (setWpt w f s).pending = s.pending := ⟨rfl, rfl, rfl, rfl, rfl, rfl, rfl, rfl, rfl, rfl, rfl, rfl, rfl, rfl, rfl, rfl, rfl, rfl, rfl, rfl, rfl, rfl, rfl, rfl, rfl, rfl, rfl, rfl, rfl, rfl, rfl, rfl⟩

@[simp] theorem putReporter_fields (u : Nat) (r : Reporter) (s : State) :
    (putReporter u r s).build = s.build ∧ (putReporter u r s).cfg = s.cfg ∧ (putReporter u r s).pwr = s.pwr ∧
    (putReporter u r s).frame = s.frame ∧ (putReporter u r s).time = s.time ∧ (putReporter u r s).win = s.win ∧
    (putReporter u r s).cats = s.cats ∧ (putReporter u r s).catsStaged = s.catsStaged ∧ (putReporter u r s).work = s.work ∧
    (putReporter u r s).hub = s.hub ∧ (putReporter u r s).net = s.net ∧ (putReporter u r s).fea = s.fea ∧
    (putReporter u r s).glen = s.glen ∧ (putReporter u r s).prb = s.prb ∧
    (putReporter u r s).err = { s.err with reporters := tput u r s.err.reporters } ∧ (putReporter u r s).exp = s.exp ∧
    (putReporter u r s).trc = s.trc ∧ (putReporter u r s).wpt = s.wpt ∧ (putReporter u r s).sht = s.sht ∧
    (putReporter u r s).cdc = s.cdc ∧ (putReporter u r s).evr = s.evr ∧ (putReporter u r s).mem = s.mem ∧
    (putReporter u r s).aud = s.aud ∧ (putReporter u r s).sec = s.sec ∧ (putReporter u r s).asm = s.asm ∧
    (putReporter u r s).queueHigh = s.queueHigh ∧ (putReporter u r s).host = s.host ∧ (putReporter u r s).pend = s.pend ∧
    (putReporter u r s).pnl = s.pnl ∧ (putReporter u r s).out = s.out ∧ (putReporter u r s).free = s.free ∧
    (putReporter u r s).pending = s.pending := ⟨rfl, rfl, rfl, rfl, rfl, rfl, rfl, rfl, rfl, rfl, rfl, rfl, rfl, rfl, rfl, rfl, rfl, rfl, rfl, rfl, rfl, rfl, rfl, rfl, rfl, rfl, rfl, rfl, rfl, rfl, rfl, rfl⟩

@[simp] theorem putSlot_fields (k : Nat) (x : FwSlot) (s : State) :
    (putSlot k x s).build = s.build ∧ (putSlot k x s).cfg = s.cfg ∧ (putSlot k x s).pwr = s.pwr ∧
    (putSlot k x s).frame = s.frame ∧ (putSlot k x s).time = s.time ∧ (putSlot k x s).win = s.win ∧
    (putSlot k x s).cats = s.cats ∧ (putSlot k x s).catsStaged = s.catsStaged ∧ (putSlot k x s).work = s.work ∧
    (putSlot k x s).hub = s.hub ∧ (putSlot k x s).net = s.net ∧ (putSlot k x s).fea = s.fea ∧ (putSlot k x s).glen = s.glen ∧
    (putSlot k x s).prb = s.prb ∧ (putSlot k x s).err = s.err ∧ (putSlot k x s).exp = s.exp ∧ (putSlot k x s).trc = s.trc ∧
    (putSlot k x s).wpt = s.wpt ∧ (putSlot k x s).sht = s.sht ∧ (putSlot k x s).cdc = s.cdc ∧ (putSlot k x s).evr = s.evr ∧
    (putSlot k x s).mem = s.mem ∧ (putSlot k x s).aud = s.aud ∧
    (putSlot k x s).sec = ({ s.sec with slots := modifyAt k (fun _ => x) s.sec.slots }) ∧ (putSlot k x s).asm = s.asm ∧
    (putSlot k x s).queueHigh = s.queueHigh ∧ (putSlot k x s).host = s.host ∧ (putSlot k x s).pend = s.pend ∧
    (putSlot k x s).pnl = s.pnl ∧ (putSlot k x s).out = s.out ∧ (putSlot k x s).free = s.free ∧
    (putSlot k x s).pending = s.pending := ⟨rfl, rfl, rfl, rfl, rfl, rfl, rfl, rfl, rfl, rfl, rfl, rfl, rfl, rfl, rfl, rfl, rfl, rfl, rfl, rfl, rfl, rfl, rfl, rfl, rfl, rfl, rfl, rfl, rfl, rfl, rfl, rfl⟩

/-! ### What looks at State does not see the outputs -/

@[simp] theorem working_fresh (s : State) : working s.fresh = working s := rfl
@[simp] theorem outOfReset_fresh (s : State) : outOfReset s.fresh = outOfReset s := rfl
@[simp] theorem role_fresh (s : State) : role s.fresh = role s := rfl
@[simp] theorem isDie_fresh (s : State) : isDie s.fresh = isDie s := rfl
@[simp] theorem isTray_fresh (s : State) : isTray s.fresh = isTray s := rfl
@[simp] theorem isPod_fresh (s : State) : isPod s.fresh = isPod s := rfl
@[simp] theorem isRoot_fresh (s : State) : isRoot s.fresh = isRoot s := rfl
@[simp] theorem isPrimary_fresh (s : State) : isPrimary s.fresh = isPrimary s := rfl
@[simp] theorem isSecondary_fresh (s : State) : isSecondary s.fresh = isSecondary s := rfl
@[simp] theorem plane_fresh (s : State) : plane s.fresh = plane s := rfl
@[simp] theorem unitId_fresh (s : State) : unitId s.fresh = unitId s := rfl
@[simp] theorem dieId_fresh (s : State) : dieId s.fresh = dieId s := rfl
@[simp] theorem hubAddr_fresh (s : State) : hubAddr s.fresh = hubAddr s := rfl
@[simp] theorem curFrame_fresh (s : State) : curFrame s.fresh = curFrame s := rfl
@[simp] theorem targetBlock_fresh (s : State) : targetBlock s.fresh = targetBlock s := rfl
@[simp] theorem cycleUnits_fresh (s : State) : cycleUnits s.fresh = cycleUnits s := rfl
@[simp] theorem inputCloseAt_fresh (s : State) : inputCloseAt s.fresh = inputCloseAt s := rfl
@[simp] theorem ownMarkAt_fresh (s : State) : ownMarkAt s.fresh = ownMarkAt s := rfl
@[simp] theorem returnCloseAt_fresh (s : State) : returnCloseAt s.fresh = returnCloseAt s := rfl
@[simp] theorem cutoffAt_fresh (s : State) : cutoffAt s.fresh = cutoffAt s := rfl
@[simp] theorem storeUsable_fresh (s : State) : storeUsable s.fresh = storeUsable s := rfl
@[simp] theorem evrFull_fresh (s : State) : evrFull s.fresh = evrFull s := rfl
@[simp] theorem exporter_fresh (s : State) : exporter s.fresh = exporter s := rfl
@[simp] theorem onSource_fresh (s : State) : onSource s.fresh = onSource s := rfl
@[simp] theorem allQuiet_fresh (s : State) : allQuiet s.fresh = allQuiet s := rfl
@[simp] theorem storageUsable_fresh (s : State) : storageUsable s.fresh = storageUsable s := rfl
@[simp] theorem nextFrame_fresh (s : State) : nextFrame s.fresh = nextFrame s := rfl
@[simp] theorem nextPort_fresh (s : State) : nextPort s.fresh = nextPort s := rfl
@[simp] theorem windowClose_fresh (s : State) : windowClose s.fresh = windowClose s := rfl
@[simp] theorem dumpSending_fresh (s : State) : dumpSending s.fresh = dumpSending s := rfl
@[simp] theorem imageBytes_fresh (s : State) : imageBytes s.fresh = imageBytes s := rfl
@[simp] theorem areaBytes_fresh (s : State) : areaBytes s.fresh = areaBytes s := rfl
@[simp] theorem firmwareBusy_fresh (s : State) : firmwareBusy s.fresh = firmwareBusy s := rfl
@[simp] theorem auditLead_fresh (s : State) : auditLead s.fresh = auditLead s := rfl
@[simp] theorem auditLevels_fresh (s : State) : auditLevels s.fresh = auditLevels s := rfl
@[simp] theorem doorAt_fresh (d : Nat) (s : State) : doorAt d s.fresh = doorAt d s := rfl
@[simp] theorem liveAt_fresh (d : Nat) (s : State) : liveAt d s.fresh = liveAt d s := rfl
@[simp] theorem carries_fresh (d : Nat) (s : State) : carries d s.fresh = carries d s := rfl
@[simp] theorem carriesDown_fresh (d : Nat) (s : State) : carriesDown d s.fresh = carriesDown d s := rfl
@[simp] theorem portAt_fresh (p : Nat) (s : State) : portAt p s.fresh = portAt p s := rfl
@[simp] theorem portLive_fresh (p : Nat) (s : State) : portLive p s.fresh = portLive p s := rfl
@[simp] theorem tileAt_fresh (x : Nat) (s : State) : tileAt x s.fresh = tileAt x s := rfl
@[simp] theorem markAt_fresh (m : Nat) (s : State) : markAt m s.fresh = markAt m s := rfl
@[simp] theorem sessionOf_fresh (i : Nat) (s : State) : sessionOf i s.fresh = sessionOf i s := rfl
@[simp] theorem ctxAt_fresh (k : Nat) (s : State) : ctxAt k s.fresh = ctxAt k s := rfl
@[simp] theorem cageAt_fresh (c : Nat) (s : State) : cageAt c s.fresh = cageAt c s := rfl
@[simp] theorem regionOf_fresh (g : Nat) (s : State) : regionOf g s.fresh = regionOf g s := rfl
@[simp] theorem srcAt_fresh (k : Nat) (s : State) : srcAt k s.fresh = srcAt k s := rfl
@[simp] theorem wptAt_fresh (w : Nat) (s : State) : wptAt w s.fresh = wptAt w s := rfl
@[simp] theorem encodes_fresh (k : Nat) (s : State) : encodes k s.fresh = encodes k s := rfl
@[simp] theorem entryOf_fresh (k : Nat) (s : State) : entryOf k s.fresh = entryOf k s := rfl
@[simp] theorem probeAt_fresh (k : Nat) (s : State) : probeAt k s.fresh = probeAt k s := rfl
@[simp] theorem busKind_fresh (b : Nat) (s : State) : busKind b s.fresh = busKind b s := rfl
@[simp] theorem isParentEnd_fresh (d : Nat) (s : State) : isParentEnd d s.fresh = isParentEnd d s := rfl
@[simp] theorem kindOf_fresh (e : Nat) (s : State) : kindOf e s.fresh = kindOf e s := rfl
@[simp] theorem mayBegin_fresh (k : Nat) (s : State) : mayBegin k s.fresh = mayBegin k s := rfl
@[simp] theorem laneEnd_fresh (d l : Nat) (s : State) : laneEnd d l s.fresh = laneEnd d l s := rfl
@[simp] theorem laneUsed_fresh (d l : Nat) (s : State) : laneUsed d l s.fresh = laneUsed d l s := rfl

end Sys2Proof.Machine
end

