-- ==== Sys2Proof/WellFormed.lean ====
section
/-! DEFINITION. Which commands are well formed: operands within the widths and counts that the ports give them. The
meanings are total and do not rely on it; a command outside these bounds is one that no port can present. -/
namespace Sys2Proof

/-- A door index: doors 0 to 99, and the second lane of split root door d at d + 100 (R444, R145). -/
def doorOk (d : Nat) : Bool := d < 200

/-- A stamp of Table TIM-1. -/
def Stamp.wf (t : Stamp) : Bool := t.sec < 2 ^ 64 && t.ns < 1000000000 && t.sub < 65536

/-- A parameter as R374 carries it. -/
def Tlv.wf (t : Tlv) : Bool := t.ty < 65536 && t.val.length ≤ 2012

/-- A packet past row 7: session and sequence in their fields' ranges, version 1 or 2 (Table CMD-1). -/
def Request.wf (r : Request) : Bool :=
  r.session < 65536 && 1 ≤ r.seq && r.seq < 2 ^ 32 && (r.version == 1 || r.version == 2) && r.body.all Tlv.wf

/-- An endpoint. -/
def Endpoint.wf (e : Endpoint) : Bool := e.addr.length == 16 && e.port < 65536

/-- What the ports present at start-up. -/
def StartEnv.wf (e : StartEnv) : Bool :=
  e.config.length == 256 && e.decls.all (fun d => d.1 < 64 && d.2.all (·.length == 16)) &&
  e.sensorMap.length == 80 && e.trim.length == 144 && e.doorLat.all (fun p => p.1 < 4096 && p.2 < 4096) && e.stopDecl.regions.length ≤ 128 && e.stopDecl.channels.length ≤ 64

/-- An increment word (R448). -/
def IncWord.wf (w : IncWord) : Bool := w.entry < 1024 && w.amount < 65536

/-- A window event (Table PWR-4). -/
def WinEvent.wf (e : WinEvent) : Bool :=
  e.code < 65536 && e.entity < 4096 && e.payload.length == 12 && (e.size.getD 0) < 2 ^ 32 && e.clock < 4 && e.before < 4

/-- A watched access (Table PWR-6). -/
def Access.wf (a : Access) : Bool := a.bus < 16 && a.granule < 2 ^ 42 && 1 ≤ a.len && a.len ≤ 4

/-- Operands within the ports' widths. -/
def wellFormed : Instr → Bool
  | .supplyValid p h => p < 2 ^ 32 && h < 2 ^ 32
  | .sramUncorrectableError b a => b < 256 && a < 2 ^ 32
  | .leaveReset e => e.wf
  | .sampledValue p _ => p < 64
  | .sampleLate p => p < 64
  | .incrementWord p ws => p < 64 && 1 ≤ ws.length && ws.length ≤ 4 && ws.all IncWord.wf
  | .windowEvent _ p e => p < 64 && e.wf
  | .stretchEpisodeEnd _ p _ => p < 64
  | .entityEvaluated l => l < 16
  | .contributionArrival _ d _ => doorOk d
  | .summaryArrival _ d _ => doorOk d
  | .rootCheckArrival _ d b => doorOk d && b.length ≤ 120
  | .rootParametersArrival _ d _ => doorOk d
  | .returnedSummaryArrival _ d _ _ => doorOk d
  | .exchangeInterval _ d => doorOk d
  | .timeFlitArrival _ d _ b => doorOk d && b.length == 64
  | .sensorConversionRequest c => c < 80
  | .sensorAnswer c v => c < 80 && v < 65536
  | .sensorRequestTimeout c => c < 80
  | .flitReceive _ d f => doorOk d && f.length == 128
  | .replayTimeout d => doorOk d
  | .laneLockLoss d l => doorOk d && l < 2
  | .laneRetire d l _ => doorOk d && l < 2
  | .trainingAttemptTimeout d => doorOk d
  | .quarantineEnd d => doorOk d
  | .helloArrival _ d b => doorOk d && b.length == 48
  | .commandMessageArrival _ d _ _ _ => doorOk d
  | .replyMessageArrival d _ _ => doorOk d
  | .managementDatagram _ e _ _ => e.wf
  | .fragmentReassemblyTimeout e _ => e.wf
  | .errorRecordMessage d _ => doorOk d
  | .recordAcknowledgement d _ => doorOk d
  | .traceBundle s as c => s < 64 && 1 ≤ as.length && as.length ≤ 2 && c < 2 ^ 48
  | .lowPowerEntry s l c => s < 64 && l < 16 && c < 2 ^ 48
  | .lowPowerExit s _ c => s < 64 && c < 2 ^ 48
  | .timeIntervalElapse s c => s < 64 && c < 2 ^ 48
  | .chunkFlushTime s => s < 64
  | .traceMessageArrival _ d _ => doorOk d
  | .triggerNoticeArrival _ d _ => doorOk d
  | .watchpointAccess _ a => a.wf
  | .watchedReadData b d => b < 16 && d.length == 64
  | .probeSchedulerPass ts => ts.length == 40
  | .probeDone t _ => t < 40
  | .probeDurationExpiry t => t < 40
  | .probeAbortTimeout t => t < 40
  | .retestLimitExpiry t => t < 40
  | .probeStarved t => t < 40
  | .probeRunTimeout t => t < 40
  | .probePackArrival d _ => doorOk d
  | .packOutcomeArrival d _ => doorOk d
  | .scanImageArrival d _ _ => doorOk d
  | .hangDumpArrival d _ _ => doorOk d
  | .reserveArrival d _ => doorOk d
  | .traceReadoutArrival d _ => doorOk d
  | .recorderMirrorArrival d _ => doorOk d
  | .auditRecordArrival d _ => doorOk d
  | .auditNodeArrival d _ => doorOk d
  | .auditTransfer c d => c < 16 && 1 ≤ d.length && d.length ≤ 32
  | .bootRequestArrival d _ => doorOk d
  | .cutArrival _ d _ => doorOk d
  | .cutOutcomeReport d _ _ => doorOk d
  | .regionStopAck r n _ c _ => r < 128 && n < 16 && c < 4
  | .regionAckTimeout r => r < 128
  | .channelClosed c st _ _ => c < 64 && st < 8
  | .regionResetPulse r => r < 128
  | .regionReleased r => r < 128
  | .storageCompletion t st => t < 32 && st < 4
  | .storeCompletion k _ st => k < 6 && st < 4
  | .storeReadyChange k _ => k < 6
  | .patrolScrub b _ _ => b < 256
  | .bankChangeComplete b => b < 256
  | .serviceWindowClose c => c < 96
  | .hostDoorWrite a => a.offset < 2 ^ 19 && (a.width == 1 || a.width == 2 || a.width == 4)
  | .w1cWrite o _ _ => o < 2 ^ 19
  | .frameSet r | .frameGet r | .frameSetGroup r | .frameGetStats r | .frameGetPresence r | .frameGetContribution r
  | .timeGet r | .timeSet r | .timeSetSource r | .timeSetTod r | .timeSetCal r | .timeSetServo r | .timeSetUtc r
  | .timeStepRoot r | .winGet r | .winSetEnable r | .winGetStream r | .ctrRead r | .ctrClear r | .ctrGetMap r
  | .senRead r | .senGet r | .senStageTrim r | .senActivateTrim r | .redStageCatalogue r | .redActivateCatalogue r
  | .redGetCatalogue r | .redGetSummary r | .redGetReturned r | .redTest r | .redGetCheck r | .doorGet r | .doorSet r
  | .doorRetrain r | .doorClearQuarantine r | .doorGetStats r | .feaStageTable r | .feaActivateTable r
  | .feaGetTable r | .feaGetVector r | .plnRead r | .plnReset r | .plnGetAlarms r | .glenStagePage r
  | .glenActivate r | .glenDeactivate r | .glenGet r | .glenSetMode r | .glenSetStraggler r | .glenEval r
  | .glenTestLink r | .glenGetFindings r | .glenGetHistory r | .probeInstallPack r | .probeActivatePack r
  | .probePushPack r | .probeEndPush r | .probeGetPush r | .probeSet r | .probeGet r | .probeGetCoverage r
  | .probeClearCoverage r | .probeDisableTile r | .probeResumeTile r | .probeRun r | .errSetRoute r | .errFetch r
  | .errGet r | .errReadRing r | .errInject r | .errSetExport r | .errGetSignatures r | .psnGetBirths r
  | .psnGetCounts r | .trcSet r | .trcGet r | .trcTrigger r | .trcArm r | .trcGetTriggers r | .trcRead r
  | .trcReadHistory r | .trcSetHistory r | .trcGetStats r | .wptSet r | .wptGet r | .wptEnableData r
  | .wptDisableData r | .wptReadCapture r | .shutterSet r | .shutterStop r | .shutterArmTimed r
  | .shutterCancelTimed r | .shutterScan r | .shutterAbortScan r | .shutterResume r | .shutterSetHang r
  | .shutterStageProgram r | .shutterActivateProgram r | .shutterGet r | .shutterGetCut r | .shutterSetArea r
  | .shutterListImages r | .shutterReadImage r | .shutterReleaseImage r | .shutterReadScan r | .cdcGet r | .cdcTest r
  | .evrRead r | .evrGet r | .evrClear r | .evrReadMirror r | .evrGetMirror r | .evrClearMirror r | .srmGet r
  | .srmSetBank r | .srmGetMap r | .hshGet r | .hshSetAudit r | .hshGetDigest r | .hshGetJobDigest r | .secGet r
  | .secGetCert r | .secOpenSession r | .secCloseSession r | .secRotateKey r | .secSelfTest r | .secStageFirmware r
  | .secHandover r | .cmdGet r | .cmdEcho r | .pwrGet r | .pwrSet r | .pnlGet r | .pnlSetLed r | .pnlGetLog r => r.wf
  | .externalBlockReset | .watchdogExpiry | .ready | .selfTestComplete _ | .entropyTestFailure | .firmwareBoot
  | .hourCounterExpiry | .tick | .startUpSpanElapsed | .recoverySpanElapsed | .snapshotSwap | .trackerUpdateEnd
  | .sendCutoff | .passItemBegin _ | .passItemApplied _ | .inputClose | .hubMark | .rootMark | .podSelectPoint
  | .traySelectPoint | .returnMark | .returnClose | .filterPeriodEnd | .holdoverEntry | .holdoverLimitExceeded
  | .secondaryOwnSource | .ptpMessage _ _ | .delayReq _ | .ptpSyncLoss | .ppsEdge _ | .eventService
  | .commandHoldTimeout | .returnTagExpiry _ | .icmpv6Message _ | .errorEntrySend | .exportPeriodEnd
  | .traceChunkSend | .stopInstant | .trayTriggerAtTime | .captureExpiry | .passingRecordDrop
  | .reserveReplyArrival _ | .mirrorEntrySend | .auditClose _ _ | .auditLoss _ | .bootImageArrival _ | .trialEnd
  | .timedStopInstant | .scanEnd _ | .resumeInstant | .hangDeclared | .codecBlock | .recorderWrite
  | .recorderClearDone | .partialLogFlush | .panelInputAccepted _ _ _ | .holdPress | .commandTake _ _
  | .timeLatchRead _ | .counterLatchRead | .recorderLatchRead | .errorRingLatchRead | .supplyLoss
  | .storageReadyChange _ _ => true

end Sys2Proof
end

