-- ==== Sys2Proof/Tests/Slice0.lean ====
section
/-! SUPPORT. Small tests, and for every statement with hypotheses a state and operands that meet them (`meets_…`). -/
namespace Sys2Proof.Tests
set_option Elab.async false
open Sys2Proof.Machine

/-! ### States and requests -/

def key : Bytes := (List.range 32).map (BitVec.ofNat 8 ·)

/-- A working block of an identity, with one session that holds every authorisation, in frame 100. -/
def unit (hub : Bool) (id : Nat) : State :=
  let z := State.resetFor { hub := hub }
  { z with cfg := { z.cfg with unitId := BitVec.ofNat 32 id }
           pwr := { z.pwr with phase := .working, cycles := 5000000 }
           time := { z.time with running := true, now := 100000000 * nsUnit }
           frame := { z.frame with last := some 100, tickAt := 100000000 * nsUnit }
           sec := { z.sec with boundary := .operational, active := some 0
                               sessions := [{ id := 1, auth := 63, key := key, notAfter := 2 ^ 90 }] } }

def die : State := unit false 5
def tray : State := unit true 0x80004003
def pod : State := unit true 0x80008004
def root : State := unit true 0x8000C000
def root2 : State := unit true 0x8000E000

/-- With door `d` up in a direction. -/
def up (d dir : Nat) (s : State) : State := setDoor d (fun x => { x with dir := dir, enabled := true, state := .up }) s

def stores (s : State) : State := { s with mem := { s.mem with storeRdy := List.replicate 6 true, ssRdy := true, ssCap := 200000 } }

def n (ty len v : Nat) : Tlv := ⟨ty, toLe len v⟩
def frame_ (f : Nat) : Tlv := n tFrame 8 f
def index (k : Nat) : Tlv := n tIndex 4 k
def choice_ (k : Nat) : Tlv := n tChoice 4 k
def set (k len v : Nat) : Tlv := n (tSetting k) len v
def tag (g v : Nat) : Tlv := ⟨tGroupTag, toLe 4 g ++ toLe 4 v⟩
def at_ (sec : Nat) : Tlv := ⟨tTime, toLe 8 sec ++ zeros 8⟩
def piece (size off : Nat) (b : Bytes) : Tlv := ⟨tPiece, toLe 4 size ++ toLe 4 off ++ b⟩
def req (b : List Tlv) : Request := { after := 0, path := .host, session := 1, version := 2, seq := 1, body := b }

theorem test_roles : isDie die ∧ isTray tray ∧ isPod pod ∧ isPrimary root ∧ isSecondary root2 := by decide

/-! ### Well-formed commands, and one that each check refuses -/

theorem test_well_formed : wellFormed (.frameGet (req [frame_ 5])) = true ∧ wellFormed (.ready) = true ∧ wellFormed (.sampledValue 63 0) = true := by decide

theorem test_ill_formed_requests : [req [⟨65536, []⟩], { req [] with session := 65536 }, { req [] with seq := 0 }, { req [] with seq := 2 ^ 32 },
    { req [] with version := 3 }, req [⟨16, zeros 2013⟩]].map (fun r => wellFormed (.cmdEcho r)) = List.replicate 6 false := by decide +kernel

def env (c : Bytes) : StartEnv :=
  { config := c, doorLat := [], decls := [], sensorMap := List.replicate 80 0, trim := List.replicate 144 0, repairs := [], kernelLib := 0, kernelCount := 0, tilePort := [], traceDecl := []
    watchDecl := [], stopDecl := { clockKHz := 1000, regions := [], channels := [] }, stoppedRegions := [], stacksPowered := true }
def host (len : Nat) : Endpoint := ⟨zeros len, 0⟩
def event : WinEvent := { code := 1, entity := 0, payload := zeros 12, size := none, clock := 0, before := 0 }
def access : Access := { bus := 0, granule := 0, len := 1, write := true, data := none }

theorem test_ill_formed_power : [Instr.supplyValid (2 ^ 32) 0, .supplyValid 0 (2 ^ 32), .sramUncorrectableError 256 0, .sramUncorrectableError 0 (2 ^ 32),
    .leaveReset (env []), .leaveReset { env (zeros 256) with decls := [(64, [])] }, .leaveReset { env (zeros 256) with decls := [(0, [[]])] },
    .leaveReset { env (zeros 256) with sensorMap := [] }, .leaveReset { env (zeros 256) with trim := [] }, .leaveReset { env (zeros 256) with doorLat := [(0, 4096)] },
    .leaveReset { env (zeros 256) with stopDecl := ⟨0, List.replicate 129 (0, 0), []⟩ },
    .leaveReset { env (zeros 256) with stopDecl := ⟨0, [], List.replicate 65 (0, 0, 0)⟩ },
    .storageCompletion 32 0, .storageCompletion 0 4, .storeCompletion 6 0 0, .storeCompletion 0 0 4, .storeReadyChange 6 true, .patrolScrub 256 0 true,
    .bankChangeComplete 256, .serviceWindowClose 96].map wellFormed = List.replicate 20 false := by decide +kernel

theorem test_ill_formed_ports : [Instr.sampledValue 64 0, .sampleLate 64, .incrementWord 64 [⟨0, 0⟩], .incrementWord 0 [], .incrementWord 0 (List.replicate 5 ⟨0, 0⟩),
    .incrementWord 0 [⟨1024, 0⟩], .incrementWord 0 [⟨0, 65536⟩], .windowEvent 0 64 event, .windowEvent 0 0 { event with code := 65536 },
    .windowEvent 0 0 { event with entity := 4096 }, .windowEvent 0 0 { event with payload := [] }, .windowEvent 0 0 { event with size := some (2 ^ 32) },
    .windowEvent 0 0 { event with clock := 4 }, .windowEvent 0 0 { event with before := 4 }, .stretchEpisodeEnd 0 64 0, .entityEvaluated 16, .sensorConversionRequest 80, .sensorAnswer 80 0,
    .sensorAnswer 0 65536, .sensorRequestTimeout 80].map wellFormed = List.replicate 20 false := by decide +kernel

theorem test_ill_formed_messages : [Instr.contributionArrival 0 200 [], .summaryArrival 0 200 [], .rootCheckArrival 0 200 [], .rootCheckArrival 0 0 (zeros 121),
    .rootParametersArrival 0 200 [], .returnedSummaryArrival 0 200 false [], .exchangeInterval 0 200, .timeFlitArrival ⟨0, 0⟩ 200 false (zeros 64),
    .timeFlitArrival ⟨0, 0⟩ 0 false [], .flitReceive 0 200 (zeros 128), .flitReceive 0 0 [], .replayTimeout 200, .laneLockLoss 200 0, .laneLockLoss 0 2,
    .laneRetire 200 0 0, .laneRetire 0 2 0, .trainingAttemptTimeout 200, .quarantineEnd 200, .helloArrival 0 200 (zeros 48), .helloArrival 0 0 [],
    .commandMessageArrival 0 200 0 0 [], .replyMessageArrival 200 0 [], .managementDatagram 0 (host 15) none [], .managementDatagram 0 ⟨zeros 16, 65536⟩ none [],
    .fragmentReassemblyTimeout (host 15) 0, .errorRecordMessage 200 [], .recordAcknowledgement 200 []].map wellFormed = List.replicate 27 false := by decide +kernel

theorem test_ill_formed_trace : [Instr.traceBundle 64 [0] 0, .traceBundle 0 [] 0, .traceBundle 0 [0, 0, 0] 0, .traceBundle 0 [0] (2 ^ 48), .lowPowerEntry 64 0 0,
    .lowPowerEntry 0 16 0, .lowPowerEntry 0 0 (2 ^ 48), .lowPowerExit 64 0 0, .lowPowerExit 0 0 (2 ^ 48), .timeIntervalElapse 64 0,
    .timeIntervalElapse 0 (2 ^ 48), .chunkFlushTime 64, .traceMessageArrival 0 200 [], .triggerNoticeArrival 0 200 [],
    .watchpointAccess 0 { access with bus := 16 }, .watchpointAccess 0 { access with granule := 2 ^ 42 }, .watchpointAccess 0 { access with len := 0 },
    .watchpointAccess 0 { access with len := 5 }, .watchedReadData 16 (zeros 64), .watchedReadData 0 [], .traceReadoutArrival 200 []].map wellFormed =
  List.replicate 21 false := by decide +kernel

def ran : ProbeResult := { status := 0, signature := 0, cycles := 0, busy := 0 }

theorem test_ill_formed_units : [Instr.probeSchedulerPass [], .probeDone 40 ran, .probeDurationExpiry 40, .probeAbortTimeout 40, .retestLimitExpiry 40, .probeStarved 40,
    .probeRunTimeout 40, .probePackArrival 200 [], .packOutcomeArrival 200 [], .scanImageArrival 200 0 [], .hangDumpArrival 200 0 [], .reserveArrival 200 [],
    .recorderMirrorArrival 200 [], .auditRecordArrival 200 [], .auditNodeArrival 200 [], .auditTransfer 16 [0], .auditTransfer 0 [], .auditTransfer 0 (zeros 33),
    .bootRequestArrival 200 [], .cutArrival 0 200 ⟨0, 0, ⟨0, 0, 0⟩, 0, none⟩, .cutOutcomeReport 200 0 [], .regionStopAck 128 0 0 0 0, .regionStopAck 0 16 0 0 0,
    .regionStopAck 0 0 0 4 0, .regionAckTimeout 128, .channelClosed 64 0 0 0, .channelClosed 0 8 0 0, .regionResetPulse 128, .regionReleased 128,
    .hostDoorWrite ⟨true, 2 ^ 19, 4, 0⟩, .hostDoorWrite ⟨true, 0, 3, 0⟩, .w1cWrite (2 ^ 19) 0 0].map wellFormed = List.replicate 32 false := by decide +kernel

/-- No word spells a command (log entry 1). -/
theorem test_decode : ∀ b w, decodeTableWord b w = none := fun _ _ => rfl

/-! ### Requests that the opcodes take: one for each row of each list -/

def readers (xs : List Reader) (ps : List (List Tlv × State)) : List Bool := List.zipWith (fun x p => x.meets (req p.1) p.2) xs ps
def deferrals (xs : List Deferral) (ps : List (List Tlv × State)) : List Bool :=
  List.zipWith (fun x p => x.meets (req (frame_ 200 :: p.1)) p.2 && x.meets (req (frame_ 100 :: p.1)) p.2 && decide (curFrame (taken (req []) p.2) = 100)) xs ps
def immediates (xs : List Immediate) (ps : List (List Tlv × State)) : List Bool := List.zipWith (fun x p => x.meets (req p.1) p.2) xs ps
def yes (k : Nat) : List Bool := List.replicate k true

def kept : State := { die with frame := { die.frame with history := [(60, [1])] } }
theorem meets_frameReaders : readers frameReaders [([], die), ([], die),
    ([frame_ 60], { tray with hub := { tray.hub with maps := [(60, zeros 16)] } }), ([frame_ 60], kept), ([], die)] = yes 5 := by decide +kernel
theorem meets_windowReaders : readers windowReaders [([index 0], die), ([n tEntity 4 7], { die with fea := { die.fea with active := none }, win := { die.win with
    streams := [(7, {})] } }), ([index 3, choice_ 0], die), ([], die), ([index 79], die), ([], die)] = yes 6 := by decide +kernel

def metric (k : Nat) : Metric :=
  { index := k, source := 0, sum := true, squares := true, min := true, max := true, sketch := true, ret := true, scale := 0, unit := 0, ref := 0, kinds := 1, select := 0 }
def catalogue : Catalogue := { group := 0, version := 1, metrics := [metric 0], image := [] }
def table : FeatTable :=
  { version := 1, sigKinds := [0], lookups := [], values := [], entities := [(0, ⟨0, 0, 0xFFFF, 0, 0⟩), (7, ⟨6, 0, 0xFFFF, 0, 0⟩)], features := [], sigMap := []
    trackers := [{ signal := 0, kinds := 1, k := 4, kappa := 0, h := 0, window := 16, warmup := 0, raw := [] }], image := [] }
def page (hub : Bool) : Page :=
  { version := 3, engine := 0, engines := if hub then 1 else 1, features := 0, tableVersion := 1, firstTree := 0, modelTrees := 0, heads := [], trees := [], image := [] }
/-- With a feature table, its tracker and a model. -/
def learnt (s : State) : State :=
  { s with fea := { s.fea with active := some table, staged := some table, trackers := [{ metric := 0, entity := 0 }] }
           glen := { s.glen with active := [page s.build.hub], staged := [page s.build.hub] } }
def summed : State :=
  { learnt die with frame := { (learnt die).frame with history := [(60, [1])], summary := some (60, zeros 160) } }
def checked : State := { root with hub := { root.hub with checks := [{ frame := 60, own := [], ownDigest := zeros 32, peer := none, outcome := 1, standby := 0 }] } }

theorem meets_reduceReaders : readers reduceReaders [([index 0], die), ([frame_ 60], summed), ([], summed), ([⟨tData, zeros 8⟩, set 0 4 0], die), ([frame_ 60], checked),
    ([], die), ([n tEntity 4 0], summed), ([index 0, n tEntity 4 0], summed), ([index 0], summed)] = yes 9 := by decide +kernel
theorem meets_glenReaders : readers glenReaders [([], summed), ([n tEntity 4 0, ⟨tData, []⟩], summed), ([⟨tData, zeros 4⟩], die), ([frame_ 60], die),
    ([index 15, n tEntity 4 4095], die)] = yes 5 := by decide +kernel

def pushed : Push := { hash := zeros 32, pack := zeros 192, frame := none }
def pushingHub : State := { tray with prb := { tray.prb with pushes := [pushed] } }
theorem meets_probeReaders : readers probeReaders [([], pushingHub), ([index 0], die), ([index 0, index 39], die)] = yes 3 := by decide +kernel

def rung : State := { die with err := { die.err with ring := [{ seq := 4, severity := 1, bytes := zeros 64 }] } }
theorem meets_errorReaders : readers errorReaders [([], die), ([n tSeq 8 4], rung), ([], tray), ([], die), ([], die)] = yes 5 := by decide +kernel

def localTrace : State := { die with trc := { die.trc with set := { die.trc.set with mode := trcLocal } } }
theorem meets_traceReaders : readers traceReaders [([], die), ([], die), ([], localTrace), ([at_ 5], stores tray), ([], tray), ([index 3], die)] = yes 6 := by decide +kernel

def cut : State := { tray with sht := { tray.sht with cuts := [{ serial := 9, at_ := 2 ^ 80, outcomes := [] }] } }
def imaged : State := { stores tray with sht := { tray.sht with images := [{ die := 5, serial := 2, kind := 1, bytes := zeros 64 }] } }
theorem meets_shutterReaders : readers shutterReaders [([], die), ([n tSerial 4 9], cut), ([], stores tray), ([n tUnit 4 5, n tSerial 4 2], imaged), ([], die)] = yes 5 := by
  decide +kernel

def recorded : State := { die with evr := { die.evr with valid := true, base := 1, head := 2, slots := [zeros 64] }
                                   aud := { die.aud with records := [zeros 8 ++ toLe 4 6 ++ zeros 12 ++ toLe 8 50] } }
def jobs : State := { root with aud := { root.aud with jobs := [toLe 4 6 ++ toLe 8 50] } }
theorem meets_recordReaders : readers recordReaders [([n tSeq 8 1], recorded), ([], die), ([n tUnit 4 0x80004003, n tSeq 8 1], tray), ([], tray), ([], die), ([], die),
    ([frame_ 50, tag 0 6], recorded), ([frame_ 50, tag 0 6], jobs)] = yes 8 := by decide +kernel

def logged : State := { tray with pnl := { tray.pnl with log := [zeros 32], logSeq := 7 } }
theorem meets_unitReaders : readers unitReaders [([index 0], die), ([], tray), ([], die), ([], root), ([⟨tData, zeros 1984⟩], die), ([], pod), ([], tray),
    ([n tSeq 8 6], logged)] = yes 8 := by decide +kernel

/-! Deferrals: at frame 200 they are taken, at frame 100 they are refused. -/

def declared : State := { setPort 3 (fun p => { p with state := 1 }) die with win := { (setPort 3 (fun p => { p with state := 1 }) die).win with trimStaged := some ⟨1, []⟩ } }
theorem meets_windowDeferrals : deferrals windowDeferrals [([tag 63 8], die), ([index 3, n tFlag 4 1], declared), ([⟨tRange, toLe 4 0 ++ toLe 4 8192⟩], die),
    ([], declared), ([set 0 1 1, set 1 1 0], die), ([index 0, set 1 4 255, set 2 4 3600], die)] = yes 6 := by decide +kernel

def catStaged : State := { die with catsStaged := [(0, catalogue)] }
theorem meets_featureDeferrals : deferrals featureDeferrals [([], catStaged), ([], learnt die), ([index 0], learnt die), ([n tVersion 4 3], learnt die), ([], learnt die),
    ([set 0 4 3, set 1 4 65535], die), ([set 0 1 1, set 1 4 1023, set 3 4 1, set 4 4 16], die)] = yes 7 := by decide +kernel

def packed : State := { die with prb := { die.prb with staged := some ⟨1, zeros 32, []⟩, tiles := modifyAt 39 (fun x => { x with hung := true }) die.prb.tiles } }
theorem meets_probeDeferrals : deferrals probeDeferrals [([], packed), ([set 0 1 1, set 2 4 255], die), ([], die), ([index 39], die), ([index 39], packed)] = yes 5 := by
  decide +kernel

def bused : State := { die with wpt := { die.wpt with buses := [0, 0, 0, 0x1000] } }
def programmed : State := { die with sht := { die.sht with staged := some ⟨1, 0, 0, 0, [], []⟩ } }
theorem meets_traceDeferrals : deferrals traceDeferrals [([set 0 4 1, set 3 4 65535], die), ([set 0 4 720], stores tray), ([index 31, set 0 1 1, set 1 2 8, set 4 1 1], bused), ([set 0 1 31], die),
    ([index 0, set 0 4 10], die), ([], programmed), ([set 0 4 32], stores tray)] = yes 7 := by decide +kernel

def verified2 (s : State) : State := { s with sec := { s.sec with slots := [{}, { verified := true }] }, mem := { s.mem with fw := { s.mem.fw with dieStaged := true } } }
theorem meets_securityDeferrals : deferrals securityDeferrals [([tag 0 4, ⟨tData, zeros 64⟩], root), ([], die), ([], verified2 die),
    ([choice_ 1], verified2 tray)] = yes 4 := by decide +kernel

/-! Opcodes that act at once. -/

def onPulses : State := { root with time := { root.time with source := 1 } }
theorem meets_timeImmediates : immediates timeImmediates [([at_ 5], die), ([set 0 4 2, set 1 4 127], root), ([set 0 8 12], onPulses), ([index 0, set 0 4 32767], up 0 2 die),
    ([set 2 4 1000], die), ([set 0 4 37, set 1 1 1], root)] = yes 6 := by decide +kernel
def authorised : State := { die with wpt := { die.wpt with auth := some (1, 300) } }
theorem meets_reportImmediates : immediates reportImmediates [([choice_ 1], die), ([choice_ 0x80, n tEntity 4 0, ⟨tData, zeros 12⟩], die), ([set 2 4 65535], tray), ([], die),
    ([], tray), ([at_ 9000], tray), ([], tray), ([frame_ 200], die), ([], authorised)] = yes 9 := by decide +kernel

def sht (s : State) (k : Nat) : State := { s with sht := { s.sht with state := k, sources := 31 } }
def armedDie : State := { sht die shArmed with sht := { (sht die shArmed).sht with arm := some ⟨9, 2 ^ 80, 1, none⟩ } }
theorem meets_shutterImmediates : immediates shutterImmediates [([choice_ 2], sht die shIdle), ([at_ 9000, at_ 9001, choice_ 1], sht die shIdle), ([at_ 9000, choice_ 1], tray),
    ([n tSerial 4 9], armedDie), ([n tSerial 4 9], cut), ([choice_ 2], up 0 2 (sht die shStopped)), ([], sht die shScanning), ([at_ 9000, n tSerial 4 9], cut),
    ([], sht die shScanned), ([n tUnit 4 5, n tSerial 4 2], imaged)] = yes 10 := by decide +kernel

def quarantined : State := setDoor 0 (fun x => { x with quarantined := true }) die
theorem meets_unitImmediates : immediates unitImmediates [([], die), ([n tUnit 4 0x80004003], tray), ([⟨tMask, [1]⟩, set 0 4 4, set 1 1 1], tray), ([index 0], up 0 2 die),
    ([index 0], quarantined), ([], pushingHub), ([index 24, choice_ 0], die), ([choice_ 0], up 0 2 die)] = yes 8 := by decide +kernel

def ready : State := { die with prb := { die.prb with active := some ⟨1, zeros 32, [⟨5, 0, 0, 0, 0, 0, 0⟩]⟩ } }
theorem meets_starters : immediates starters [([index 39, index 5], ready), ([index 24, choice_ 1], die), ([], die)] = yes 3 := by decide +kernel

/-! Images in pieces. -/

def opensAt (xs : List Stager) (ps : List (List Tlv × State)) : List Bool := List.zipWith (fun x p =>
  let r := req p.1; let t := taken r p.2
  x.meets r p.2 && opens (x.slot r.body t) r.body && decide ((pieceOf r.body).2.2.length < (pieceOf r.body).1) && (val? tFrame r.body).isNone) xs ps

/-- The request carries the piece at offset 64 of 128 bytes' `size`, behind an assembly of 64. -/
def continuesAt (size : Nat) (xs : List Stager) (ps : List (List Tlv × State)) : List Bool := List.zipWith (fun x p =>
  let r := req (p.1 ++ [piece size 64 (zeros 64)]); let s := p.2; let s := { s with asm := [⟨(x.slot r.body s).key, 1, size, zeros 64⟩] }; let t := taken r s
  x.meets r s && continues (x.slot r.body t) 1 r.body t && (assemblyOf (x.slot r.body t).key t).isSome && decide (128 ≤ size) && (val? tFrame r.body).isNone) xs ps

def stocked : State := { stores tray with sec := { tray.sec with slots := [{}, {}] } }
def img (k : Nat) : Tlv := piece 4096 0 (toLe 4 k ++ zeros 60)

theorem meets_stagers_open : opensAt stagers [([img 0], die), ([img 0], die), ([img 0], die), ([img 0], die), ([img 0], die), ([img 0], tray), ([img 0], die),
    ([choice_ 1, img 0], stocked)] = yes 8 ∧ opensAt laterStagers [([img 0], die), ([choice_ 0, img 0, set 0 4 1, set 1 4 16], die)] = yes 2 := by decide +kernel
theorem meets_stagers_go_on : [128, 256].map (fun n => continuesAt n stagers [([], die), ([], die), ([], die), ([], die), ([], die), ([], tray), ([], die),
    ([choice_ 1], stocked)]) = [yes 8, yes 8] ∧ continuesAt 256 laterStagers [([], die), ([choice_ 0], die)] = yes 2 := by decide +kernel

/-- Signed by a key that was chosen for the digest: `z` is the digest and the signature's two numbers. -/
def signedBy (kind z : Nat) (img : Bytes) : Bytes := img ++ (toLe 2 1 ++ toLe 1 kind ++ toLe 1 0 ++ toLe 4 img.length ++ zeros 24 ++ toLe 48 z ++ toLe 48 z)
def trusting (x y : Nat) (s : State) : State := { s with sec := { s.sec with anchors := modifyAt 0 (fun _ => some ⟨x, y, 0xFF, false⟩) s.sec.anchors } }
def packImage : Bytes := signedBy 3 0x6b0d19b22df5b7b689cbe384c94371126c6c114e1f6c99a6134ed4ae9d161e1 (toLe 4 2 ++ toLe 2 1 ++ zeros 2 ++ toLe 4 36 ++ zeros 52)
def receiving : State := { trusting 0x854f54ec2bf1cf882c0a657c28ef11003352a13f03c0b311d9e276ecd4a8f229332c5f2520e9e1761a4c50686869ca1 0xe613a0477591d69f945bd9d1d0a78d054558e9ded60203ec0d9f54486cf4bfb36f905fe2fdcd1927c561e490a9fa04d2 die with asm := [⟨0x0B01, 1, 192, packImage.take 128⟩] }

theorem meets_PackAndCodecTestBegin_pack : let r := req [piece 192 128 (packImage.drop 128)]; let t := taken r receiving
    (laterStagers.map fun x => x.code == 0x0B01 && x.meets r receiving && continues (x.slot r.body t) 1 r.body t) = [true, false] ∧
    assemblyOf 0x0B01 t = some ⟨0x0B01, 1, 192, packImage.take 128⟩ ∧ packBusy (withAssembly 0x0B01 none t) = false ∧ frameAhead r.body t = true ∧
    t.prb.install = none ∧ (let o := openInstall (some r) packImage none (withAssembly 0x0B01 none t); o.1 = none ∧ o.2.prb.install.isSome = true) := by decide +kernel

def testing : State := { die with asm := [⟨0x1102, 1, 128, zeros 64⟩] }
theorem meets_PackAndCodecTestBegin_test : let r := req [choice_ 0, piece 128 64 (zeros 64), set 0 4 1, set 1 4 16]; let t := taken r testing
    (laterStagers.map fun x => x.code == 0x1102 && x.meets r testing && continues (x.slot r.body t) 1 r.body t) = [false, true] ∧
    (assemblyOf 0x1102 t).isSome = true ∧ t.cdc.test = none ∧
    (testJob r.body (zeros 128) (ctxAt (testCtx t) (withAssembly 0x1102 none t))).toOption.isSome = true := by decide +kernel

/-! ### Opcodes of their own kind -/

theorem meets_AnswerChangesOnlyItsRecords : (okay []).status < 0x100 ∧ (req []).path = .host ∧ ({ req [] with path := .door 0 [] }).path ≠ .host := by decide

/-- With a session that does not exist, every request is refused. -/
theorem meets_RefusedRequestChangesNothing : let r := { req [] with session := 9 }
    (frameReaders ++ windowReaders ++ reduceReaders ++ glenReaders ++ probeReaders ++ errorReaders ++ traceReaders ++ shutterReaders ++ recordReaders ++ unitReaders).all
      (fun x => !passes { code := x.code, auth := authRead, params := x.params } (x.allowed (taken r die)) r (taken r die)) = true ∧
    (windowDeferrals ++ featureDeferrals ++ probeDeferrals ++ traceDeferrals).all
      (fun x => !passes { code := x.code, auth := x.auth, params := x.params (taken r die) } (x.allowed (taken r die)) r (taken r die)) = true ∧
    (timeImmediates ++ reportImmediates ++ shutterImmediates ++ unitImmediates ++ starters).all
      (fun x => !passes { code := x.code, auth := x.auth, params := x.params (taken r die) } (x.allowed (taken r die)) r (taken r die)) = true ∧
    (stagers ++ laterStagers).all
      (fun x => !passes { code := x.code, auth := x.auth, params := x.params (taken r die) } (x.allowed (taken r die)) r (taken r die)) = true := by decide +kernel

def given (b : List Tlv) (s : State) : Bool :=
  passes { code := 0x0101, params := must tFrame :: (List.range 10).map (setting · 4) } true (req b) (taken (req b) s)
def trayScoped : State := { tray with frame := { tray.frame with params := { tray.frame.params with trayScope := true } } }

theorem meets_FrameSetPlacesParameters : ([([frame_ 200], die), ([frame_ 200], root), ([frame_ 200, set 8 4 1], trayScoped), ([frame_ 200, set 8 4 1], tray),
      ([frame_ 200, set 8 4 0], trayScoped)].map fun p => given p.1 p.2) = yes 5 ∧
    liveAt 0 die = false ∧ curFrame (taken (req []) die) = 100 ∧ paramsOk (givenParams [frame_ 200] die.frame.params) = true ∧
    paramsOk (givenParams [frame_ 200] root.frame.params) = true ∧ paramsOk (givenParams [frame_ 200, set 8 4 1] trayScoped.frame.params) = true ∧
    paramsOk (givenParams [frame_ 200, set 0 4 1] die.frame.params) = false ∧ tray.frame.fleet = none ∧ isTray trayScoped ∧
    ∀ x ∈ [frame_ 200, set 8 4 0], x.ty = tFrame ∨ x.ty = tSetting 8 := by decide +kernel

theorem meets_StepOfRootTimeIsDeferred : let r := req [frame_ 200, set 0 8 1000]; let t := taken r root
    passes { code := 0x0208, params := [must tFrame, mustSetting 0 8] } (isPrimary t) r t = true ∧ signed 64 ((set? 0 r.body).getD 0) = 1000 ∧
    curFrame t + 16 ≤ 200 ∧ 0 ≤ ((tickTime t.frame.params 200 / nsUnit : Nat) : Int) + 1000 := by decide +kernel

theorem meets_FreeValuesAreDrawnIntoReplies : passes { code := 0x1401, auth := authRead } true (req []) (taken (req []) die) = true ∧
    [req [], req [⟨tData, zeros 32⟩]].map (fun r => passes { code := 0x1502, auth := authRead, params := [may tData] } true r (taken r die)) = yes 2 := by decide +kernel

def held : State := { stores tray with exp := { tray.exp with period := 10 } }
theorem meets_StreamsAreRead : (let r := req [n tUnit 4 0x80004003, n tSeq 8 1]; let t := taken r held
      passes { code := 0x0C02, params := [many tUnit 256, many tSeq 256] } true r t = true ∧ exporter t = true ∧ nums tUnit r.body = [unitId t]) ∧
    (let s := { die with sht := { die.sht with toHost := true, hostHead := some (zeros 9) } }; let t := taken (req []) s
      passes { code := 0x1011 } (isDie t) (req []) t = true ∧ t.sht.toHost = true) ∧
    (let r := req [n tFlag 4 1]; let t := taken r authorised
      passes { code := 0x0F05, auth := authRead, params := [may tOffset, may tFlag] } (isDie t) r t = true ∧ t.wpt.auth = some (r.session, 300) ∧
      flagBad r.body = false) := by decide +kernel

/-- A grant for session 3, signed by the key that `trusting` installs, under the ownership key. -/
def grant : Bytes := toLe 4 5 ++ toLe 2 3 ++ zeros 2 ++ toLe 4 1 ++ toLe 8 9000 ++ zeros 20 ++
  toLe 32 0x4943e2d998a987983876943c404452c2969f21143ea3a100ba8529b1ddb7bd0e ++ toLe 16 0x87637f91f3d4664f54e64b10944a28a4 ++ zeros 40 ++
  toLe 48 0xf955c3bfc92673b26cb5e7791e2b04634dca998d1aafde1e87a37e21f1104b99 ++ toLe 48 0xf955c3bfc92673b26cb5e7791e2b04634dca998d1aafde1e87a37e21f1104b99
def owned : State :=
  let s := trusting 0x354064890c6913e4a6f3c348d37209e1f5568ad684073c154ee3de505880c557b6ef8c8b40bb26290b27464691683912
    0x554b8bb15558cb37a9cd2c10e1220b3145f3758b55da3ec65f29effd4e6531dd258b5b547c7a144b921acd3984bf9b die
  { s with sec := { s.sec with owned := true, ownership := [(0, key)] } }

theorem meets_SessionOpcodesAct_open : let r := req [⟨tData, grant⟩]; let t := taken r owned
    working t = true ∧ t.sec.boundary ≠ .selfTest ∧ t.sec.boundary ≠ .error ∧ checkBody [must tData] r.body = none ∧
    (checkGrant grant t).toOption = some ⟨3, 1, key, 0, 9000 * secUnit, []⟩ ∧
    (match checkGrant (grant.drop 1) t with | .error e => e | .ok _ => 0) = stBadLength := by decide +kernel

def twoSessions : State := { die with sec := { die.sec with sessions := die.sec.sessions ++ [{ id := 2, auth := 1, key := key }] } }
def rotation : Bytes := zeros 12 ++ toLe 32 0x4943e2d998a987983876943c404452c2969f21143ea3a100ba8529b1ddb7bd0e ++ toLe 16 0x32b4b47344f20038092a10bf81808047
theorem meets_SessionOpcodesAct_keys :
    passes { code := 0x1504, params := [may tIndex] } true (req []) (taken (req []) die) = true ∧
    (let r := req [index 2]; let t := taken r twoSessions
      passes { code := 0x1504, auth := authKeys, params := [may tIndex] } true r t = true ∧ num? tIndex r.body = some 2 ∧ (sessionOf 2 t).isSome = true) ∧
    (let r := req [choice_ 3]; passes { code := 0x1505, auth := authKeys, params := [must tChoice, may tFlag, may tData] } true r (taken r die) = true ∧ choice r.body = 3 ∧
      flagBad r.body = false ∧ val? tData r.body = none) ∧
    (let r := req [choice_ 0, ⟨tData, rotation⟩]; let t := taken r die; let d := rotation
      passes { code := 0x1505, auth := authOperate, params := [must tChoice, may tFlag, may tData] } true r t = true ∧ choice r.body = 0 ∧ flagBad r.body = false ∧
      d.length = 60 ∧ (sessionOf 1 t).isSome = true ∧
      gcmOpen key (d.take 12) (targetBlock t ++ toLe 2 1 ++ toLe 4 1) (slice d 12 32) (slice d 44 16) = some key) := by decide +kernel

/-- Two anchors that sign grants. -/
def twoAnchors : State := { die with sec := { die.sec with anchors := [some ⟨1, 2, 1, false⟩, some ⟨3, 4, 1, false⟩] ++ List.replicate 6 none } }
def nextOwner : Bytes := zeros 12 ++ toLe 32 0x4943e2d998a987983876943c404452c2969f21143ea3a100ba8529b1ddb7bd0e ++ toLe 16 0x4c33c9d433f01424126c3345e1d1ae81
theorem meets_SessionOpcodesAct_anchors : let put (k : Nat) := toLe 1 k ++ toLe 1 1 ++ zeros 98
    let ok (b : List Tlv) := passes { code := 0x1505, auth := authKeys, params := [must tChoice, may tFlag, may tData] } true (req b) (taken (req b) twoAnchors) = true ∧ flagBad b = false
    let b (d : Bytes) := [choice_ 1, ⟨tData, d⟩]; let f := [choice_ 1, n tFlag 4 1, ⟨tData, toLe 1 7⟩]; let g := [choice_ 1, n tFlag 4 1, ⟨tData, toLe 1 0⟩]
    ok (b (put 7)) ∧ flag (b (put 7)) = false ∧ (put 7).length = 100 ∧ allZero (slice (put 7) 2 2) = true ∧ bit (byteAt (put 7) 1) 7 = false ∧
      twoAnchors.sec.anchors.getD 7 none = none ∧ ok (b (put 0xFF)) ∧ byteAt (put 0xFF) 0 = 0xFF ∧ (put 0xFF).length = 100 ∧ ok f ∧ ok g ∧ flag g = true ∧
      twoAnchors.sec.anchors.getD 0 none = some ⟨1, 2, 1, false⟩ ∧ otherSessions 0 twoAnchors = true := by decide +kernel
theorem meets_SessionOpcodesAct_ownership : let s := { die with sec := { die.sec with ownership := [(0, key)] } }; let r := req [choice_ 2, ⟨tData, nextOwner⟩]; let t := taken r s
    passes { code := 0x1505, auth := authKeys, params := [must tChoice, may tFlag, may tData] } true r t = true ∧ val? tFlag r.body = none ∧ nextOwner.length = 60 ∧
      tfind t.sec.generation t.sec.ownership = some key ∧
      gcmOpen key (nextOwner.take 12) (targetBlock t ++ toLe 1 1) (slice nextOwner 12 32) (slice nextOwner 44 16) = some key := by decide +kernel

/-! ### Events: states and operands that meet each clause's hypotheses -/

def b0 (s : State) : State := begin_ 0 s
def asDoor (d dir : Nat) (peer : Bytes) (s : State) : State := setDoor d (fun x => { x with peerHello := peer }) (up d dir s)
def hub0 : State := asDoor 0 1 (zeros 4 ++ toLe 4 5 ++ zeros 40) (stores tray)
def die0 : State := asDoor 0 2 ([1] ++ zeros 47) die

theorem meets_step : ({ die with pending := [.ready] } : State).pending = [.ready] ∧ die.pending = [] ∧ die.pwr.phase ≠ .off ∧ die.time.running = true := by decide +kernel
theorem meets_StepKeepsInvariant : ∃ t, Inv die ∧ step die = .next t :=
  ⟨_, ⟨by decide +kernel, ⟨by decide, by decide, by decide, by decide⟩, List.nodup_nil, by decide, by decide +kernel⟩, rfl⟩
theorem meets_CommandsWriteOnlyTheirParts : ∃ t, exec .tick die = .next t ∧ Part.cfg ∉ writes .tick := ⟨_, rfl, by decide +kernel⟩

theorem meets_BlockReset : die.pwr.phase ≠ .off ∧ working die = true ∧ outOfReset die = true ∧ 5 < die.mem.banks.length ∧ recorderBank false 5 = false ∧
    28 < die.mem.banks.length ∧ recorderBank false 28 = true := by decide +kernel
theorem meets_BlockResetAnchorsFramesAtEpoch : (∃ t, exec .externalBlockReset die = .next t) ∧ (∃ t, exec .supplyLoss die = .next t) :=
  ⟨⟨_, rfl⟩, ⟨_, rfl⟩⟩
def ph (p : Phase) (s : State) : State := { s with pwr := { s.pwr with phase := p, supplyOk := true } }
theorem meets_SuppliesAndSramErrors : (ph .off die).pwr.phase = .off ∧ die.pwr.phase ≠ .off := by decide
/-- A configuration with its CRC; the CRC is computed in five parts. -/
def goodCfg : Bytes := toLe 2 1 ++ zeros 2 ++ toLe 4 5 ++ zeros 244 ++ toLe 4 0x26789348
def z61 : Bytes := zeros 61
theorem crc_part0 : (toLe 2 1 ++ zeros 2 ++ toLe 4 5).foldl crcByte 0xFFFFFFFF#32 = 0x9c8cab19#32 := by decide +kernel
theorem crc_part1 : z61.foldl crcByte 0x9c8cab19#32 = 0x783b7f8#32 := by decide +kernel
theorem crc_part2 : z61.foldl crcByte 0x783b7f8#32 = 0x75fa55de#32 := by decide +kernel
theorem crc_part3 : z61.foldl crcByte 0x75fa55de#32 = 0x93e9d2f6#32 := by decide +kernel
theorem crc_part4 : z61.foldl crcByte 0x93e9d2f6#32 = 0xd9876cb7#32 := by decide +kernel
theorem goodCfg_parts : goodCfg.take 252 = (toLe 2 1 ++ zeros 2 ++ toLe 4 5) ++ (z61 ++ (z61 ++ (z61 ++ z61))) := by decide +kernel
theorem goodCfg_crc : crc32c (goodCfg.take 252) = 0x26789348 := by
  rw [goodCfg_parts, crc32c, List.foldl_append, List.foldl_append, List.foldl_append, List.foldl_append, crc_part0, crc_part1, crc_part2, crc_part3, crc_part4]
  decide
theorem goodCfg_taken : cfgRefused goodCfg false = false := by
  unfold cfgRefused
  rw [goodCfg_crc]
  decide +kernel
theorem meets_LeavingResetJudgesWarmOrCold : (ph .inReset die).pwr.supplyOk = true ∧ die.pwr.cfgFault = false ∧ cfgRefused (zeros 256) false = true ∧
    (ph .starting die).pwr.phase = .starting := by decide +kernel

def firmware : Bytes := signedBy 1 0x7f1fb3cdaae7cfc12cdec526aed43830be534622a955867b0f12b7b94ac913c2
  (toLe 4 5 ++ toLe 2 1 ++ zeros 14 ++ toLe 4 192 ++ zeros 40)
def fetching : State := trusting 0xa2f707a7c1d9de0be4e9794e66c25bd147dd8760a859b82d50a4fcf514b86e51538907f0d76c470a4c542335cd068600
  0xc9f02eac34036ffbde427273805db1e9a1b7eb4d642bf1369c28c812e3d6e1b87f0d74732fd1ca21fbd48aac3affdd9e { die0 with sec := { die0.sec with fetching := true } }
def unbooted (s : State) : State := { s with sec := { s.sec with active := none }, mem := { s.mem with fw := { s.mem.fw with hub := [[1], []], die := [[1], []] } } }
theorem meets_BoundaryAndFirmwareEvents : ({ die.sec with boundary := .selfTest }).boundary = .selfTest ∧ outOfReset die = true ∧ die.sec.boundary ≠ .zeroised ∧
    (let s := unbooted die0; s.sec.active = none ∧ (s.pwr.warm && (slotGood 0 s || slotGood 1 s)) = false ∧ liveAt 0 s = true ∧ outOfReset s = true) ∧
    (let s := unbooted hub0; s.sec.active = none ∧ (s.pwr.warm && (slotGood 0 s || slotGood 1 s)) = false ∧ storageUsable s = true ∧ isTray s = true ∧
      carries 0 s = true ∧ s.mem.fw.hub.getD s.mem.fw.hubActive [] ≠ [] ∧ s.mem.fw.die.getD s.mem.fw.dieActive [] ≠ []) ∧
    (let s := { die with sec := { die.sec with trial := some 0 } }; working s = true ∧ s.sec.trial = some 0 ∧ s.sec.active = some 0) := by decide +kernel
theorem meets_BoundaryAndFirmwareEvents_image : let u := setSec (fun x => { x with fetching := false }) fetching.fresh
    carries 0 fetching = true ∧ fetching.sec.fetching = true ∧ firmwareBusy u = false ∧ checkFirmware false firmware u = none := by decide +kernel

theorem meets_NextFrameIsFirstTickAhead : die.frame.pending = none ∧ 0 < die.frame.params.period := by decide +kernel
def inStep (k : Step) (s : State) : State := { s with frame := { s.frame with step := k } }
def laned : State := let s := inStep .evaluate (learnt die); { s with glen := { s.glen with lanes := [some 0] } }
def gl (mode : Nat) : State := let s := inStep .snapshot die; { s with glen := { s.glen with mode := mode, firstAct := some 5, startSpan := 10, recSpan := 10 } }
theorem meets_FrameEngineSteps : (working die = true ∧ die.time.running = true ∧ die.frame.adopt = none ∧ die.frame.pending = none) ∧
    ((inStep .snapshot die).win.ports.all (·.awaiting == 0) = true ∧ die.pend.all (·.opcode != 0x0902) = true) ∧
    (laned.glen.lanes.getD 0 none = some 0 ∧ nextLane 0 laned.fresh = true ∧ (advanceCycles (laned.glen.laneEnds.getD 0 0) laned.fresh).time.now ≤ evalStop laned.fresh) ∧
    ((gl 1).glen.mode = 1 ∧ (gl 1).glen.modeSet = false ∧ 5 + (gl 1).glen.startSpan ≤ curFrame (gl 1)) ∧ (gl 3).glen.modeSince + (gl 3).glen.recSpan ≤ curFrame (gl 3) ∧
    die.frame.last.isSome = true ∧ working (gl 3) = true ∧
    (let s := { die with frame := { die.frame with closes := [(99, 1)] } }; working s = true ∧ s.frame.closes = [(99, 1)]) := by decide +kernel

def atCutoff (s : State) : State := reduceHeads (stragglerRule (stopStep4 (advanceTo (cutoffAt s) s.fresh)))
def lockedDie : State := let s := inStep .trackers die0; { s with frame := { s.frame with locked := true }, time := { s.time with lock := 1 } }
theorem meets_SendCutoffSendsContribution : working lockedDie = true ∧ dieSends (atCutoff lockedDie) = true ∧ dieSends (atCutoff (inStep .trackers die)) = false := by
  decide +kernel

def arrived (k : Stage) : Item := ⟨0, 1, 5, 0, 100, 0, 1, zeros 8, 0, k⟩
def collecting (s : State) : State := { s with hub := { s.hub with frame := some 100, isOpen := true, items := [arrived .accepted, arrived .begun] } }
def peered : State := let s := collecting (up 0 3 root2)
  { s with time := { s.time with now := inputCloseAt s } }
def returned : Bytes := zeros 8 ++ toLe 8 99 ++ zeros 1000
theorem meets_SummariesAreCollectedAndReturned : let s := collecting (up 0 1 tray)
    carriesDown 0 (b0 s) = true ∧ (b0 s).frame.last.isSome = true ∧ mayBegin 0 s.fresh = true ∧ (s.hub.items[1]?).map (·.stage) = some .begun ∧ s.hub.isClosed = false ∧
    working s = true ∧ isDie s = false ∧ isRoot s = false ∧ s.hub.frame = s.frame.last ∧ s.hub.isOpen = true ∧ s.frame.params.trayScope = false ∧ isTray s = true ∧
    isPod pod = true ∧ (isRoot peered = true ∧ peered.hub.frame = peered.frame.last ∧ peered.hub.marked = false ∧ carries 0 (b0 peered) = true ∧
      isSecondary (b0 peered) = true ∧ (doorAt 0 (b0 peered)).dir = 3) := by decide +kernel

def returnedCopy : Bytes := [4, 5] ++ zeros 6 ++ toLe 8 99 ++ toLe 4 160 ++ zeros 140
theorem meets_SummariesAreReturned : let s := { die0 with frame := { die0.frame with closes := [(99, 2 ^ 90)] } }
    carries 0 (b0 s) = true ∧ (b0 s).build.hub = false ∧ returnedOk returnedCopy = true ∧
    (let v := receiveParams (summaryParams returnedCopy).1 (summaryParams returnedCopy).2 (b0 s);
      tfind (rd returnedCopy 8 8) v.frame.closes = some (2 ^ 90) ∧ v.frame.gotReturned ≠ some (rd returnedCopy 8 8)) := by decide +kernel

def timed (lock : Nat) (s : State) : State := { s with time := { s.time with lock := lock } }
theorem meets_TimeBaseEvents : (working (b0 hub0) = true ∧ isParentEnd 0 (b0 hub0) = true ∧ liveAt 0 (b0 hub0) = true) ∧
    ((timed 1 die).time.lock = 1 ∧ onSource (timed 1 die) = false ∧ allQuiet (timed 1 tray) = true ∧ onSource (timed 1 tray) = false ∧ working (timed 1 tray) = true) ∧
    (isRoot (timed 2 die) = false ∧ (timed 2 die).time.servo.stability ≠ 0) ∧
    (isSecondary (timed 2 root2) = true ∧ (timed 2 root2).time.ownSource = false ∧ allQuiet (timed 2 root2) = true ∧ working (timed 2 root2) = true) := by decide +kernel

def ptp (src : Nat) (s : State) : State := { s with time := { s.time with source := src, tod := some 9, ptp := { s.time.ptp with chosen := some (zeros 10) } } }
def msg (k : PtpKind) (v : Nat) : PtpMsg :=
  { kind := k, version := v, minor := 0, domain := 0, seq := 0, source := zeros 10, twoStep := true, origin := 0, correction := 0, interval := 0, mine := true, priority1 := 0
    clockClass := 0, quality := 0, grandmaster := zeros 8, stepsRemoved := 0, utcOffset := 0, utcValid := false, leap59 := false, leap61 := false }
theorem meets_RootSourceEvents : let u := b0 (ptp 0 root)
    working u = true ∧ onSource u = true ∧ u.time.source = 0 ∧ ptpHeard (msg .sync 1) u = false ∧ ptpHeard (msg .announce 2) u = true ∧ ptpHeard (msg .sync 2) u = true ∧
    (msg .sync 2).kind = .sync ∧ u.time.ptp.chosen = some (msg .sync 2).source ∧ (timed 1 u).time.lock = 1 ∧
    (let v := b0 (ptp 1 root); v.time.source = 1 ∧ v.time.tod = some 9 ∧ v.time.lock ≠ 1 ∧ onSource v = true) := by decide +kernel

theorem meets_SampleUpdatesCounter : let c : Ctr := tget {} 7 die.win.ctrs
    c.rebase = false ∧ c.satBefore = false ∧ c.cleared = none ∧ c.live + 5 ≤ u64Max ∧
    (let f : Ctr := { live := u64Max }; f.live ≤ u64Max ∧ u64Max < f.live + 1) := by decide +kernel

def port (f : Port → Port) (s : State) : State := setPort 3 (fun p => f { p with state := 1, enabled := true, mask := 0xFF, region := 2 }) s
def waitingFor (k : Nat) : State := port (fun p => { p with awaiting := k }) die
def event0 : QEvent := { code := 1, port := 3, clock := 0, entity := 0, stamp := 0, payload := zeros 12, size := none, at_ := 0, unlocked := false }
def queued : State := port (fun p => { p with queue := [event0] }) die
theorem meets_WindowPortEvents : (portLive 3 (waitingFor 2) = true ∧ (portAt 3 (waitingFor 2)).awaiting = 2 ∧ (portAt 3 (waitingFor 2)).late = false) ∧
    ((portAt 3 (waitingFor 1)).awaiting = 1 ∧ portLive 3 (waitingFor 1) = true) ∧
    (eventClass 1 = some 0 ∧ portLive 3 (b0 (waitingFor 0)) = true ∧ bit (portAt 3 (b0 (waitingFor 0))).mask 0 = true ∧
      eventClass 0x142 = some 3 ∧ errorEventOk 0x142 (zeros 12) = true ∧ bit (portAt 3 (b0 (waitingFor 0))).mask 3 = true) ∧
    eventClass 0x200 = none ∧
    (nextPort queued.fresh = some 3 ∧ (portAt 3 queued).queue = [event0] ∧ (portAt 3 queued).lost = 0) ∧
    ((portAt 3 (b0 queued)).region ≤ 127 ∧ 10 ≤ (b0 queued).time.servo.stretch * 100) := by decide +kernel

theorem meets_SensorRequestsAndAnswers : die.win.requests.length < 8 ∧ working die = true ∧
    (let s := { die with win := { die.win with requests := [79, 0, 1, 2, 3, 4, 5, 6] } }; 8 ≤ s.win.requests.length ∧ s.win.requests = 79 :: [0, 1, 2, 3, 4, 5, 6] ∧ 6 ∈ s.win.requests) := by
  decide +kernel

def door (f : Door → Door) (s : State) : State := setDoor 0 f s
theorem meets_DoorEvents : (working (b0 die0) = true ∧ 0 < (b0 die0).net.doors.length ∧ carries 0 die0 = true) ∧
    (laneEnd 0 1 die0.fresh = 0 ∧ laneUsed 0 1 die0.fresh = true) ∧
    (let u := retireLane 0 1 17 (setDoor 0 (fun x => { x with syncErrors := modifyAt 1 (· + 17) x.syncErrors }) die0.fresh);
      (doorAt 0 u).mode = 0 ∧ (doorAt 0 u).state = .up) ∧
    (let s := door (fun x => { x with mode := 4 }) die0; laneUsed 0 1 s.fresh = true ∧ carries 0 s = true ∧
      (doorAt 0 (retireLane 0 1 17 (setDoor 0 (fun x => { x with syncErrors := modifyAt 1 (· + 17) x.syncErrors }) s.fresh))).mode ≠ 0) ∧
    (doorAt 0 (door (fun x => { x with state := .training }) die)).state = .training ∧ (doorAt 0 quarantined).quarantined = true ∧ working quarantined = true := by decide +kernel

def held1 : State := { hub0 with net := { hub0.net with held := [⟨{ kind := 2, type := 0x20, body := zeros 8 }, 5⟩], tags := [⟨4, ⟨zeros 16, 9⟩, 0⟩]
                                                        reasm := [⟨⟨zeros 16, 9⟩, 3, 0, [], none⟩] } }
theorem meets_MessagesAndDatagrams : carries 0 (b0 hub0) = true ∧ (readCut (cutBody ⟨1, 9, ⟨1, 2, 3⟩, 2, none⟩)).isSome = true ∧
    (hub0.build.hub = true ∧ carries 0 hub0 = true ∧ bits (hubAddr hub0) 0 16 = hubAddr hub0 ∧ bits 1 0 16 ≠ hubAddr hub0) ∧
    (held1.net.held.length = 1 ∧ (held1.net.tags.find? (·.tag == 4)).isSome = true ∧
      (held1.net.reasm.find? (fun x => x.src == ⟨zeros 16, 9⟩ && x.ident == 3)).isSome = true) ∧ working (b0 hub0) = true ∧ (b0 hub0).build.hub = true := by decide +kernel

/-- A FRAME.GET_STATS in session 1 at sequence 5, with a trailer of zeros, or with the trailer under `key`. -/
def packetHead : Bytes := [2, 0] ++ toLe 2 0x0104 ++ toLe 2 1 ++ zeros 2 ++ toLe 4 5 ++ zeros 4
def packet (trailer : Bytes) : Bytes := packetHead ++ trailer
def ownTrailer (s : State) : Bytes := trailerOf key (targetBlock s) packetHead []
def executed (t : Bytes) : State := { die with sec := { die.sec with
  sessions := [{ id := 1, auth := 63, key := key, h := 5, notAfter := 2 ^ 90, cache := [⟨5, t, 0, none, true⟩] }] } }
theorem meets_PacketsAreExecutedOnce : let p := packet (ownTrailer die)
    p.length = 32 + rd p 12 4 ∧ byteAt p 0 = 2 ∧ rd p 4 2 = 1 ∧ (sessionOf 1 die).isSome = true ∧ die.sec.boundary = .operational ∧ die.time.now ≤ 2 ^ 90 ∧
    ownTrailer die ≠ zeros 16 ∧ slice p 16 16 = ownTrailer die ∧ trailerOf key (targetBlock die) (p.take 16) (slice p 16 0) = ownTrailer die ∧
    rd p 8 4 = 5 ∧ (sessionOf 1 die).map (·.h) = some 0 ∧
    (let x := sessionOf 1 (executed (ownTrailer die)); x.map (·.h) = some 5 ∧ x.map (fun x => (x.cache.find? (·.seq == 5)).map (·.trailer)) = some (some (ownTrailer die))) ∧
    (let x := sessionOf 1 (executed (zeros 16)); x.map (·.h) = some 5 ∧ x.map (fun x => (x.cache.find? (·.seq == 5)).map (·.trailer)) = some (some (zeros 16))) := by decide +kernel

def reporting : State := { die0 with err := { die0.err with ring := [{ seq := 4, severity := 1, bytes := zeros 64 }], next := 5, release := 3, fleet := true } }
theorem meets_ErrorAndStoreEvents : (let b := toLe 4 0x80004009 ++ toLe 2 1 ++ zeros 10 ++ zeros 64;
      carries 0 hub0 = true ∧ rd b 4 2 = 1 ∧ b.length = 16 + 64 * 1 ∧ unitFormOk (rd b 0 4) = true ∧ bit (rd b 0 4) 31 = true ∧ (hub0.err.fleet && !isRoot hub0) = false) ∧
    (let b := toLe 4 5 ++ zeros 12; carries 0 die0 = true ∧ b.length = 16 ∧ rd b 0 4 = unitId die0) ∧
    (reporting.err.fleet = true ∧ isRoot reporting = false ∧ working reporting = true ∧ (recordDoor reporting.fresh).1 = some 0 ∧
      (let u := (recordDoor reporting.fresh).2; u.err.tailDue = false ∧ (ringEntries u).filter (u.err.sent < ·.1) ≠ [])) ∧
    (let s := { tray with exp := { tray.exp with period := 101 } }; isTray s = true ∧ working s = true ∧ s.frame.last.isSome = true ∧ (curFrame s + 1) % s.exp.period = 0) ∧
    (storeUsable hub0 = true ∧ working hub0 = true ∧ hub0.build.hub = true) ∧ (outOfReset die = true ∧ die.mem.banks.getD 6 3 = 0) := by decide +kernel

def tracing (f : Source → Source) (s : State) : State := { s with trc := { s.trc with
  set := { s.trc.set with mode := trcStream, enable := [true], prio := [1] }, srcs := modifyAt 0 (fun x => f { x with kind := 1, needSync := none }) s.trc.srcs
  queue := [⟨0, 1, 0, zeros 8, 0, 0⟩], notices := [] } }
theorem meets_TraceEvents : let s := tracing id die0; let k : Chunk := ⟨0, 1, 0, zeros 8, 0, 0⟩
    (working s = true ∧ encodes 0 s.fresh = true ∧ (srcAt 0 s).needSync = none ∧ (srcAt 0 s).quiet = true ∧
      (srcAt 0 (setSrc 0 (fun x => { x with cyc := 7 }) (advanceTo (((srcAt 0 s).refTime + s.trc.set.timeInt * 1000) * nsUnit) s.fresh))).quiet = true) ∧
    (srcAt 0 (tracing (fun x => { x with chunk := some k }) die)).chunk = some k ∧
    (s.build.hub = false ∧ carries 0 s = true ∧ s.trc.set.mode = trcStream ∧ s.trc.notices = [] ∧
      bestBy (fun (a b : Chunk × Nat) => a.1.prio > b.1.prio) s.trc.queue.zipIdx = some (k, 0)) ∧
    ({ s with trc := { s.trc with notices := [zeros 40] } } : State).trc.notices = [zeros 40] ∧
    (carries 0 (b0 hub0) = true ∧ isTray (b0 hub0) = true ∧ byteAt (zeros 8) 0 ≤ 63 ∧ bits (rd (zeros 8) 4 4) 18 14 = 0) ∧
    (let b : Bytes := [0xFF] ++ zeros 39; b.length = 40 ∧ byteAt b 0 = 0xFF ∧ byteAt b 8 ≤ 3) ∧
    ({ s with trc := { s.trc with stopAt := some 5 } } : State).trc.stopAt = some 5 ∧ ({ s with trc := { s.trc with trayAt := [5] } } : State).trc.trayAt = [5] := by decide +kernel

theorem meets_WatchpointEvents : working (b0 bused) = true ∧ (b0 bused).build.hub = false ∧ busKind 3 (b0 bused) ≠ 0 ∧
    (let s := { die with wpt := { die.wpt with waiting := [(3, [(zeros 64, true)])], auth := some (1, 100) } };
      findIdx (fun (p : Nat × List (Bytes × Bool)) => p.1 == 3) s.wpt.waiting = some 0 ∧ (s.wpt.waiting[0]?).map (·.2) = some [(zeros 64, true)] ∧ working s = true ∧
      s.wpt.auth = some (1, 100) ∧ 100 ≤ curFrame s) := by decide +kernel

def packedDie : State := { die with prb := { die.prb with active := some ⟨1, zeros 32, [⟨5, 0, 1, 1, 0, 0, 0⟩]⟩, window := true } }
def tile (f : Tile → Tile) : State := { packedDie with prb := { packedDie.prb with tiles := modifyAt 39 f packedDie.prb.tiles } }
def running (a : Bool) : State := tile (fun x => { x with run := some { probe := 0, startedAt := die.time.now, cycle := 5000000, frame := 100, aborted := a } })
theorem meets_ProbeEvents : (working packedDie = true ∧ packedDie.build.hub = false ∧ packedDie.prb.window = true ∧ packedDie.prb.set.on = true ∧
      packedDie.prb.active.isSome = true ∧ packedDie.sht.hung = false ∧
      markAt packedDie.frame.params.ret packedDie + packedDie.prb.pass * 1000 * nsUnit ≤ windowClose packedDie.fresh ∧
      probePause (setPrb (fun x => { x with pass := x.pass + 1 }) (advanceTo (markAt packedDie.frame.params.ret packedDie) packedDie.fresh)) = false) ∧
    [false, true].map (fun a => (tileAt 39 (running a)).run.map (fun r => (r.aborted, r.queued))) = [some (false, false), some (true, false)] ∧
    (let r : Run := { probe := 0, startedAt := die.time.now, cycle := 5000000, frame := 100 };
      ran.status = 0 ∧ ran.signature = (probeAt r.probe (State.emit (.probeDrop 39) (advanceTo (r.startedAt + ran.cycles * cycleUnits (running false)) (running false).fresh))).expected) ∧
    (let s := tile (fun x => { x with retest := some { probe := 5, cell := 0 }, order := some (5, req [], 0) }); let s := { s with frame := { s.frame with last := some 20000 } };
      (tileAt 39 s).retest = some { probe := 5, cell := 0 } ∧ 0 + s.prb.set.retest ≤ curFrame s ∧ (tileAt 39 s).order = some (5, req [], 0) ∧ 0 + 1000 ≤ curFrame s ∧ working s = true) ∧
    (let s := tile (fun x => { x with starveFrames := 60000 }); (tileAt 39 s).starvedAt = none ∧ s.prb.set.starve ≤ (tileAt 39 s).starveFrames) := by decide +kernel

theorem meets_PacksArePushedOn : (let item := zeros 200; carries 0 die0 = true ∧ 200 ≤ item.length ∧ (doorAt 0 die0).dir ≠ 1) ∧
    (let s := asDoor 0 2 ([1] ++ zeros 47) tray; carries 0 s = true ∧ (doorAt 0 s).dir ≠ 1 ∧ Machine.pushing (packHash (zeros 192)) s = false) ∧
    (let s := { asDoor 0 2 ([1] ++ zeros 47) tray with prb := { tray.prb with pushes := [pushed] } }; Machine.pushing (packHash (zeros 192)) s = true) ∧
    (let s := { hub0 with prb := { hub0.prb with pushes := [pushed] } }; carries 0 s = true ∧
      s.prb.pushes.find? (·.hash == (zeros 40).take 32) = some pushed ∧ pushed.hash = (zeros 40).take 32 ∧ pushed.source = none) ∧
    (let p := { pushed with source := some 0 }; let s := { hub0 with prb := { hub0.prb with pushes := [p] } };
      s.prb.pushes.find? (·.hash == (zeros 40).take 32) = some p ∧ liveAt 0 (setPush p.hash (fun q => { q with counts := [(0, 0)] }) s.fresh) = true) := by decide +kernel

def region5 (f : Region → Region) (k : Nat) : State := { die with sht := { die.sht with
  state := k, regions := [f { index := 5, latency := 8 }], channels := [⟨5, 0, 4, false, 0, 0, 0⟩] } }
def hanging (a : Nat) (s : State) : State := { s with sht := { s.sht with hang := { counters := [0], limit := 10, action := a, items := 1 }, hangCount := 10 } }
theorem meets_ShutterStopsAndScans : (working armedDie = true ∧ armedDie.sht.state = shArmed ∧ armedDie.sht.arm = some ⟨9, 2 ^ 80, 1, none⟩) ∧
    (let s := region5 id shStopping; regionOf 5 s = some { index := 5, latency := 8 } ∧ s.sht.state = shStopping ∧ s.sht.channels[0]? = some ⟨5, 0, 4, false, 0, 0, 0⟩) ∧
    (let s := sht die shScanning; s.sht.state = shScanning ∧ (ctxAt 0 s).active = false ∧ s.sht.building = none ∧ s.sht.mode ≠ 2 ∧ s.sht.stopRec.resume = none) ∧
    (let s := hanging 1 die; s.sht.hang.counters ≠ [] ∧ s.sht.hung = false ∧ s.sht.hang.limit ≤ s.sht.hangCount ∧ s.build.hub = false ∧ working s = true ∧
      dumpSending (ownEntry 0x0F50 0 0 (toLe 4 s.sht.hang.limit) (setSht (fun x => { x with hung := true, hangFrame := curFrame s, episode := x.episode + 1 }) s.fresh)) = false) ∧
    (let s := hanging 1 { die with sht := { die.sht with dumpHead := some [] } };
      dumpSending (ownEntry 0x0F50 0 0 (toLe 4 s.sht.hang.limit) (setSht (fun x => { x with hung := true, hangFrame := curFrame s, episode := x.episode + 1 }) s.fresh)) = true) ∧
    ((hanging 0 die).sht.hang.action = 0 ∧ (hanging 2 die).sht.hang.action = 2) := by decide +kernel

def storing (k : Nat) (s : State) : State := { s with sht := { s.sht with area := k } }
theorem meets_ShutterResumesAndStores : (let s := { sht die shResuming with sht := { (sht die shResuming).sht with resumeAt := some 5 } }; s.sht.resumeAt = some 5 ∧ working s = true ∧ s.sht.state = shResuming) ∧
    (region5 id shHeld).sht.state = shHeld ∧ ((region5 id shResuming).sht.state = shResuming ∧ (region5 id shResuming).sht.resumeAt = none) ∧
    carries 0 (b0 die0) = true ∧ (hub0.build.hub = true ∧ carries 0 hub0 = true ∧ isTray hub0 = true) ∧
    (let item := zeros 8 ++ toLe 8 100; item.length = 16 ∧ storeUsable hub0 = true ∧
      imageBytes hub0 + sumN ((hub0.sht.reserved.filter fun r => !(r.1 == 5 && r.2.1 == 0)).map (·.2.2)) + rd item 8 8 ≤ areaBytes hub0 ∧
      areaBytes (storing 0 hub0) < imageBytes (storing 0 hub0) + 0 + rd item 8 8) ∧
    (let s := { die0 with sht := { die0.sht with reserving := some 7 } }; carries 0 s = true ∧ s.sht.reserving = some (rd (toLe 4 7 ++ zeros 12) 0 4) ∧
      rd (toLe 4 7 ++ zeros 12) 4 2 = stOk ∧ rd (toLe 4 7 ++ toLe 2 0x10C ++ zeros 10) 4 2 ≠ stOk) := by decide +kernel

/-- Three bytes, whatever the compressor makes of them, under an encoder and a decoder with no history. -/
theorem meets_CodecIsLossless : ∃ (c d : Ctx), c.target = 1 ∧ (3 : Nat) ≤ 4096 ∧ d.input = (encodeBlock c [1, 2, 3]).1 ++ [] ∧ d.hasHist = c.hasHist ∧ d.history = c.history ∧
    d.target = 0 ∧ d.ended = false ∧ d.outBytes + 3 ≤ d.limit :=
  ⟨{ target := 1 }, { input := (encodeBlock { target := 1 } [1, 2, 3]).1 ++ [], limit := 3 }, rfl, by decide, rfl, rfl, rfl, rfl, rfl, by decide⟩
theorem meets_RawPayloads : ([1, 2, 3] : Bytes).length + (zeros 4093).length = 4096 ∧ (∀ b ∈ zeros 4093, b = 0) ∧ (∃ b ∈ (7 :: zeros 4092 : Bytes), b ≠ 0) :=
  ⟨by rw [zeros, List.length_replicate]; rfl, fun _ h => (List.mem_replicate.mp h).2, ⟨7, List.mem_cons_self, by decide⟩⟩

def entry : EvrEntry := { code := 1, origin := 0, clock := 0, unlocked := false, entity := 0, kind := 0, stamp := 0, frame := 0, payload := [] }
def recording (head : Nat) : State := { die with evr := { die.evr with queue := [entry], base := 1, head := head } }
def storingCmd (r : Bool) : State := { tray with mem := { tray.mem with cmds := [⟨0, 2, 5, r⟩], changing := [(24, 0, 2)], bankReply := some (req [], [24]) } }
theorem meets_RecorderAndStorageEvents : ((recording 1).evr.queue = [entry] ∧ outOfReset (recording 1) = true ∧ (recording 1).evr.clearing = false ∧
      evrFull (advance 4 (recording 1).fresh) = false ∧ evrFull (advance 4 (recording 4097).fresh) = true) ∧
    ({ die.evr with clearing := true } : Recorder).clearing = true ∧
    (isTray hub0 = true ∧ carries 0 hub0 = true ∧ storageUsable hub0 = true ∧ (zeros 64).length % 64 = 0) ∧
    (let s := { die0 with evr := recorded.evr }; s.build.hub = false ∧ carries 0 s = true ∧ (entryOf (max s.evr.mirrorNext s.evr.base) s.fresh).isSome = true) ∧
    [false, true].map (fun r => (storingCmd r).mem.cmds.find? (·.tag == 0)) = [some ⟨0, 2, 5, false⟩, some ⟨0, 2, 5, true⟩] ∧
    ((storingCmd true).mem.changing.find? (·.1 == 24) = some (24, 0, 2) ∧ (storingCmd true).mem.bankReply = some (req [], [24]) ∧
      (let rest := (storingCmd true).mem.changing.filter (·.1 != 24); ∀ b ∈ [24], ∀ e ∈ rest, e.1 ≠ b)) ∧
    (let s : State := { storingCmd true with mem := { (storingCmd true).mem with changing := [(24, 0, 2), (25, 0, 2)], bankReply := some (req [], [24, 25]) } };
      ∃ b ∈ [24, 25], ∃ e ∈ s.mem.changing.filter (·.1 != 24), e.1 = b) := by decide +kernel

def holding (s : State) : State := { s with pnl := { s.pnl with holdSince := some 5, holdCounted := false } }
def windowed : State := { tray with pnl := { tray.pnl with cages := modifyAt 0 (fun g => { g with windowOpen := true, closeAt := some 5 }) tray.pnl.cages } }
theorem meets_PanelEvents : (working tray = true ∧ tray.build.hub = true ∧ debounceTime (.presence 0) ≤ 10000 ∧ 9999 < debounceTime (.presence 0) ∧
      debounceTime (.touch 95) ≤ 50000 ∧ 49999 < debounceTime .locate) ∧
    (95 < tray.pnl.cages.length ∧ (cageAt 95 tray).present ≠ true ∧ (cageAt 95 tray).touched ≠ true) ∧
    (working windowed = true ∧ (cageAt 0 windowed).windowOpen = true ∧ (cageAt 0 windowed).closeAt = some 5) ∧
    ((holding tray).pnl.holdSince = some 5 ∧ (holding tray).pnl.holdCounted = false ∧ isTray (holding tray) = true ∧ (holding tray).trc.stopAt = none ∧
      (holding tray).trc.stopped = false ∧ working (holding pod) = true ∧ isTray (holding pod) = false) := by decide +kernel

def auditing : State := { die with aud := { die.aud with start := some 90, chans := modifyAt 15 (fun c => { c with role := 1 }) die.aud.chans } }
def keyed (s : State) : State := { s with frame := { s.frame with last := some 5000 }, aud := { s.aud with keys := [{ tag := 6, sealF := 50 }] } }
theorem meets_AuditEvents : (working auditing = true ∧ auditing.build.hub = false ∧ auditing.aud.start.isSome = true ∧ (auditing.aud.chans.getD 15 {}).role ≠ 0 ∧
      (auditing.aud.chans[15]?).isSome = true) ∧
    (let item := toLe 1 1 ++ toLe 1 1 ++ zeros 2 ++ toLe 4 5 ++ zeros 72; isTray hub0 = true ∧ carries 0 hub0 = true ∧ item.length = 32 + 48 * byteAt item 1 ∧
      byteAt item 0 = 1 ∧ byteAt item 1 ≤ 16 ∧ rd item 4 4 = peerDie (doorAt 0 hub0)) ∧
    (let s := up 0 1 pod; isPod s = true ∧ carries 0 s = true ∧ (zeros 64).length = 64 ∧ rd (zeros 64) 60 4 = 0) ∧
    ((auditKey 6 50 (keyed tray).fresh).isSome = true ∧ working (keyed tray) = true ∧ (auditKey 6 50 (keyed root).fresh).map (·.isClosed) = some false ∧
      50 + auditLead (keyed tray).fresh ≤ curFrame (keyed tray) ∧ 50 + auditLead (keyed root).fresh ≤ curFrame (keyed root) ∧ isRoot (keyed root) = true ∧ isRoot (keyed tray) = false) := by
  decide +kernel

theorem meets_HostDoorAccesses : working die = true ∧ die.build.hub = false ∧ die.host.busy = false ∧ (0x7FC ≠ takeOffset die ∨ 0 ≠ takeOffset die) ∧
    ({ die.host with busy := true } : HostDoor).busy = true ∧ (let u := b0 die; working u = true ∧ u.build.hub = false ∧ u.host.busy = false) := by decide +kernel
theorem meets_LatchingReads : working (b0 die) = true ∧ working die = true ∧ die.build.hub = false ∧ working tray = true ∧ bits die.host.ctrSel.toNat 26 2 = 0 ∧
    bits (0x04000000 : Word).toNat 26 2 = 1 ∧ bits (0x08000000 : Word).toNat 26 2 = 2 := by decide +kernel
theorem meets_HardwareWinsOverClear : (∃ t, exec (.w1cWrite 0x1020 8 8) die = .next t) ∧ working die = true ∧ die.build.hub = false := ⟨⟨_, rfl⟩, by decide +kernel⟩

theorem meets_ParameterSetsAreChecked : given [frame_ 200] die = true ∧ liveAt 0 die = false ∧ given [frame_ 200] root = true ∧ given [frame_ 200, set 8 4 1] tray = true ∧
    tray.frame.fleet = none ∧
    [set 0 4 249, set 0 4 100001, set 1 4 0, set 1 4 1000, set 6 4 1, set 6 4 51, set 9 4 65].map (fun x => paramsOk (givenParams [frame_ 200, x] die.frame.params)) =
      List.replicate 7 false := by decide +kernel
theorem meets_BodiesReadBack : ∀ t ∈ [frame_ 200, index 3], t.ty < 2 ^ 16 ∧ t.val.length < 2 ^ 16 := by decide +kernel
theorem meets_BlocksReadBack : (let p := die.frame.params; p.anchor < 2 ^ 64 ∧ p.anchorNs < 1000000000 * 2 ^ 64 ∧ p.period < 2 ^ 32 ∧ p.emit < 2 ^ 16 ∧ p.tray < 2 ^ 16 ∧
      p.pod < 2 ^ 16 ∧ p.root < 2 ^ 16 ∧ p.ret < 2 ^ 16 ∧ p.grace < 256 ∧ p.limit < 256 ∧ p.stale < 256) ∧
    (let c : CutArm := ⟨2, 9, ⟨1, 2, 3⟩, 2, some ⟨2 ^ 64 - 1, 2 ^ 30 - 1, 65535⟩⟩; c.op ≤ 2 ∧ c.mode ≤ 2 ∧
      ∀ t ∈ c.stop :: c.resume.toList, t.sec < 2 ^ 64 ∧ t.ns < 2 ^ 30 ∧ t.sub < 2 ^ 16) := by decide +kernel

/-! Clauses whose hypotheses the theorems above do not show. -/

/-- An entry that a reset cut short, with its mark: sequence 2, the head of `recorded`. -/
def torn : State := { recorded with evr := { recorded.evr with torn := toLe 8 2 ++ zeros 52 ++ toLe 4 (2 ^ 32 - 3) } }
theorem meets_LeavingReset_torn : evrFull torn = false ∧ evrValid torn.evr.torn = true ∧ rd torn.evr.torn 0 8 = torn.evr.head ∧
    evrValid recorded.evr.torn = false ∧ torn.evr.valid = true ∧ torn.evr.pcc = torn.pwr.pcycleIn := by decide +kernel
theorem meets_BoundaryAndFirmware_start : (let s := { die with sec := { die.sec with slots := [{ image := [1] }, {}] } };
      (slotAt 0 s).image ≠ [] ∧ verified 1 (slotAt 0 s).image s = false ∧ s.sec.boundary ≠ .zeroised) ∧
    (let s := { die with sec := { die.sec with coreFree := 6000000 } }; s.pwr.cycles < s.sec.coreFree) ∧ die.sec.active.isSome = true := by decide +kernel
theorem meets_FrameEngine_steps : (gl 1).glen.firstAct = some 5 ∧ (gl 1).glen.started = false ∧ (gl 1).frame.step = .snapshot ∧ (gl 3).glen.mode = 3 ∧
    (let s := inStep .trackers die; s.frame.step = .trackers ∧ s.frame.cutoff = false ∧ working s = true) ∧
    (let s := inStep .trackers { die with frame := { die.frame with cutoff := true } }; s.frame.step = .trackers ∧ s.frame.cutoff = true) ∧
    (lockedDie.frame.step ≠ .idle ∧ lockedDie.frame.cutoff = false) := by decide +kernel
theorem meets_TimeBase_holdover : (let s := ptp 1 (timed 1 root); s.time.lock = 1 ∧ onSource s = true ∧ s.time.source = 1 ∧ working s = true) ∧
    (timed 2 root2).time.lock = 2 ∧ (timed 2 die).time.lock = 2 := by decide +kernel
theorem meets_WindowPort_full : (let s := port (fun p => { p with queue := List.replicate 32 event0 }) die; 32 ≤ (portAt 3 (b0 s)).queue.length) ∧
    0 < (portAt 3 (waitingFor 1)).awaiting := by decide +kernel
theorem meets_Sensor_tiles : (let s := { die with win := { die.win with requests := [7] } }; s.win.requests = 7 :: [] ∧ 7 < 48 ∧ (List.range 40).all (fun t => (tileAt t s).ended.isNone)) ∧
    [{ die with win := { die.win with requests := [60] } }].map (·.win.requests) = [[60]] := by decide +kernel
theorem meets_Messages_reply : (let b : Bytes := zeros 28 ++ toLe 4 0x80004003; 32 ≤ b.length ∧ bit (rd b 28 4) 31 = true) ∧
    (let b : Bytes := zeros 28 ++ toLe 4 5; bit (rd b 28 4) 31 = false ∧ reservedSlot (slotOf (bits (rd b 28 4) 0 18)) = false) := by decide +kernel
theorem meets_ErrorAndStore_banks : coreBank false 0 = true ∧ coreBank false 6 = false ∧ storeUsable (up 0 1 tray) = false ∧ carries 0 (up 0 1 tray) = true := by decide +kernel
theorem meets_Trace_intervals : let s := tracing (fun x => { x with synced := true }) die0
    (working s = true ∧ encodes 0 s.fresh = true ∧ (srcAt 0 s).synced = true ∧ (srcAt 0 s).runN = 0) ∧
    (let u := tracing (fun x => { x with synced := true, quiet := false, runN := 4 }) die0; (srcAt 0 u).quiet = false ∧ (srcAt 0 u).runN ≠ 0) := by decide +kernel
theorem meets_Probe_limits : (let s := tile (fun x => { x with retest := some { probe := 5, cell := 0 } });
      ((tileAt 39 s).retest.map fun q => decide (q.runs ≤ 1)) = some true) ∧ [0, 1, 2].all (· ≤ 2) = true := by decide +kernel
theorem meets_Shutter_live : (let s := { die with sht := { die.sht with liveRun := true } }; s.sht.liveRun = true) ∧
    (let s := sht die shScanning; s.sht.liveRun = false) ∧ (sht die0 shStopped).sht.state = shStopped ∧
    (let v := sht die shScanning; let a := { v with sht := { v.sht with mode := 2 } }; let b := { v with sht := { v.sht with stopRec := { v.sht.stopRec with resume := some 9 } } };
      a.sht.mode = 2 ∧ b.sht.mode ≠ 2 ∧ b.sht.stopRec.resume = some 9) := by decide +kernel
theorem meets_Recorder_unusable : storageUsable (up 0 1 tray) = false ∧ isTray (up 0 1 tray) = true ∧ carries 0 (up 0 1 tray) = true ∧ (zeros 64).length % 64 = 0 := by
  decide +kernel
theorem meets_Audit_late : auditKey 7 50 (keyed tray) = none ∧ 50 + auditLead (keyed tray) ≤ curFrame (keyed tray) := by decide +kernel

/-! ### Results: the spec's worked examples, and the standards' own vectors -/

/-- Chapter 0's examples: die 23 on tray 417, and pod hub B of pod 9. -/
theorem test_numbers_example : trayOf 0xD097 = 417 ∧ slotOf 0xD097 = 23 ∧ podAddr 9 1 = 0xA009 := by decide
/-- Chapter 1's example: frame 5,010 of 2,000 µs frames that began at 5 s with frame 5,000. -/
theorem test_tick_example : tickTime { die.frame.params with anchor := 5000, anchorNs := 5000000000, period := 2000 } 5010 = 5020000000 * nsUnit := by decide +kernel
/-- Chapter 2's example: t1 to t4 with an asymmetry of 2.0 ns give an offset of 20.0 ns. -/
theorem test_exchange_example : let s := setDoor 0 (fun d => { d with exch := { d.exch with asym := 32 } }) { die0 with time := { die0.time with parent := some 0 } }
    (completeExchange 0 (1000 * 2 ^ 16) (1061 * 2 ^ 16) (1200 * 2 ^ 16) (1219 * 2 ^ 16) s).time.offsets = [20 * 2 ^ 17] := by decide +kernel
/-- Chapter 3's examples: a sample that wraps, and a conversion between two breakpoints. -/
theorem test_sample_example : (tget {} 4 (takeSample 4 32 0x2400 { die with win := { die.win with ctrs := [(4, { raw := 0xFFFFF000, live := 0x2FFFFF000 })] } }).win.ctrs).live =
    0x300002400 := by decide +kernel
theorem test_trim_example : trimValue [(1800, 5120), (1900, 5760)] 1843 = (5395, false, false) := by decide +kernel
/-- Chapter 4's examples: a bucket by hand and two edges. -/
theorem test_bucket_example : [0x442F0000, 0x440B95C1, 0x440B95C2].map (fun x : F32 => bucketOf x 6) = [28, 25, 26] := by decide +kernel
/-- Chapter 7's examples: the logistic of +0 and of +∞. -/
theorem test_logistic_example : [0, 0x7F800000].map (fun z : F32 => (logistic z).out) = [0x3F000000, 0x3F800000] := by decide +kernel

/-- Table TRC-9: the loop's packets behind the SYNC. -/
theorem test_loop_example : let s := tracing (fun x => { x with needSync := some 0, chunk := none }) die
    let run (a n : Nat) : List Word := (List.range n).map fun k => BitVec.ofNat 32 (a + k)
    let t := (run 0x4200 16 ++ run 0x4204 12 ++ run 0x4204 16 ++ [0x9000]).foldl (fun s a => bundle 0 a s) s
    (srcAt 0 t).chunk.map (fun c => lastN 9 c.bytes) = some [0x78, 0xB9, 0x58, 0xB9, 0x78, 0xF9, 0xB9, 0xB7, 0x02] := by decide +kernel

/-- Chapter 12's example: the stream of "UZ7-UZ7-UZ7-UZ7-done" decodes. -/
def text : Bytes := [0x55, 0x5A, 0x37, 0x2D, 0x55, 0x5A, 0x37, 0x2D, 0x55, 0x5A, 0x37, 0x2D, 0x55, 0x5A, 0x37, 0x2D, 0x64, 0x6F, 0x6E, 0x65]
def coded : Bytes := [0x50, 0x00, 0x13, 0x00] ++ toLe 4 (crc32c text) ++
  [0x03, 0x55, 0x5A, 0x37, 0x2D, 0xC9, 0x03, 0x00, 0x03, 0x64, 0x6F, 0x6E, 0x65] ++ zeros 2035
theorem test_codec_example : (decodeBlock { input := coded, limit := 20 }).toOption.map (·.2) = some text := by decide +kernel

/-- Table CMD-9: the body of a group change. -/
theorem test_body_example : bodyBytes [frame_ 9000040, tag 6 0x4D210008] = [0x01, 0x00, 0x08, 0x00, 0x68, 0x54, 0x89, 0x00, 0x00, 0x00, 0x00, 0x00,
    0x0C, 0x00, 0x08, 0x00, 0x06, 0x00, 0x00, 0x00, 0x08, 0x00, 0x21, 0x4D] := by decide +kernel

/-- FIPS 180-4: SHA-256 of "abc". FIPS 197, C.3: AES-256. RFC 3720: CRC-32C of 32 zero bytes. -/
theorem test_sha256 : (sha256 [0x61, 0x62, 0x63]).take 8 = [0xBA, 0x78, 0x16, 0xBF, 0x8F, 0x01, 0xCF, 0xEA] := by decide +kernel
theorem test_aes : aesBlock (aesKeys key) ((List.range 16).map fun i => BitVec.ofNat 8 (17 * i)) =
    [0x8E, 0xA2, 0xB7, 0xCA, 0x51, 0x67, 0x45, 0xBF, 0xEA, 0xFC, 0x49, 0x90, 0x4B, 0x49, 0x60, 0x89] := by decide +kernel
theorem test_crc32c : crc32c (zeros 32) = 0x8A9136AA := by decide +kernel

/-- A write that is ignored while CMD_BUSY is set is counted (R404); a sensor request leaves at its pins. -/
theorem test_ignored_write : ∃ t, exec (.hostDoorWrite ⟨true, 0, 4, 7⟩) { die with host := { die.host with busy := true } } = .next t ∧ t.host.ignored = 1 := ⟨_, rfl, rfl⟩
theorem test_sensor_request : ∃ t, exec (.sensorConversionRequest 79) die = .next t ∧ t.out = [.senseRequest 79] := ⟨_, rfl, rfl⟩

end Sys2Proof.Tests
end

section
/-! PROOFS. W1C_WRITE (R13, R14) and the obligation O56. -/
namespace Sys2Proof.Machine

/-! ### The W1C fields of Table HDR-1: register offset, bit, and where the model holds the bit -/

/-- The W1C fields that a die unit and a hub both have. -/
def sharedW1cFields : List (Nat × Nat × (State → Bool)) :=
  [(0x1020, 3, (·.host.badAccess)), (0x1040, 8, (·.time.stepped)), (0x1100, 29, (·.evr.new)), (0x1144, 10, (·.sht.imageFail)),
    (0x1144, 8, (·.sht.stopEvent)), (0x1148, 8, (·.cdc.error)), (0x1148, 4, (·.cdc.outFull))]

/-- The W1C fields that a hub's registers lack (R412). -/
def dieW1cFields : List (Nat × Nat × (State → Bool)) :=
  [(0x1020, 1, (·.host.replyReady)), (0x1140, 8, (·.trc.triggered))]

/-- The W1C fields of a block: those of every unit and, on a die unit, its own. -/
def IsW1cField (f : Nat × Nat × (State → Bool)) (s : State) : Prop :=
  f ∈ sharedW1cFields ∨ s.build.hub = false ∧ f ∈ dieW1cFields

/-- R14 for one bit: a write of 1 clears it, and hardware that sets it in the same cycle wins. -/
theorem w1c_of_mask {mask k : Nat} (hm : bit mask k = true) (data hardware : Nat) (cur : Bool) :
    w1c mask k data hardware cur = ((cur && !bit data k) || bit hardware k) := if_pos hm

/-- A working block completes the write. -/
theorem exec_w1cWrite_of_working {s : State} (hw : working s = true) (off : Nat) (d h : Word) :
    exec (.w1cWrite off d h) s = .next (w1cWrite off d h s.fresh) := by
  change execW1cWrite off d h s = _
  simp [execW1cWrite, hw]

/-- The shared fields lie in their registers' W1C masks; UZ_CMD_STATUS has a mask of its own on a hub. -/
theorem bit_w1cMask_of_mem_shared (s : State) : ∀ f ∈ sharedW1cFields, bit (w1cMask f.1 s) f.2.1 = true := by
  have hstatus : bit (if s.build.hub then 8 else 10) 3 = true := by cases s.build.hub <;> rfl
  simp only [sharedW1cFields, List.forall_mem_cons, w1cMask]
  exact ⟨hstatus, rfl, rfl, rfl, rfl, rfl, rfl, List.forall_mem_nil _⟩

/-- A die unit's own fields lie in their registers' W1C masks. -/
theorem bit_w1cMask_of_mem_die {s : State} (hdie : s.build.hub = false) : ∀ f ∈ dieW1cFields, bit (w1cMask f.1 s) f.2.1 = true := by
  simp only [dieW1cFields, List.forall_mem_cons, w1cMask, hdie]
  exact ⟨rfl, rfl, List.forall_mem_nil _⟩

theorem bit_w1cMask_of_isW1cField {off k : Nat} {get : State → Bool} {s : State} (hf : IsW1cField (off, k, get) s) :
    bit (w1cMask off s) k = true := by
  obtain hf | ⟨hdie, hf⟩ := hf
  · exact bit_w1cMask_of_mem_shared s _ hf
  · exact bit_w1cMask_of_mem_die hdie _ hf

/-- W1C_WRITE gives each field of its register that field's own `w1c`, under the register's mask. -/
theorem get_w1cWrite_of_isW1cField {off k : Nat} {get : State → Bool} {s : State} (hf : IsW1cField (off, k, get) s) (d h : Word) :
    get (w1cWrite off d h s) = w1c (w1cMask off s) k d.toNat h.toNat (get s) := by
  have all : ∀ f ∈ sharedW1cFields ++ dieW1cFields,
      f.2.2 (w1cWrite f.1 d h s) = w1c (w1cMask f.1 s) f.2.1 d.toNat h.toNat (f.2.2 s) := by
    simp only [sharedW1cFields, dieW1cFields, List.cons_append, List.nil_append, List.forall_mem_cons]
    exact ⟨rfl, rfl, rfl, rfl, rfl, rfl, rfl, rfl, rfl, List.forall_mem_nil _⟩
  exact all _ (List.mem_append.2 (hf.imp_right And.right))

/-- The outputs of the step before are no part of a W1C field. -/
theorem get_fresh_of_isW1cField {off k : Nat} {get : State → Bool} {s : State} (hf : IsW1cField (off, k, get) s) :
    get s.fresh = get s := by
  have all : ∀ f ∈ sharedW1cFields ++ dieW1cFields, f.2.2 s.fresh = f.2.2 s := by
    simp [sharedW1cFields, dieW1cFields]
  exact all _ (List.mem_append.2 (hf.imp_right And.right))

/-- Settles O56: the write leaves each of the register's W1C fields at its own `w1c`, and the field lies in the mask. -/
theorem hardwareWinsOverClear : Obligations.HardwareWinsOverClear := by
  unfold Obligations.HardwareWinsOverClear
  intro off k get d h s hf hw
  have hf : IsW1cField (off, k, get) s := hf
  have hfresh : IsW1cField (off, k, get) s.fresh := hf
  refine ⟨w1cWrite off d h s.fresh, exec_w1cWrite_of_working hw off d h, ?_⟩
  calc get (w1cWrite off d h s.fresh)
    _ = w1c (w1cMask off s.fresh) k d.toNat h.toNat (get s.fresh) := get_w1cWrite_of_isW1cField hfresh d h
    _ = ((get s.fresh && !bit d.toNat k) || bit h.toNat k) := w1c_of_mask (bit_w1cMask_of_isW1cField hfresh) _ _ _
    _ = ((get s && !bit d.toNat k) || bit h.toNat k) := by rw [get_fresh_of_isW1cField hf]

end Sys2Proof.Machine
end

section
/-! PROOFS. Frame parameters: what FRAME.SET refuses (R23, O58), and where block reset places the ticks (R17, O26). -/
namespace Sys2Proof.Machine

/-! ### Tables FRM-1 and FRM-2 -/

/-- A set of parameters breaks a range of Table FRM-1 or, for the scope number it sets (0 fleet, 1 tray), a condition of
Table FRM-2. Instants in nanoseconds after the tick. -/
def BreaksTables (p : FrameParams) (scope : Nat) : Prop :=
  let mark (m : Nat) := m < 1 ∨ 999 < m; let at_ (m : Nat) := p.period * m; let g := p.grace * 1000
  let cutoff (x : Nat) := at_ p.emit < (p.limit * 8192 / 4000 + (if p.limit * 8192 % 4000 = 0 then 0 else 1) + 2) * 1000 + x
  p.period < 250 ∨ 100000 < p.period ∨ (scope = 0 ∧ p.period < 500) ∨ mark p.emit ∨ mark p.tray ∨ mark p.pod ∨ mark p.root ∨ p.ret < 1 ∨ 1000 < p.ret ∨
    p.grace < 2 ∨ 50 < p.grace ∨ p.limit < 1 ∨ 32 < p.limit ∨ p.stale < 1 ∨ 64 < p.stale ∨ 1 < scope ∨
    (scope = 0 ∧ ¬ (p.emit < p.tray ∧ p.tray < p.pod ∧ p.pod < p.root ∧ p.root < p.ret)) ∨ (scope = 1 ∧ ¬ (p.emit < p.tray ∧ p.tray < p.ret)) ∨
    cutoff 25000 ∨ at_ p.tray < at_ p.emit + g + 20000 ∨
    (scope = 0 ∧ (at_ p.pod < at_ p.tray + g + 20000 ∨ at_ p.root < at_ p.pod + g + 20000 ∨ at_ p.ret < at_ p.root + 30000)) ∨
    (scope = 1 ∧ at_ p.ret < at_ p.tray + 30000)

/-- R22's time to send: a rounded-up quotient, as the quotient and its remainder's carry. -/
theorem sendTime_eq_div_add_carry (limit : Nat) :
    sendTime limit = limit * 8192 / 4000 + (if limit * 8192 % 4000 = 0 then 0 else 1) + 2 := by
  unfold sendTime
  split <;> omega

/-- R23: a set that passes the check in fleet scope breaks neither table. -/
theorem not_breaksTables_fleet {p : FrameParams} (hs : p.trayScope = false) (hok : paramsOk p = true) : ¬ BreaksTables p 0 := by
  simp only [paramsOk, hs, Bool.false_eq_true, if_false, Bool.and_eq_true, decide_eq_true_eq, sendTime_eq_div_add_carry] at hok
  simp only [BreaksTables]
  omega

/-- R23: a set that passes the check in tray scope breaks neither table. -/
theorem not_breaksTables_tray {p : FrameParams} (hs : p.trayScope = true) (hok : paramsOk p = true) : ¬ BreaksTables p 1 := by
  simp only [paramsOk, hs, if_true, Bool.and_eq_true, decide_eq_true_eq, sendTime_eq_div_add_carry] at hok
  simp only [BreaksTables]
  omega

/-- R23: a set that breaks a table for its scope fails the last check, by its scope number or by its parameters. -/
theorem checkFails_of_breaksTables {p : FrameParams} {scope : Nat} (hs : p.trayScope = (scope == 1)) (hbad : BreaksTables p scope) :
    1 < scope ∨ paramsOk p = false := by
  obtain hgt | hle := Nat.lt_or_ge 1 scope
  · exact .inl hgt
  · refine .inr (Bool.eq_false_iff.2 fun hok => ?_)
    obtain rfl | rfl := Nat.le_one_iff_eq_zero_or_eq_one.1 hle
    · exact not_breaksTables_fleet hs hok hbad
    · exact not_breaksTables_tray hs hok hbad

/-! ### FRAME.SET at the units that take a set (R25, R26) -/

/-- The scope number that a FRAME.SET names: its SETTING, or the scope that the unit has. -/
def scopeOf (b : List Tlv) (cur : FrameParams) : Nat := (set? 8 b).getD (b2n cur.trayScope)

theorem exec_frameSet (r : Request) (s : State) :
    exec (.frameSet r) s = .next (finish 0x0101 r (frameSet r (taken r s))) := rfl

theorem role_of_isDie {s : State} (h : isDie s = true) : role s = .die := by
  have hhub : s.build.hub = false := by simpa [isDie] using h
  simp [role, hhub]

theorem role_of_isPrimary {s : State} (h : isPrimary s = true) : role s = .root := by
  have hroot : isRoot s = true := (Bool.and_eq_true_iff.1 h).1
  simpa [isRoot] using hroot

theorem role_of_isTray {s : State} (h : isTray s = true) : role s = .tray := by
  simpa [isTray] using h

section FrameSet
variable {r : Request} {t : State}
  (hp : passes { code := 0x0101, params := must tFrame :: (List.range 10).map (setting · 4) } true r t = true)
  (hbad : 1 < scopeOf r.body t.frame.params ∨ paramsOk (givenParams r.body t.frame.params) = false)
include hp hbad

/-- On the bench a die unit takes either scope. -/
theorem frameSet_refuses_die (hdie : isDie t = true) (hlink : liveAt 0 t = false) : frameSet r t = (refuse stRange, t) := by
  rw [scopeOf] at hbad
  simp [frameSet, command_of_passes hp, role_of_isDie hdie, hlink, hbad]

/-- The primary root takes fleet scope; a frame too near is out of range as well (R25). -/
theorem frameSet_refuses_primary (hprim : isPrimary t = true) (hfleet : scopeOf r.body t.frame.params ≠ 1) :
    frameSet r t = (refuse stRange, t) := by
  rw [scopeOf] at hbad hfleet
  simp [frameSet, command_of_passes hp, role_of_isPrimary hprim, hprim, hfleet, hbad]

/-- A tray hub takes tray scope, and enters it while the fleet's summaries carry no change to come (R26). -/
theorem frameSet_refuses_tray (htray : isTray t = true) (hscope : scopeOf r.body t.frame.params ≠ 0)
    (hfleet : t.frame.params.trayScope = true ∨ ∀ c q, t.frame.fleet = some (c, some q) → q.anchor ≤ curFrame t) :
    frameSet r t = (refuse stRange, t) := by
  rw [scopeOf] at hbad hscope
  obtain hin | hahead := hfleet
  · rw [hin] at hbad hscope
    simp [frameSet, command_of_passes hp, role_of_isTray htray, hin, hscope, hbad]
  · rcases hf : t.frame.fleet with _ | ⟨c, _ | q⟩
    case some.some =>
      have hq : ¬ curFrame t < q.anchor := Nat.not_lt.2 (hahead c q hf)
      simp [frameSet, command_of_passes hp, role_of_isTray htray, hscope, hbad, hf, hq]
    all_goals simp [frameSet, command_of_passes hp, role_of_isTray htray, hscope, hbad, hf]

end FrameSet

/-- Answering leaves the frame engine's state alone: the mask of what `finish` may write lacks the bit of `Part.frame`. -/
theorem frame_finish (code : Nat) (r : Request) (p : Reply) (s : State) : (finish code r (p, s)).frame = s.frame :=
  (keep_finish (M := 612369408) rfl (x := (p, s)) (Keep.refl s)).same.part .frame rfl

theorem frame_taken (r : Request) (s : State) : (taken r s).frame = s.frame := by
  simp [taken]

/-- Settles O58: at each unit that takes the set, one that breaks a table fails the last check, and the answer leaves the frame
engine's state as it was. -/
theorem parameterSetsAreChecked : Obligations.ParameterSetsAreChecked := by
  unfold Obligations.ParameterSetsAreChecked
  intro r s t b p scope tray fleet mark at_ g cutoff hp htakes hbreaks
  have hbad : 1 < scope ∨ paramsOk p = false := checkFails_of_breaksTables rfl hbreaks
  have hset : frameSet r t = (refuse stRange, t) := by
    obtain ⟨hdie, hlink⟩ | ⟨hprim, hfleet⟩ | ⟨htray, hscope, hfleet⟩ := htakes
    · exact frameSet_refuses_die hp hbad hdie hlink
    · exact frameSet_refuses_primary hp hbad hprim hfleet
    · exact frameSet_refuses_tray hp hbad htray hscope hfleet
  constructor
  · rw [exec_frameSet, hset]
  · rw [frame_finish, frame_taken]

/-! ### Block reset (R17) -/

theorem params_blockReset (cause : Nat) (s : State) : (blockReset cause s).frame.params = {} := rfl

theorem params_powerLost (s : State) : (powerLost s).frame.params = {} := rfl

/-- The default parameters place the tick of frame `n` at `n` milliseconds after the epoch. -/
theorem tickTime_default (n : Nat) : tickTime {} n = n * 1000000 * nsUnit := by
  simp [tickTime, periodUnits, Nat.mul_assoc]

theorem exec_externalBlockReset_of_on {s : State} (hon : s.pwr.phase ≠ .off) :
    exec .externalBlockReset s = .next (blockReset 1 s.fresh) := by
  change execExternalBlockReset s = _
  simp [execExternalBlockReset, hon]

theorem exec_supplyLoss_of_on {s : State} (hon : s.pwr.phase ≠ .off) : exec .supplyLoss s = .next (powerLost s.fresh) := by
  change execSupplyLoss s = _
  simp [execSupplyLoss, hon]

theorem exec_watchdogExpiry_of_working {s : State} (hw : working s = true) :
    exec .watchdogExpiry s =
      .next (blockReset 2 { s.fresh with pwr := { s.pwr with watchdogFrame := some (curFrame s - 16) } }) := by
  change execWatchdogExpiry s = _
  simp [execWatchdogExpiry, hw]

/-- Outside the recorder banks an uncorrectable SRAM error resets the block (R369). -/
theorem exec_sramUncorrectableError_of_not_recorderBank {b a : Nat} {s : State} (hout : outOfReset s = true) (hbank : b < s.mem.banks.length)
    (hrec : recorderBank s.build.hub b = false) :
    exec (.sramUncorrectableError b a) s = .next (blockReset 3 { s.fresh with pwr := { s.pwr with sramError := some (b, a) } }) := by
  change execSramUncorrectableError b a s = _
  simp [execSramUncorrectableError, hout, Nat.not_le.2 hbank, hrec]

/-- Settles O26: each way into reset ends in `blockReset` or `powerLost`, which leave the default parameters. -/
theorem blockResetAnchorsFramesAtEpoch : Obligations.BlockResetAnchorsFramesAtEpoch := by
  unfold Obligations.BlockResetAnchorsFramesAtEpoch
  intro i s t hreset hstep
  obtain ⟨u, hu, hparams⟩ : ∃ u, exec i s = .next u ∧ u.frame.params = {} := by
    obtain ⟨rfl, hon⟩ | ⟨rfl, hon⟩ | ⟨rfl, hw⟩ | ⟨b, a, rfl, hout, hbank, hrec⟩ := hreset
    · exact ⟨_, exec_externalBlockReset_of_on hon, params_blockReset _ _⟩
    · exact ⟨_, exec_supplyLoss_of_on hon, params_powerLost _⟩
    · exact ⟨_, exec_watchdogExpiry_of_working hw, params_blockReset _ _⟩
    · exact ⟨_, exec_sramUncorrectableError_of_not_recorderBank hout hbank hrec, params_blockReset _ _⟩
  obtain rfl : u = t := Host.Outcome.next.inj (hu.symm.trans hstep)
  rw [hparams]
  exact ⟨rfl, rfl, rfl, tickTime_default⟩

end Sys2Proof.Machine
end

section
/-! PROOFS. The counter file: what an increment and a received sample leave in it (R85, R88 to R90), and the obligation O36. -/
namespace Sys2Proof.Machine

/-! ### Increments (R90) -/

theorem satAdd_of_room {max a b : Nat} (hroom : a + b ≤ max) : satAdd max a b = a + b := Nat.min_eq_right hroom

theorem satAdd_of_past {max a b : Nat} (hpast : max < a + b) : satAdd max a b = max := Nat.min_eq_left (Nat.le_of_lt hpast)

/-- A counter after an increment of `n`: SATURATED is set when the live value first stands at its limit. -/
def increased (n : Nat) (c : Ctr) : Ctr :=
  let v := satAdd u64Max c.live n
  { c with live := v, saturated := c.saturated || (v == u64Max && !c.saturated && n > 0) }

/-- Of the counter file, an increment writes its own counter alone; COUNTER_SATURATED is no part of the file. -/
theorem ctrs_addCtr (i n : Nat) (s : State) :
    (addCtr i n s).win.ctrs = tput i (increased n (tget {} i s.win.ctrs)) s.win.ctrs := by
  simp only [addCtr]
  split
  · simp only [ownEntry_fields, increased]
  · rfl

/-! ### Received samples (R88) -/

/-- d of R88: how far a counter of width `w` has come from its raw sample to the sample `v`. -/
def sampleIncrease (w v : Nat) (c : Ctr) : Nat := (v % 2 ^ w + 2 ^ w - c.raw % 2 ^ w) % 2 ^ w

/-- A counter after a sample that neither rebases it nor follows its clear, in a frame that it began below its limit. -/
def sampled (w v : Nat) (c : Ctr) : Ctr :=
  let now := increased (sampleIncrease w v c) c
  { now with raw := v % 2 ^ w, newStale := false, newRebased := false, newPrev := now.live, newSat := now.saturated
             newDelta := some (min (sampleIncrease w v c) (u64Max - c.live)) }

/-- A sample writes its own counter as `sampled` says. -/
theorem tget_takeSample_self {i : Nat} {s : State} (w v : Nat) (hrebase : (tget {} i s.win.ctrs).rebase = false)
    (hsat : (tget {} i s.win.ctrs).satBefore = false) (hclear : (tget {} i s.win.ctrs).cleared = none) :
    tget {} i (takeSample i w v s).win.ctrs = sampled w v (tget {} i s.win.ctrs) := by
  simp [takeSample, sampled, sampleIncrease, increased, ctrs_addCtr, tget_tput_self, hrebase, hsat, hclear]

/-- A sample leaves the other counters as they were. -/
theorem tget_takeSample_of_ne {i j : Nat} (w v : Nat) (s : State) (hj : j ≠ i) :
    tget {} j (takeSample i w v s).win.ctrs = tget {} j s.win.ctrs := by
  simp only [takeSample, tget_tput_ne _ _ _ hj]
  split
  · rfl
  · rw [ctrs_addCtr, tget_tput_ne _ _ _ hj]

theorem live_sampled (w v : Nat) (c : Ctr) : (sampled w v c).live = satAdd u64Max c.live (sampleIncrease w v c) := rfl

/-- Where the live value has room, the delta is the whole increase. -/
theorem newDelta_sampled_of_room {w v : Nat} {c : Ctr} (hroom : c.live + sampleIncrease w v c ≤ u64Max) :
    (sampled w v c).newDelta = some (sampleIncrease w v c) :=
  congrArg some (Nat.min_eq_left (Nat.le_sub_of_add_le' hroom))

/-- Settles O36: the sample leaves `sampled` in its own counter, whose live value is a saturating sum, and no other is written. -/
theorem sampleUpdatesCounter : Obligations.SampleUpdatesCounter := by
  unfold Obligations.SampleUpdatesCounter
  intro i w v s c t d hrebase hsat hclear
  have hself : tget {} i t.win.ctrs = sampled w v c := tget_takeSample_self w v hrebase hsat hclear
  rw [hself]
  refine ⟨fun hroom => ⟨?_, newDelta_sampled_of_room hroom⟩, fun _ hpast => ?_, rfl, rfl, fun j hj => tget_takeSample_of_ne w v s hj⟩
  · exact (live_sampled w v c).trans (satAdd_of_room hroom)
  · exact (live_sampled w v c).trans (satAdd_of_past hpast)

end Sys2Proof.Machine
end

section
/-! PROOFS. Raw payloads of the codec: what the encoder writes and the decoder takes (R336), and the obligation O50. -/
namespace Sys2Proof.Machine

/-! ### Byte strings -/

@[simp] theorem length_toLe (n v : Nat) : (toLe n v).length = n := by
  induction n generalizing v with
  | zero => rfl
  | succ n ih => rw [toLe, List.length_cons, ih]

@[simp] theorem length_zeros (n : Nat) : (zeros n).length = n := List.length_replicate

theorem allZero_iff {bs : Bytes} : allZero bs = true ↔ ∀ b ∈ bs, b = 0 := by
  simp [allZero]

/-- A byte string that is not too long is padded and not cut. -/
theorem fit_of_length_le {n : Nat} {bs : Bytes} (hle : bs.length ≤ n) : fit n bs = bs ++ zeros (n - bs.length) := by
  have hlength : (bs ++ zeros (n - bs.length)).length = n := by
    rw [List.length_append, length_zeros, Nat.add_sub_cancel' hle]
  exact List.take_of_length_le (Nat.le_of_eq hlength)

/-! ### The encoder (R332, R337) -/

/-- The header of Table CDC-1 takes 8 bytes before the payload. -/
@[simp] theorem length_blockHead (raw fresh : Bool) (target : Nat) (data : Bytes) :
    (blockHead raw fresh target data).length = 8 := by
  simp [blockHead]

/-- An output block is a coded one, with the compressor's tokens as payload, or a raw one, with the input bytes. -/
theorem encodeBlock_coded_or_raw (c : Ctx) (data : Bytes) :
    encodeBlock c data = (blockHead false (!c.hasHist) c.target data ++
        fit (targetSize c.target) (Config.tokens data (historyOf c) c.target), true) ∨
      encodeBlock c data = (blockHead true (!c.hasHist) c.target data ++ fit 4096 data, false) := by
  unfold encodeBlock
  extract_lets hist size tok fits
  cases fits with
  | true => exact .inl rfl
  | false => exact .inr rfl

/-- The payload of a raw output block of at most 4,096 bytes. -/
theorem encodeBlock_raw_payload {c : Ctx} {data : Bytes} (hraw : (encodeBlock c data).2 = false) (hle : data.length ≤ 4096) :
    (encodeBlock c data).1.drop 8 = data ++ zeros (4096 - data.length) := by
  obtain hcoded | hrawBlock := encodeBlock_coded_or_raw c data
  · rw [hcoded] at hraw
    cases hraw
  · rw [hrawBlock, List.drop_left' (length_blockHead ..), fit_of_length_le hle]

/-! ### The decoder (R336) -/

/-- The decoder takes the block's bytes and checks what follows them. -/
theorem decodeRaw_append (data tail : Bytes) :
    decodeRaw (data ++ tail) data.length = if allZero tail then .ok data else .error cdPadding := by
  rw [decodeRaw, List.drop_left, List.take_left]

/-- Settles O50: a raw output block pads its bytes to 4,096, and the decoder's answer turns on whether the padding is zero. -/
theorem rawPayloads : Obligations.RawPayloads := by
  unfold Obligations.RawPayloads
  intro data tail hlen
  rw [decodeRaw_append]
  refine ⟨fun c _ _ hraw => encodeBlock_raw_payload hraw (hlen ▸ Nat.le_add_right ..), fun hzero => ?_, fun ⟨b, hb, hne⟩ => ?_⟩
  · exact if_pos (allZero_iff.mpr hzero)
  · exact if_neg fun hzero => hne (allZero_iff.mp hzero b hb)

end Sys2Proof.Machine
end

section
/-! PROOFS. Register reads at the host door (R398, Table HDR-1) and the obligation O57. -/
namespace Sys2Proof.Machine

/-! ### The data of a read -/

/-- A read presents its data and nothing else: the outputs of the step before are gone. -/
theorem out_answerRead_fresh (v : Nat) (s : State) : (answerRead v s.fresh).out = [.hostRead (BitVec.ofNat 32 v)] := rfl

/-- An aligned access of four bytes below the end of the address space reads one word (R398). -/
theorem exec_hostDoorWrite_read_of_aligned {off : Nat} (halign : off % 4 = 0) (hlt : off < 0x80000) (v : Word) (s : State) :
    exec (.hostDoorWrite ⟨false, off, 4, v⟩) s = .next (hostRead off s.fresh) := by
  have hvalid : ¬ ((4 : Nat) != 4 || off % 4 != 0 || decide (off ≥ 0x80000)) = true := by
    rw [halign, decide_eq_false (Nat.not_le.2 hlt)]
    decide
  have hread : hostAccess ⟨false, off, 4, v⟩ s.fresh = hostRead off s.fresh := (if_neg hvalid).trans (if_neg Bool.false_ne_true)
  exact congrArg Host.Outcome.next hread

/-- Between the packet windows and the recorder window, a working block answers an assigned offset with its register's word as
that register's latch leaves it (R398, R399). -/
theorem hostRead_of_register {off w : Nat} {s : State} (hw : working s = true) (hlo : 0x1000 ≤ off) (hhi : off < 0x40000)
    (hreg : regWord off s = some w) : hostRead off s = answerRead ((regWord off (latchFor off s)).getD 0) (latchFor off s) := by
  have hworking : ¬ (!working s) = true := by
    rw [hw]
    decide
  have hcommand : ¬ off < 0x800 := by omega
  have hreply : ¬ off < 0x1000 := Nat.not_lt.2 hlo
  have hrecorder : ¬ (decide (0x40000 ≤ off) && decide (off < 0x80000)) = true := by
    rw [decide_eq_false (Nat.not_le.2 hhi), Bool.false_and]
    decide
  rw [hostRead, if_neg hworking, if_neg hcommand, if_neg hreply, if_neg hrecorder, hreg]

/-! ### UZ_CMD_MAGIC (R400, Table HDR-2) -/

/-- The word is a constant: neither the profile nor any other part of the state enters it. -/
theorem regWord_magic (s : State) : regWord 0x1000 s = some 0x00375A55 := rfl

/-- The register heads no latch group. -/
theorem latchFor_magic (s : State) : latchFor 0x1000 s = s := rfl

theorem hostRead_magic {s : State} (hw : working s = true) : hostRead 0x1000 s = answerRead 0x00375A55 s := by
  rw [hostRead_of_register hw (Nat.le_refl _) (by decide) (regWord_magic s), latchFor_magic, regWord_magic, Option.getD_some]

theorem toLe_magic : toLe 4 0x00375A55 = (['U', 'Z', '7'].map fun c => BitVec.ofNat 8 c.toNat) ++ [0] := by decide

/-- Settles O57: the offset lies among the registers, its word is a constant and its read latches nothing. -/
theorem magicRegisterReads : Obligations.MagicRegisterReads := by
  unfold Obligations.MagicRegisterReads
  refine ⟨fun v s hw => ⟨?_, out_answerRead_fresh _ s⟩, toLe_magic⟩
  have hfresh : working s.fresh = true := (working_fresh s).trans hw
  rw [exec_hostDoorWrite_read_of_aligned (by decide) (by decide), hostRead_magic hfresh]

end Sys2Proof.Machine
end

section
/-! PROOFS. The step and the invariant: what one step does, and what every command keeps (O1 to O6). -/
namespace Sys2Proof.Machine

/-! ### The step -/

theorem step_of_pending_cons {c : Instr} {rest : List Instr} {s : State} (h : s.pending = c :: rest) :
    step s = exec c { s with pending := rest } := by
  rw [step, h]

theorem step_of_pending_nil {s : State} (h : s.pending = []) : step s = .next (advance 1 s.fresh) := by
  rw [step, h]

/-- Settles O1: the step's definition at a queue that is not empty. -/
theorem stepRunsFrontCommand : Obligations.StepRunsFrontCommand := by
  unfold Obligations.StepRunsFrontCommand
  exact fun _ _ _ h => step_of_pending_cons h

/-- What the passing of time leaves of a block that has its supplies and whose global time runs (R52). -/
theorem advance_of_running {s : State} (k : Nat) (hon : s.pwr.phase ≠ .off) (hrun : s.time.running = true) :
    advance k s = { s with time := { s.time with now := s.time.now + k * cycleUnits s }
                           pwr := { s.pwr with cycles := s.pwr.cycles + k }
                           evr := { s.evr with hourCtr := s.evr.hourCtr + k } } := by
  simp [advance, hon, hrun]

/-- Settles O2: the idle step is an advance by one cycle. -/
theorem idleStepPassesOneCycle : Obligations.IdleStepPassesOneCycle := by
  unfold Obligations.IdleStepPassesOneCycle
  intro s hempty hon hrun
  rw [step_of_pending_nil hempty, advance_of_running (s := s.fresh) 1 hon hrun, Nat.one_mul]
  rfl

/-! ### Every command answers (log entry 19) -/

/-- An outcome that is a next state, neither a fault nor a refusal. -/
def Answers (o : Host.Outcome State Fault Refusal) : Prop := ∃ t, o = .next t

theorem answers_next (t : State) : Answers (.next t) := ⟨t, rfl⟩

theorem Answers.ite {c : Prop} [Decidable c] {o p : Host.Outcome State Fault Refusal} (ho : Answers o) (hp : Answers p) :
    Answers (if c then o else p) := by
  split <;> assumption

/-- The arms come in three shapes: a next state outright, one premise and a next state on either side of it, and a path of
premises and lookups that ends in a next state wherever it leads. -/
theorem answers_exec (s : State) (i : Instr) : Answers (exec i s) := by
  cases i
  case supplyValid | externalBlockReset | watchdogExpiry | leaveReset | ready | hourCounterExpiry | sampledValue | sampleLate |
      snapshotSwap | sendCutoff | inputClose | rootMark | returnMark | filterPeriodEnd | holdoverLimitExceeded | secondaryOwnSource |
      delayReq | stretchEpisodeEnd | sensorConversionRequest | sensorAnswer | sensorRequestTimeout | replayTimeout | laneLockLoss |
      quarantineEnd | helloArrival | replyMessageArrival | exportPeriodEnd | traceBundle | lowPowerEntry | lowPowerExit |
      timeIntervalElapse | watchpointAccess | probeStarved | passingRecordDrop | scanImageArrival | hangDumpArrival |
      traceReadoutArrival | auditTransfer | auditLoss | cutArrival | regionResetPulse | recorderClearDone | storeCompletion |
      patrolScrub | supplyLoss | regionReleased =>
    exact .ite (answers_next _) (answers_next _)
  case sramUncorrectableError | firmwareBoot | tick | trackerUpdateEnd | entityEvaluated | passItemApplied | hubMark | rootCheckArrival |
      rootParametersArrival | returnClose | exchangeInterval | ptpMessage | ppsEdge | windowEvent | eventService | laneRetire |
      trainingAttemptTimeout | commandMessageArrival | commandHoldTimeout | returnTagExpiry | managementDatagram |
      fragmentReassemblyTimeout | icmpv6Message | errorRecordMessage | recordAcknowledgement | errorEntrySend | chunkFlushTime |
      traceChunkSend | traceMessageArrival | triggerNoticeArrival | stopInstant | trayTriggerAtTime | watchedReadData | captureExpiry |
      probeSchedulerPass | probeDone | probeDurationExpiry | probeAbortTimeout | retestLimitExpiry | probeRunTimeout | probePackArrival |
      packOutcomeArrival | reserveArrival | reserveReplyArrival | recorderMirrorArrival | mirrorEntrySend | auditRecordArrival |
      auditNodeArrival | auditClose | bootRequestArrival | bootImageArrival | trialEnd | cutOutcomeReport | timedStopInstant |
      regionStopAck | regionAckTimeout | channelClosed | scanEnd | resumeInstant | hangDeclared | codecBlock | recorderWrite |
      storageCompletion | storeReadyChange | bankChangeComplete | panelInputAccepted | serviceWindowClose | holdPress |
      probeInstallPack | probeRun | cdcTest | srmSetBank | secSelfTest =>
    dsimp only [exec, execSramUncorrectableError, execFirmwareBoot, execTick, execTrackerUpdateEnd, execEntityEvaluated,
      execPassItemApplied, execHubMark, execRootCheckArrival, execRootParametersArrival, execReturnClose, execExchangeInterval,
      execPtpMessage, execPpsEdge, execWindowEvent, execEventService, execLaneRetire, execTrainingAttemptTimeout,
      execCommandMessageArrival, execCommandHoldTimeout, execReturnTagExpiry, execManagementDatagram, execFragmentReassemblyTimeout,
      execIcmpv6Message, execErrorRecordMessage, execRecordAcknowledgement, execErrorEntrySend, execChunkFlushTime, execTraceChunkSend,
      execTraceMessageArrival, execTriggerNoticeArrival, execStopInstant, execTrayTriggerAtTime, execWatchedReadData, execCaptureExpiry,
      execProbeSchedulerPass, execProbeDone, execProbeDurationExpiry, execProbeAbortTimeout, execRetestLimitExpiry, execProbeRunTimeout,
      execProbePackArrival, execPackOutcomeArrival, execReserveArrival, execReserveReplyArrival, execRecorderMirrorArrival,
      execMirrorEntrySend, execAuditRecordArrival, execAuditNodeArrival, execAuditClose, execBootRequestArrival, execBootImageArrival,
      execTrialEnd, execCutOutcomeReport, execTimedStopInstant, execRegionStopAck, execRegionAckTimeout, execChannelClosed, execScanEnd,
      execResumeInstant, execHangDeclared, execCodecBlock, execRecorderWrite, execStorageCompletion, execStoreReadyChange,
      execBankChangeComplete, execPanelInputAccepted, execServiceWindowClose, execHoldPress, execProbeInstallPack, execProbeRun,
      execCdcTest, execSrmSetBank, execSecSelfTest]
    (repeat' split) <;> exact answers_next _
  all_goals exact answers_next _

/-- Settles O3: no arm of `exec` answers anything else. -/
theorem everyCommandAnswersNext : Obligations.EveryCommandAnswersNext := by
  unfold Obligations.EveryCommandAnswersNext
  exact fun i s => answers_exec s i

/-! ### The invariant -/

/-- Settles O4: after reset the memories and queues are empty. -/
theorem resetMeetsInvariant : Obligations.ResetMeetsInvariant := by
  unfold Obligations.ResetMeetsInvariant
  exact { window := rfl, recorder := ⟨by decide, by decide, by decide, by decide⟩, pend := List.nodup_nil, requests := by decide, chain := rfl }

/-- The queue of commands is no part of the invariant. -/
theorem Inv.withPending {s : State} (h : Inv s) (l : List Instr) : Inv { s with pending := l } :=
  ⟨h.window, h.recorder, h.pend, h.requests, h.chain⟩

theorem inv_exec {i : Instr} {s t : State} (h : Inv s) (he : exec i s = .next t) : Inv t :=
  ((keep_exec i).keep t he).inv h

theorem inv_advance_fresh {s : State} (h : Inv s) (k : Nat) : Inv (advance k s.fresh) :=
  (keep_begin_ (M := 537919508) rfl (Keep.refl s)).inv h

/-- Settles O5: on an empty queue time passes, and else the front command runs; both keep the invariant. -/
theorem stepKeepsInvariant : Obligations.StepKeepsInvariant := by
  unfold Obligations.StepKeepsInvariant
  intro s t h hstep
  cases hq : s.pending with
  | nil =>
    rw [step_of_pending_nil hq] at hstep
    cases hstep
    exact inv_advance_fresh h 1
  | cons c rest =>
    rw [step_of_pending_cons hq] at hstep
    exact inv_exec (h.withPending rest) hstep

/-- Settles O6: every command keeps build and queue, and its mask lacks the parts that `writes` leaves out. -/
theorem commandsWriteOnlyTheirParts : Obligations.CommandsWriteOnlyTheirParts := by
  unfold Obligations.CommandsWriteOnlyTheirParts
  intro i s t he
  have hkeep : Keep (maskOf (writes i)) s t := (keep_exec i).keep t he
  exact ⟨hkeep.build, hkeep.pending, hkeep.part⟩

end Sys2Proof.Machine
end

section
/-! PROOFS. Answering a request (R377, R383, R397): what the reply changes on its way, and the obligation O7. -/
namespace Sys2Proof.Machine

/-- The state from which a reply leaves: a refusal is counted, and the session's cache may have taken the reply. -/
def recorded (r : Request) (p : Reply) (s : State) : State :=
  fillCache r.session r.seq p (if p.status ≥ 0x100 then countRefusal (rowOf p.status) r.path s else s)

theorem finish_eq_answerPlain (code : Nat) (r : Request) (p : Reply) (s : State) :
    finish code r (p, s) = answerPlain (replyKey r.session s) code r p (recorded r p s) := rfl

/-- A reply leaves the boundary's state alone: its mask has the link, the host door and the outputs. -/
theorem sec_answerPlain (key : Option Bytes) (code : Nat) (r : Request) (p : Reply) (s : State) :
    (answerPlain key code r p s).sec = s.sec :=
  (keep_answerPlain (M := maskOf [.net, .host, .out]) rfl (Keep.refl s)).part .sec (by decide)

theorem sec_finish (code : Nat) (r : Request) (p : Reply) (s : State) : (finish code r (p, s)).sec = (recorded r p s).sec := by
  rw [finish_eq_answerPlain, sec_answerPlain]

/-! ### What is recorded -/

/-- Counting a refusal touches no session. -/
theorem sec_countRefusal (row : Nat) (path : Path) (s : State) :
    (countRefusal row path s).sec = { s.sec with refusals := (countRefusal row path s).sec.refusals } := rfl

/-- Filling the cache touches nothing but the sessions' caches. -/
theorem sec_fillCache (session seq : Nat) (p : Reply) (s : State) :
    (fillCache session seq p s).sec = { s.sec with sessions := (fillCache session seq p s).sec.sessions } := rfl

theorem sessions_fillCache_up_to_caches (session seq : Nat) (p : Reply) (s : State) :
    (fillCache session seq p s).sec.sessions.map (fun x => { x with cache := [] }) = s.sec.sessions.map (fun x => { x with cache := [] }) := by
  simp only [fillCache, List.map_map]
  refine List.map_congr_left fun x _ => ?_
  simp only [Function.comp_apply]
  split <;> rfl

theorem sec_recorded (r : Request) (p : Reply) (s : State) :
    { (recorded r p s).sec with sessions := s.sec.sessions, refusals := s.sec.refusals } = s.sec := by
  rw [recorded, sec_fillCache]
  split
  · rw [sec_countRefusal]
  · rfl

theorem sessions_recorded_up_to_caches (r : Request) (p : Reply) (s : State) :
    (recorded r p s).sec.sessions.map (fun x => { x with cache := [] }) = s.sec.sessions.map (fun x => { x with cache := [] }) := by
  rw [recorded, sessions_fillCache_up_to_caches]
  split <;> rfl

/-- A reply that is no refusal is not counted. -/
theorem refusals_recorded_of_lt {r : Request} {p : Reply} (s : State) (hp : p.status < 0x100) :
    (recorded r p s).sec.refusals = s.sec.refusals := by
  rw [recorded, if_neg (Nat.not_le.2 hp)]
  rfl

/-- Recording writes the boundary's state alone. -/
theorem recorded_part (r : Request) (p : Reply) (s : State) (q : Part) (hq : q ≠ .sec) : q.same s (recorded r p s) := by
  have hcount : Keep (maskOf [.sec]) s (if p.status ≥ 0x100 then countRefusal (rowOf p.status) r.path s else s) :=
    Keep.ite (keep_countRefusal rfl (Keep.refl s)) (Keep.refl s)
  exact (keep_fillCache (p := p) rfl hcount).part q (by simpa using hq)

/-! ### The paths of a reply (R386 to R388) -/

/-- A reply names its unit by the configuration, and takes nothing else from the state. -/
theorem signedReply_recorded (key : Option Bytes) (version code session seq : Nat) (r : Request) (p : Reply) (s : State) :
    signedReply key version code session seq p (recorded r p s) = signedReply key version code session seq p s := by
  have hcfg : (recorded r p s).cfg = s.cfg := recorded_part r p s .cfg nofun
  simp only [signedReply, replyBytes, targetBlock, unitId, hcfg]

/-- On the host's path the reply stands in the reply window (R404). -/
theorem answerPlain_host {key : Option Bytes} {code : Nat} {r : Request} {p : Reply} (s : State) (hpath : r.path = .host) :
    (answerPlain key code r p s).net = s.net ∧
    (answerPlain key code r p s).host =
      { s.host with replyWin := signedReply key r.version code r.session r.seq p s, busy := false, replyReady := true } := by
  rw [answerPlain, hpath]
  exact ⟨rfl, rfl⟩

/-- On a door's path or the management network's the host door sees nothing. -/
theorem host_deliver_of_ne {path : Path} (pkt : Bytes) (s : State) (hpath : path ≠ .host) : (deliver path pkt s).host = s.host := by
  have hkeep : Keep (maskOf [.net, .out]) s (deliver path pkt s) := by
    cases path with
    | host => exact absurd rfl hpath
    | door d origin => exact Keep.ite (keep_forwardMsg rfl (Keep.refl s)) (keep_sendMsg rfl (Keep.refl s))
    | mgmt src => exact keep_sendDatagram rfl (Keep.refl s)
  exact hkeep.part .host (by decide)

theorem host_answerPlain_of_ne {key : Option Bytes} {code : Nat} {r : Request} {p : Reply} (s : State) (hpath : r.path ≠ .host) :
    (answerPlain key code r p s).host = s.host := by
  rw [answerPlain, host_deliver_of_ne _ _ hpath]
  rfl

/-- Settles O7: the reply leaves from the recorded state, whose sessions differ in their caches alone. -/
theorem answerChangesOnlyItsRecords : Obligations.AnswerChangesOnlyItsRecords := by
  unfold Obligations.AnswerChangesOnlyItsRecords
  intro code r p s t
  have hsec : t.sec = (recorded r p s).sec := sec_finish code r p s
  refine ⟨fun q hq => ?_, ?_, ?_, fun hp => ?_, fun hpath => ?_, fun hpath => ?_⟩
  · exact (keep_finish (M := maskOf [.net, .sec, .host, .out]) rfl (x := (p, s)) (Keep.refl s)).part q hq
  · rw [hsec, sec_recorded]
  · rw [hsec, sessions_recorded_up_to_caches]
  · rw [hsec, refusals_recorded_of_lt s hp]
  · obtain ⟨hnet, hhost⟩ := answerPlain_host (key := replyKey r.session s) (code := code) (p := p) (recorded r p s) hpath
    have hhost0 : (recorded r p s).host = s.host := recorded_part r p s .host nofun
    have hnet0 : (recorded r p s).net = s.net := recorded_part r p s .net nofun
    rw [signedReply_recorded, hhost0] at hhost
    simp only [t, finish_eq_answerPlain, hnet, hnet0, hhost, true_and]
  · exact (host_answerPlain_of_ne _ hpath).trans (recorded_part r p s .host nofun)

end Sys2Proof.Machine
end

section
/-! PROOFS. Opcodes that read: rows 4 and 8 to 9 of Table CMD-5 stand before an opcode's own part, and a readout shows its fixed
TLVs (R379, R395). The obligations O10 and O11, and what refutes O8. -/
namespace Sys2Proof.Machine

/-- The command runs an opcode's own part `act` behind the shared checks of its row `o`, and answers with what comes of it. -/
def RunsBehindChecks (cmd : Request → Instr) (o : State → Op) (allowed : State → Bool)
    (act : Request → List Tlv → State → Reply × State) : Prop :=
  ∀ (r : Request) (s : State), let t := taken r s
    exec (cmd r) s = .next (finish (o t).code r (command (o t) (allowed t) r (act r) t))

theorem RunsBehindChecks.of_passes {cmd : Request → Instr} {o : State → Op} {allowed : State → Bool}
    {act : Request → List Tlv → State → Reply × State} (h : RunsBehindChecks cmd o allowed act) {r : Request} {s : State}
    (hp : passes (o (taken r s)) (allowed (taken r s)) r (taken r s) = true) :
    exec (cmd r) s = .next (finish (o (taken r s)).code r (act r r.body (taken r s))) := by
  rw [h r s, command_of_passes hp]

/-! ### What a readout shows -/

/-- The reply is OK and holds the TLVs, or is BAD_LENGTH for a version 1 request (R395). -/
def Shown (version : Nat) (rep : Reply) (tlvs : List Tlv) : Prop :=
  (rep.status = stOk ∧ ∀ v ∈ tlvs, v ∈ rep.tlvs) ∨ (version = 1 ∧ rep = refuse stBadLength)

theorem shown_okay {tlvs all : List Tlv} (version : Nat) (h : ∀ v ∈ tlvs, v ∈ all) : Shown version (okay all) tlvs :=
  .inl ⟨rfl, h⟩

theorem shown_readout {tlvs fixed : List Tlv} {version : Nat} {items : List Bytes} {next : Nat → Nat} (h : ∀ v ∈ tlvs, v ∈ fixed) :
    Shown version (readout version fixed items next) tlvs :=
  (readout_cases version fixed items next).imp_left fun hok => ⟨hok.1, fun v hv => hok.2 v (h v hv)⟩

theorem shown_byteRun {tlvs fixed : List Tlv} {version : Nat} {data : Bytes} {off : Nat} (h : ∀ v ∈ tlvs, v ∈ fixed) :
    Shown version (byteRun version fixed data off) tlvs :=
  (byteRun_cases version fixed data off).imp_left fun hok => ⟨hok.1, fun v hv => hok.2 v (h v hv)⟩

/-- A row of the readers holds where the opcode's own part changes nothing and shows the row's TLVs. -/
theorem Reader.Answers.of_act {x : Reader} {act : Request → List Tlv → State → Reply × State}
    (hruns : RunsBehindChecks x.cmd (fun _ => { code := x.code, auth := authRead, params := x.params }) x.allowed act)
    (hact : ∀ r b s, x.ready b s = true → ∃ rep, act r b s = (rep, s) ∧ Shown r.version rep (x.shows b s)) : x.Answers := by
  intro r s hmeets
  obtain ⟨hp, hready⟩ := Bool.and_eq_true_iff.1 hmeets
  obtain ⟨rep, he, hshown⟩ := hact r r.body (taken r s) hready
  exact ⟨rep, by rw [hruns.of_passes hp, he], hshown⟩

/-! ### The readers of chapters 1 and 2 -/

theorem frameReaders_answer : ∀ x ∈ frameReaders, x.Answers := by
  simp only [frameReaders, List.forall_mem_cons]
  refine ⟨?frameGet, ?frameGetStats, ?frameGetPresence, ?frameGetContribution, ?timeGet, List.forall_mem_nil _⟩
  case frameGet =>
    exact .of_act (fun _ _ => rfl) fun r b s _ => ⟨_, rfl, shown_okay _ (by simp)⟩
  case frameGetStats =>
    exact .of_act (fun _ _ => rfl) fun r b s _ => ⟨_, rfl, shown_readout (by simp)⟩
  case frameGetPresence =>
    refine .of_act (fun _ _ => rfl) fun r b s hready => ?_
    obtain ⟨hsome, hrecent⟩ := Bool.and_eq_true_iff.1 hready
    obtain ⟨m, hm⟩ := Option.isSome_iff_exists.1 hsome
    simp only [hm, hrecent, Option.filter_some, if_true]
    exact ⟨_, rfl, shown_okay _ (by simp)⟩
  case frameGetContribution =>
    refine .of_act (fun _ _ => rfl) fun r b s hready => ?_
    obtain ⟨c, hc⟩ := Option.isSome_iff_exists.1 hready
    simp only [hc]
    exact ⟨_, rfl, shown_byteRun (by simp)⟩
  case timeGet =>
    refine .of_act (fun _ _ => rfl) fun r b s _ => ⟨_, rfl, shown_okay _ ?_⟩
    cases hroot : isRoot s <;> simp [hroot]

/-! ### The readers of chapters 3 to 8 -/

theorem windowReaders_answer : ∀ x ∈ windowReaders, x.Answers := by
  simp only [windowReaders, List.forall_mem_cons]
  refine ⟨?winGet, ?winGetStream, ?ctrRead, ?ctrGetMap, ?senRead, ?senGet, List.forall_mem_nil _⟩
  case winGet =>
    refine .of_act (fun _ _ => rfl) fun r b s hready => ?_
    have hport : ¬ num tIndex b ≥ portCount s := Nat.not_le.2 (of_decide_eq_true hready)
    exact ⟨_, if_neg hport, shown_byteRun (by simp)⟩
  case winGetStream =>
    refine .of_act (fun _ _ => rfl) fun r b s hready => ?_
    have hstream : isStream (num tEntity b) s = true := hready
    exact ⟨_, if_neg (by simp [hstream]), shown_okay _ (by simp)⟩
  case ctrRead =>
    refine .of_act (fun _ _ => rfl) fun r b s hready => ?_
    simp only [Bool.and_eq_true, Bool.not_eq_true', decide_eq_true_eq] at hready
    obtain ⟨⟨⟨hgiven, hchoice⟩, hin⟩, hmany⟩ := hready
    exact ⟨_, (if_neg (by simp [hgiven, hchoice])).trans (if_neg (by simp [hin, hmany])), shown_readout (by simp)⟩
  case ctrGetMap =>
    exact .of_act (fun _ _ => rfl) fun r b s _ => ⟨_, rfl, shown_readout (by simp)⟩
  case senRead =>
    refine .of_act (fun _ _ => rfl) fun r b s hready => ?_
    simp only [Bool.and_eq_true, Bool.not_eq_true'] at hready
    obtain ⟨hgiven, hin⟩ := hready
    exact ⟨_, (if_neg (by simp [hgiven])).trans (if_neg (by simp [hin])), shown_readout (by simp)⟩
  case senGet =>
    exact .of_act (fun _ _ => rfl) fun r b s _ => ⟨_, rfl, shown_okay _ (by simp)⟩

theorem reduceReaders_answer : ∀ x ∈ reduceReaders, x.Answers := by
  simp only [reduceReaders, List.forall_mem_cons]
  refine ⟨?redGetCatalogue, ?redGetSummary, ?redGetReturned, ?redTest, ?redGetCheck, ?feaGetTable, ?feaGetVector, ?plnRead, ?plnGetAlarms,
    List.forall_mem_nil _⟩
  case redGetCatalogue =>
    refine .of_act (fun _ _ => rfl) fun r b s hready => ?_
    simp only [Bool.and_eq_true, decide_eq_true_eq] at hready
    obtain ⟨hgroup, hchoice⟩ := hready
    exact ⟨_, (if_neg (Nat.not_lt.2 hgroup)).trans (if_neg (Nat.not_lt.2 hchoice)), shown_byteRun (by simp)⟩
  case redGetSummary =>
    refine .of_act (fun _ _ => rfl) fun r b s hready => ?_
    obtain ⟨hsome, hrecent⟩ := Bool.and_eq_true_iff.1 hready
    obtain ⟨c, hc⟩ := Option.isSome_iff_exists.1 hsome
    simp only [hc, hrecent, Option.filter_some, if_true]
    exact ⟨_, rfl, shown_byteRun (by simp)⟩
  case redGetReturned =>
    refine .of_act (fun _ _ => rfl) fun r b s hready => ?_
    obtain ⟨p, hsummary⟩ := Option.isSome_iff_exists.1 hready
    simp only [hsummary]
    exact ⟨_, rfl, shown_byteRun (by simp)⟩
  case redTest =>
    refine .of_act (fun _ _ => rfl) fun r b s hready => ?_
    simp only [Bool.and_eq_true, beq_iff_eq, decide_eq_true_eq] at hready
    obtain ⟨⟨⟨hwhole, hshort⟩, hlow⟩, hhigh⟩ := hready
    exact ⟨_, (if_neg (by simp [hwhole, hshort])).trans (if_neg (by simp [hlow, hhigh])), shown_okay _ (by simp)⟩
  case redGetCheck =>
    refine .of_act (fun _ _ => rfl) fun r b s hready => ?_
    obtain ⟨c, hc⟩ := Option.isSome_iff_exists.1 hready
    simp only [hc]
    exact ⟨_, rfl, shown_okay _ (by simp)⟩
  case feaGetTable =>
    refine .of_act (fun _ _ => rfl) fun r b s hready => ?_
    have hchoice : ¬ choice b > 1 := Nat.not_lt.2 (of_decide_eq_true hready)
    exact ⟨_, if_neg hchoice, shown_byteRun (by simp)⟩
  case feaGetVector =>
    refine .of_act (fun _ _ => rfl) fun r b s hready => ?_
    simp only [Bool.and_eq_true, decide_eq_true_eq] at hready
    obtain ⟨hentity, hlisted⟩ := hready
    exact ⟨_, (if_neg (Nat.not_lt.2 hentity)).trans (if_neg (by rw [← Option.not_isSome, hlisted]; decide)), shown_byteRun (by simp)⟩
  case plnRead =>
    refine .of_act (fun _ _ => rfl) fun r b s hready => ?_
    simp only [Bool.and_eq_true, beq_iff_eq, Bool.not_eq_true'] at hready
    obtain ⟨⟨hpairs, hin⟩, hfound⟩ := hready
    have hnone : ((((nums tIndex b).zip (nums tEntity b)).map fun p =>
        s.fea.trackers.zipIdx.find? fun t => t.1.metric == p.1 && t.1.entity == p.2).any (·.isNone)) = false := by
      rw [List.any_map, ← Bool.not_eq_true', List.not_any_eq_all_not, ← hfound]
      exact List.all_congr rfl fun _ => Option.not_isNone _
    exact ⟨_, (if_neg (by simp [hpairs])).trans ((if_neg (by simp [hin])).trans (if_neg (by simp [hnone]))), shown_readout (by simp)⟩
  case plnGetAlarms =>
    refine .of_act (fun _ _ => rfl) fun r b s hready => ?_
    have hgiven : ¬ (nums tIndex b).any (· ≥ ((s.fea.active.map (·.trackers.length)).getD 0)) = true := by simpa using hready
    refine ⟨_, if_neg fun hany => hgiven ?_, shown_readout (by simp)⟩
    split at hany
    · obtain ⟨m, hm, hle⟩ := List.any_eq_true.1 hany
      exact absurd (List.mem_range.1 hm) (Nat.not_lt.2 (of_decide_eq_true hle))
    · exact hany

theorem glenReaders_answer : ∀ x ∈ glenReaders, x.Answers := by
  simp only [glenReaders, List.forall_mem_cons]
  refine ⟨?glenGet, ?glenEval, ?glenTestLink, ?glenGetFindings, ?glenGetHistory, List.forall_mem_nil _⟩
  case glenGet =>
    exact .of_act (fun _ _ => rfl) fun r b s _ => ⟨_, rfl, shown_readout (by simp)⟩
  case glenEval =>
    refine .of_act (fun _ _ => rfl) fun r b s hready => ?_
    simp only [Bool.and_eq_true, Bool.not_eq_true', beq_iff_eq, decide_eq_true_eq] at hready
    obtain ⟨⟨⟨⟨⟨hwhole, hactive⟩, hkind⟩, honce⟩, hin⟩, hmany⟩ := hready
    obtain ⟨kind, hkind⟩ := Option.isSome_iff_exists.1 hkind
    have hwhole' : ¬ (((val? tData b).getD []).length % 8 != 0) = true := by simp [hwhole]
    have hactive' : ¬ s.glen.active.isEmpty = true := by simp [hactive]
    simp only [if_neg hwhole', if_neg hactive', hkind]
    simp only [List.map_map, Function.comp_def, List.length_map] at honce hin hmany ⊢
    exact ⟨_, (if_neg (by simp [honce])).trans (if_neg (by simp [hin, hmany])), shown_readout (by simp)⟩
  case glenTestLink =>
    refine .of_act (fun _ _ => rfl) fun r b s hready => ?_
    simp only [Bool.and_eq_true, Bool.not_eq_true', beq_iff_eq, decide_eq_true_eq] at hready
    obtain ⟨⟨hwhole, hshort⟩, hnumbers⟩ := hready
    exact ⟨_, (if_neg (by simp [hwhole, hshort])).trans (if_neg (by simpa [List.any_map, Function.comp_def] using hnumbers)), shown_readout (by simp)⟩
  case glenGetFindings =>
    exact .of_act (fun _ _ => rfl) fun r b s _ => ⟨_, rfl, shown_readout (by simp)⟩
  case glenGetHistory =>
    refine .of_act (fun _ _ => rfl) fun r b s hready => ?_
    simp only [Bool.and_eq_true, Bool.not_eq_true', beq_iff_eq] at hready
    obtain ⟨⟨hpairs, hentities⟩, hheads⟩ := hready
    exact ⟨_, (if_neg (by simp [hpairs])).trans (if_neg (by simp [hentities, hheads])), shown_readout (by simp)⟩

theorem probeReaders_answer : ∀ x ∈ probeReaders, x.Answers := by
  simp only [probeReaders, List.forall_mem_cons]
  refine ⟨?probeGetPush, ?probeGet, ?probeGetCoverage, List.forall_mem_nil _⟩
  case probeGetPush =>
    refine .of_act (fun _ _ => rfl) fun r b s hready => ?_
    have hpushes : ¬ s.prb.pushes.isEmpty = true := by simpa using hready
    exact ⟨_, if_neg hpushes, shown_readout (by simp)⟩
  case probeGet =>
    exact .of_act (fun _ _ => rfl) fun r b s _ => ⟨_, rfl, shown_readout (by simp)⟩
  case probeGetCoverage =>
    refine .of_act (fun _ _ => rfl) fun r b s hready => ?_
    have htiles : ¬ (nums tIndex b).any (· > 39) = true := by simpa using hready
    exact ⟨_, if_neg htiles, shown_readout (by simp)⟩

/-- Settles O10, chapter by chapter: behind the checks that the row meets, the opcode's own part reads. -/
theorem frameAndModelReadersAnswer : Obligations.FrameAndModelReadersAnswer := by
  unfold Obligations.FrameAndModelReadersAnswer
  simp only [List.forall_mem_append]
  exact ⟨⟨⟨⟨frameReaders_answer, windowReaders_answer⟩, reduceReaders_answer⟩, glenReaders_answer⟩, probeReaders_answer⟩

/-! ### The readers of chapters 9 to 17 -/

theorem errorReaders_answer : ∀ x ∈ errorReaders, x.Answers := by
  simp only [errorReaders, List.forall_mem_cons]
  refine ⟨?errGet, ?errReadRing, ?errGetSignatures, ?psnGetBirths, ?psnGetCounts, List.forall_mem_nil _⟩
  case errGet =>
    exact .of_act (fun _ _ => rfl) fun r b s _ => ⟨_, rfl, shown_readout (by simp)⟩
  case errReadRing =>
    refine .of_act (fun _ _ => rfl) fun r b s hready => ?_
    have hheld : s.err.ring.any (·.seq == num tSeq b) = true := hready
    exact ⟨_, if_neg (by simp [hheld]), shown_readout (by simp)⟩
  case errGetSignatures | psnGetBirths =>
    exact .of_act (fun _ _ => rfl) fun r b s _ => ⟨_, rfl, shown_readout (by simp)⟩
  case psnGetCounts =>
    exact .of_act (fun _ _ => rfl) fun r b s _ => ⟨_, rfl, shown_okay _ (by simp)⟩


/-- A body that a row without parameters lets through is empty. -/
theorem eq_nil_of_checkBody_nil {b : List Tlv} (h : checkBody [] b = none) : b = [] := by
  cases b with
  | nil => rfl
  | cons v rest =>
    have hsome : ∃ e, walk [] (v :: rest) 0 0 = some e := by
      by_cases hlen : lengthBad none v = true <;> simp [walk, hlen]
    obtain ⟨e, he⟩ := hsome
    simp [checkBody, he] at h

/-- What passes a row without parameters also passes it where the opcode takes OFFSET. -/
theorem passes_of_no_params {code auth : Nat} {allowed : Bool} {r : Request} {s : State} {ty : Nat}
    (h : passes { code := code, auth := auth, params := [] } allowed r s = true) :
    passes { code := code, auth := auth, params := [may ty] } allowed r s = true := by
  obtain ⟨hrest, hbody⟩ := Bool.and_eq_true_iff.1 h
  have hnil : r.body = [] := eq_nil_of_checkBody_nil (Option.isNone_iff_eq_none.1 hbody)
  refine Bool.and_eq_true_iff.2 ⟨hrest, ?_⟩
  simp [hnil, checkBody, walk, may]

/-- TRC.GET_TRIGGERS with the OFFSET that it takes. -/
theorem trcGetTriggers_answers :
    ({ cmd := .trcGetTriggers, code := 0x0E05, params := [may tOffset]
       shows := fun _ s => [stBytes 0 (fullStamp (s.trc.stopAt.getD 0)), stU32 1 (stopState s)] } : Reader).Answers :=
  .of_act (fun _ _ => rfl) fun r b s _ => ⟨_, rfl, shown_readout (by simp)⟩

theorem traceReaders_answer : ∀ x ∈ traceReaders, x.Answers := by
  simp only [traceReaders, List.forall_mem_cons]
  refine ⟨?trcGet, ?trcGetTriggers, ?trcRead, ?trcReadHistory, ?trcGetStats, ?wptGet, List.forall_mem_nil _⟩
  case trcGet | trcGetStats | wptGet =>
    exact .of_act (fun _ _ => rfl) fun r b s _ => ⟨_, rfl, shown_readout (by simp)⟩
  case trcGetTriggers =>
    intro r s hmeets
    exact trcGetTriggers_answers r s (Bool.and_eq_true_iff.2 ((Bool.and_eq_true_iff.1 hmeets).imp_left passes_of_no_params))
  case trcRead =>
    refine .of_act (fun _ _ => rfl) fun r b s hready => ?_
    have hlocal : ¬ (s.trc.set.mode != trcLocal) = true := by simpa using hready
    exact ⟨_, if_neg hlocal, shown_readout (by simp)⟩
  case trcReadHistory =>
    refine .of_act (fun _ _ => rfl) fun r b s hready => ?_
    simp only [Bool.and_eq_true, Bool.not_eq_true'] at hready
    obtain ⟨hstamps, hstore⟩ := hready
    exact ⟨_, (if_neg (by simp [hstamps])).trans (if_neg (by simp [hstore])), shown_readout (by simp)⟩

theorem shutterReaders_answer : ∀ x ∈ shutterReaders, x.Answers := by
  simp only [shutterReaders, List.forall_mem_cons]
  refine ⟨?shutterGet, ?shutterGetCut, ?shutterListImages, ?shutterReadImage, ?cdcGet, List.forall_mem_nil _⟩
  case shutterGet =>
    exact .of_act (fun _ _ => rfl) fun r b s _ => ⟨_, rfl, shown_readout (by simp)⟩
  case shutterGetCut =>
    refine .of_act (fun _ _ => rfl) fun r b s hready => ?_
    obtain ⟨c, hc⟩ := Option.isSome_iff_exists.1 (List.isSome_find?.trans hready)
    simp only [hc]
    exact ⟨_, rfl, shown_okay _ (by simp)⟩
  case shutterListImages =>
    refine .of_act (fun _ _ => rfl) fun r b s hready => ?_
    have hstore : storeUsable s = true := hready
    exact ⟨_, if_neg (by simp [hstore]), shown_readout (by simp)⟩
  case shutterReadImage =>
    refine .of_act (fun _ _ => rfl) fun r b s hready => ?_
    obtain ⟨hstore, himage⟩ := Bool.and_eq_true_iff.1 hready
    obtain ⟨i, hi⟩ := Option.isSome_iff_exists.1 himage
    simp only [hstore, hi]
    exact ⟨_, rfl, shown_byteRun (by simp)⟩
  case cdcGet =>
    exact .of_act (fun _ _ => rfl) fun r b s _ => ⟨_, rfl, shown_okay _ (by simp)⟩

theorem isEmpty_filter_of_any {α : Type} {p : α → Bool} {l : List α} (h : l.any p = true) : (l.filter p).isEmpty = false := by
  obtain ⟨a, ha, hp⟩ := List.any_eq_true.1 h
  exact List.isEmpty_eq_false_iff_exists_mem.2 ⟨a, List.mem_filter.2 ⟨ha, hp⟩⟩

theorem recordReaders_answer : ∀ x ∈ recordReaders, x.Answers := by
  simp only [recordReaders, List.forall_mem_cons]
  refine ⟨?evrRead, ?evrGet, ?evrReadMirror, ?evrGetMirror, ?srmGet, ?srmGetMap, ?hshGetDigest, ?hshGetJobDigest, List.forall_mem_nil _⟩
  case evrRead =>
    refine .of_act (fun _ _ => rfl) fun r b s hready => ?_
    simp only [Bool.and_eq_true, decide_eq_true_eq] at hready
    obtain ⟨hbase, hhead⟩ := hready
    refine ⟨_, if_neg (by simp [hbase, hhead]), shown_okay _ fun v hv => ?_⟩
    exact (List.mem_append.1 hv).elim (List.mem_append_left _) fun hv => List.mem_append_right _ (List.mem_append_left [_] hv)
  case evrGet | srmGet | srmGetMap =>
    exact .of_act (fun _ _ => rfl) fun r b s _ => ⟨_, rfl, shown_okay _ (by simp)⟩
  case evrReadMirror =>
    refine .of_act (fun _ _ => rfl) fun r b s hready => ?_
    obtain ⟨k, hk⟩ := Option.isSome_iff_exists.1 hready
    simp only [hk]
    exact ⟨_, rfl, shown_okay _ (by simp)⟩
  case evrGetMirror =>
    exact .of_act (fun _ _ => rfl) fun r b s _ => ⟨_, rfl, shown_readout (by simp)⟩
  case hshGetDigest =>
    refine .of_act (fun _ _ => rfl) fun r b s hready => ?_
    cases hkey : namedKey b <;> cases hdie : isDie s <;> simp only [hkey, hdie] at hready
    case none.false =>
      have hstore : storeUsable s = true := hready
      exact ⟨_, (if_neg Bool.false_ne_true).trans ((if_neg (by simp [hstore])).trans (if_neg Bool.false_ne_true)), shown_readout (by simp)⟩
    case none.true => exact ⟨_, (if_pos rfl).trans (if_neg Bool.false_ne_true), shown_readout (by simp)⟩
    case some.false key =>
      obtain ⟨hfound, hstore⟩ := Bool.and_eq_true_iff.1 hready
      exact ⟨_, (if_neg Bool.false_ne_true).trans ((if_neg (by simp [hstore])).trans (if_neg (ne_true_of_eq_false (isEmpty_filter_of_any hfound)))),
        shown_readout (by simp)⟩
    case some.true key =>
      exact ⟨_, (if_pos rfl).trans (if_neg (ne_true_of_eq_false (isEmpty_filter_of_any hready))), shown_readout (by simp)⟩
  case hshGetJobDigest =>
    refine .of_act (fun _ _ => rfl) fun r b s hready => ?_
    cases hkey : namedKey b with
    | none => simp [hkey] at hready
    | some key =>
      simp only [hkey] at hready ⊢
      obtain ⟨j, hj⟩ := Option.isSome_iff_exists.1 (List.isSome_find?.trans hready)
      simp only [hj]
      exact ⟨_, rfl, shown_okay _ (by simp)⟩

/-- Doors are read out by index, or all of them where the index is within the unit's doors. -/
theorem doorReadout_answers {cmd : Request → Instr} {code : Nat} {fixed : Nat → State → List Tlv} {rec_ : Nat → State → Bytes}
    (hruns : ∀ r s, exec (cmd r) s = .next (finish code r (doorReadout code fixed rec_ r (taken r s)))) :
    ({ cmd := cmd, code := code, params := [may tIndex, may tOffset],
       ready := fun b s => (num? tIndex b).all (· < doorLimit s) } : Reader).Answers := by
  refine .of_act hruns fun r b s hready => ?_
  cases hindex : num? tIndex b with
  | none => exact ⟨_, rfl, shown_readout (by simp)⟩
  | some d =>
    have hdoor : ¬ d ≥ doorLimit s := by simpa [hindex] using hready
    exact ⟨_, if_neg hdoor, shown_readout (by simp)⟩

theorem unitReaders_answer : ∀ x ∈ unitReaders, x.Answers := by
  simp only [unitReaders, List.forall_mem_cons]
  refine ⟨?doorGet, ?doorGetStats, ?secGet, ?cmdGet, ?cmdEcho, ?pwrGet, ?pnlGet, ?pnlGetLog, List.forall_mem_nil _⟩
  case doorGet | doorGetStats =>
    exact doorReadout_answers fun _ _ => rfl
  case secGet | pwrGet =>
    exact .of_act (fun _ _ => rfl) fun r b s _ => ⟨_, rfl, shown_okay _ (by simp)⟩
  case cmdGet | pnlGet =>
    exact .of_act (fun _ _ => rfl) fun r b s _ => ⟨_, rfl, shown_readout (by simp)⟩
  case cmdEcho =>
    refine .of_act (fun _ _ => rfl) fun r b s hready => ?_
    have hshort : ¬ ((val? tData b).getD []).length > 1984 := Nat.not_lt.2 (of_decide_eq_true hready)
    exact ⟨_, congrArg (·, s) (if_neg hshort), shown_okay _ (by simp)⟩
  case pnlGetLog =>
    refine .of_act (fun _ _ => rfl) fun r b s hready => ?_
    simp only [Bool.and_eq_true, decide_eq_true_eq] at hready
    obtain ⟨holdest, hnext⟩ := hready
    exact ⟨_, if_neg (by simp; omega), shown_readout (by simp)⟩

/-- Settles O11, chapter by chapter, as O10. -/
theorem recordAndUnitReadersAnswer : Obligations.RecordAndUnitReadersAnswer := by
  unfold Obligations.RecordAndUnitReadersAnswer
  simp only [List.forall_mem_append]
  exact ⟨⟨⟨⟨errorReaders_answer, traceReaders_answer⟩, shutterReaders_answer⟩, recordReaders_answer⟩, unitReaders_answer⟩


end Sys2Proof.Machine
end

section
/-! PROOFS. What refutes O8: the row of TRC.GET_TRIGGERS names no parameter, and the opcode takes an OFFSET. -/
namespace Sys2Proof.Machine

/-- A reply that refuses is counted at its row and path. -/
theorem refusals_recorded_of_ge {r : Request} {p : Reply} (s : State) (hp : 0x100 ≤ p.status) :
    (recorded r p s).sec.refusals = (countRefusal (rowOf p.status) r.path s).sec.refusals := by
  rw [recorded, if_pos hp]
  rfl

theorem countRefusal_ne {row : Nat} {path : Path} {s : State} (hnone : s.sec.refusals = []) : (countRefusal row path s).sec.refusals ≠ [] := by
  simp [countRefusal, hnone, tput]

/-- A refused request leaves another state than one that is answered, where no refusal was counted before. -/
theorem finish_refused_ne_answered {code st : Nat} {r : Request} {p : Reply} {s : State} (hst : 0x100 ≤ st) (hp : p.status = stOk)
    (hnone : s.sec.refusals = []) : finish code r (refuse st, s) ≠ finish code r (p, s) := by
  intro heq
  have hsec := congrArg (·.sec.refusals) heq
  simp only [sec_finish] at hsec
  rw [refusals_recorded_of_ge s hst, refusals_recorded_of_lt s (hp ▸ by decide), hnone] at hsec
  exact countRefusal_ne hnone hsec

/-- A working die unit with one session, and TRC.GET_TRIGGERS with an OFFSET in that session. -/
def workingDie : State :=
  let z := State.resetFor { hub := false }
  { z with pwr := { z.pwr with phase := .working }
           sec := { z.sec with boundary := .operational, active := some 0, sessions := [{ id := 1, auth := 63, key := zeros 32, notAfter := 0 }] } }

def triggersFrom0 : Request := { after := 0, path := .host, session := 1, version := 2, seq := 1, body := [⟨tOffset, zeros 8⟩] }

/-- Refutes O8: the row of TRC.GET_TRIGGERS in `traceReaders` lets no parameter through, but the opcode takes OFFSET, and answers OK. -/
theorem not_refusedRequestChangesNothing : ¬ Obligations.RefusedRequestChangesNothing := by
  unfold Obligations.RefusedRequestChangesNothing
  intro h
  let row : Reader :=
    { cmd := .trcGetTriggers, code := 0x0E05
      shows := fun _ s => [stBytes 0 (fullStamp (s.trc.stopAt.getD 0)), stU32 1 (stopState s)] }
  have hrow : row ∈ traceReaders := by simp [row, traceReaders]
  have hrefused : passes { code := 0x0E05, auth := authRead, params := [] } true triggersFrom0 (taken triggersFrom0 workingDie) = false := by
    decide
  have hpasses : passes { code := 0x0E05, auth := authRead, params := [may tOffset] } true triggersFrom0 (taken triggersFrom0 workingDie) = true := by
    decide
  obtain ⟨st, hst, hexec⟩ := h.1 row (by simp [hrow]) triggersFrom0 workingDie hrefused
  obtain ⟨rep, hok, hshown⟩ := trcGetTriggers_answers triggersFrom0 workingDie (Bool.and_eq_true_iff.2 ⟨hpasses, rfl⟩)
  have hstatus : rep.status = stOk := hshown.elim (·.1) fun hv => absurd hv.1 (by decide)
  have hge : 0x100 ≤ st := by
    have hall : ∀ e ∈ [stBusy, stAuth, stState, stPermit, stBadLength, stBadParam], 0x100 ≤ e := by decide
    exact hall st hst
  exact finish_refused_ne_answered hge hstatus (s := taken triggersFrom0 workingDie) rfl (Host.Outcome.next.inj (hexec.symm.trans hok))

end Sys2Proof.Machine
end

section
/-! PROOFS. What refuses a request leaves the state as it was (R381): the obligation O9. -/
namespace Sys2Proof.Machine

/-- Where the reply refuses, the state is the one in which the request was taken. -/
def Rejects (x : Reply × State) (t : State) : Prop := 0x100 ≤ x.1.status → x.2 = t

@[simp] theorem rejects_unchanged (p : Reply) (t : State) : Rejects (p, t) t := fun _ => rfl

theorem rejects_of_lt {x : Reply × State} {t : State} (h : x.1.status < 0x100) : Rejects x t := fun hp => absurd h (Nat.not_lt.2 hp)

@[simp] theorem rejects_okay (l : List Tlv) (u t : State) : Rejects (okay l, u) t := rejects_of_lt (show stOk < 0x100 by decide)

/-- A branch is judged on each side: a check that refuses leaves what follows it. -/
@[simp] theorem rejects_ite {c : Prop} [Decidable c] (x y : Reply × State) (t : State) :
    Rejects (if c then x else y) t ↔ (c → Rejects x t) ∧ (¬ c → Rejects y t) := by
  split <;> simp [*]

/-- An effect that goes with an OK reply alone. -/
theorem rejects_effect_if_ok {p : Reply} {c : Bool} {u t : State} (hc : c = true → p.status = stOk) : Rejects (p, if c then u else t) t := by
  cases c with
  | false => exact rejects_unchanged p t
  | true => exact rejects_of_lt (show p.status < 0x100 from hc rfl ▸ by decide)

theorem rejects_deferred {f cur : Nat} {l : List Tlv} {u t : State} :
    Rejects (if f ≤ cur then (refuse stRange, t) else ({ status := stDeferred, tlvs := l }, u)) t := by
  simp only [rejects_ite, rejects_unchanged, implies_true, true_and]
  exact fun _ => rejects_of_lt (show stDeferred < 0x100 by decide)

@[simp] theorem rejects_defer (code object f : Nat) (c : Change) (t : State) : Rejects (defer code object f c t) t := rejects_deferred

@[simp] theorem rejects_deferModel (code f : Nat) (c : Change) (t : State) : Rejects (deferModel code f c t) t := rejects_deferred

@[simp] theorem rejects_deferTile (code k f : Nat) (on : Bool) (t : State) : Rejects (deferTile code k f on t) t := rejects_deferred

theorem rejects_acceptParams (p : FrameParams) (t : State) : Rejects (acceptParams p t) t := rejects_of_lt (show stDeferred < 0x100 by decide)

theorem Rejects.command {o : Op} {allowed : Bool} {r : Request} {act : List Tlv → State → Reply × State} {t : State}
    (h : ∀ b, Rejects (act b t) t) : Rejects (command o allowed r act t) t := by
  obtain hact | ⟨st, hst⟩ := command_or (o := o) (a := allowed) (r := r) (s := t) act
  · rw [hact]
    exact h _
  · rw [hst]
    exact rejects_unchanged _ _

theorem rejects_setSeeds (b : List Tlv) (t : State) : Rejects (setSeeds b t) t := by
  simp [setSeeds]

theorem rejects_setAuditDie (b : List Tlv) (t : State) : Rejects (setAuditDie b t) t := by
  simp [setAuditDie]

theorem immediateStop_refused {cause mode e : Nat} {t u : State} (h : immediateStop cause mode t = (some e, u)) : u = t := by
  unfold immediateStop at h
  split at h
  · exact (Prod.mk.inj h).2.symm
  · split at h
    · cases h
    · split at h
      · exact (Prod.mk.inj h).2.symm
      · cases h

theorem rejects_rotateSession (r : Request) (d : Bytes) (t : State) : Rejects (rotateSession r d t) t := by
  unfold rotateSession
  simp only [rejects_ite, rejects_unchanged, implies_true, true_and]
  intro _
  split <;> simp

theorem rejects_rotateAnchor (revoke : Bool) (d : Bytes) (t : State) : Rejects (rotateAnchor revoke d t) t := by
  unfold rotateAnchor
  simp only [rejects_ite, rejects_unchanged, rejects_okay, implies_true, true_and, and_true]
  intros
  split <;> simp

theorem rejects_rotateOwnership (d : Bytes) (t : State) : Rejects (rotateOwnership d t) t := by
  unfold rotateOwnership
  simp only [rejects_ite, rejects_unchanged, implies_true, true_and]
  intros
  split <;> simp

theorem rejects_secRotateKey (r : Request) (t : State) : Rejects (secRotateKey r t) t := by
  refine .command fun b => ?_
  simp only [rejects_ite, rejects_unchanged, implies_true, true_and]
  intro _
  split
  · exact rejects_rotateSession r _ t
  · exact rejects_rotateAnchor _ _ t
  · exact rejects_rotateOwnership _ t
  · simp

theorem rejects_secOpenSession (r : Request) (t : State) : Rejects (secOpenSession r t).2 t := by
  unfold secOpenSession
  dsimp only
  (repeat' split) <;> simp only [rejects_unchanged, rejects_okay]

/-- What O9 says of one opcode. -/
def RejectsAlone (x : (Request → Instr) × Nat) : Prop :=
  ∀ (r : Request) (s : State), ∃ key p u, exec (x.1 r) s = .next (answerWith key x.2 r p u) ∧ (0x100 ≤ p.status → u = taken r s)

theorem RejectsAlone.of_finish {cmd : Request → Instr} {code : Nat} {op : Request → State → Reply × State}
    (hexec : ∀ r s, exec (cmd r) s = .next (finish code r (op r (taken r s)))) (hop : ∀ r t, Rejects (op r t) t) : RejectsAlone (cmd, code) :=
  fun r s => ⟨_, _, _, hexec r s, hop r _⟩

/-- Settles O9, opcode by opcode: each branch refuses in the state as taken, or its reply is no refusal. -/
theorem rejectionLeavesStateUnchanged : Obligations.RejectionLeavesStateUnchanged := by
  show ∀ x ∈ answeredOpcodes, RejectsAlone x
  simp only [answeredOpcodes, List.forall_mem_cons]
  refine ⟨.of_finish (fun _ _ => rfl) ?frameSet, .of_finish (fun _ _ => rfl) ?frameGet,
    .of_finish (fun _ _ => rfl) ?frameSetGroup, .of_finish (fun _ _ => rfl) ?frameGetStats,
    .of_finish (fun _ _ => rfl) ?frameGetPresence, .of_finish (fun _ _ => rfl) ?frameGetContribution,
    .of_finish (fun _ _ => rfl) ?timeGet, .of_finish (fun _ _ => rfl) ?timeSet, .of_finish (fun _ _ => rfl) ?timeSetSource,
    .of_finish (fun _ _ => rfl) ?timeSetTod, .of_finish (fun _ _ => rfl) ?timeSetCal,
    .of_finish (fun _ _ => rfl) ?timeSetServo, .of_finish (fun _ _ => rfl) ?timeSetUtc,
    .of_finish (fun _ _ => rfl) ?timeStepRoot, .of_finish (fun _ _ => rfl) ?winGet,
    .of_finish (fun _ _ => rfl) ?winSetEnable, .of_finish (fun _ _ => rfl) ?winGetStream,
    .of_finish (fun _ _ => rfl) ?ctrRead, .of_finish (fun _ _ => rfl) ?ctrClear, .of_finish (fun _ _ => rfl) ?ctrGetMap,
    .of_finish (fun _ _ => rfl) ?senRead, .of_finish (fun _ _ => rfl) ?senGet, .of_finish (fun _ _ => rfl) ?senActivateTrim,
    .of_finish (fun _ _ => rfl) ?redActivateCatalogue, .of_finish (fun _ _ => rfl) ?redGetCatalogue,
    .of_finish (fun _ _ => rfl) ?redGetSummary, .of_finish (fun _ _ => rfl) ?redGetReturned,
    .of_finish (fun _ _ => rfl) ?redTest, .of_finish (fun _ _ => rfl) ?redGetCheck, .of_finish (fun _ _ => rfl) ?doorGet,
    .of_finish (fun _ _ => rfl) ?doorSet, .of_finish (fun _ _ => rfl) ?doorRetrain,
    .of_finish (fun _ _ => rfl) ?doorClearQuarantine, .of_finish (fun _ _ => rfl) ?doorGetStats,
    .of_finish (fun _ _ => rfl) ?feaActivateTable, .of_finish (fun _ _ => rfl) ?feaGetTable,
    .of_finish (fun _ _ => rfl) ?feaGetVector, .of_finish (fun _ _ => rfl) ?plnRead, .of_finish (fun _ _ => rfl) ?plnReset,
    .of_finish (fun _ _ => rfl) ?plnGetAlarms, .of_finish (fun _ _ => rfl) ?glenActivate,
    .of_finish (fun _ _ => rfl) ?glenDeactivate, .of_finish (fun _ _ => rfl) ?glenGet,
    .of_finish (fun _ _ => rfl) ?glenSetMode, .of_finish (fun _ _ => rfl) ?glenSetStraggler,
    .of_finish (fun _ _ => rfl) ?glenEval, .of_finish (fun _ _ => rfl) ?glenTestLink,
    .of_finish (fun _ _ => rfl) ?glenGetFindings, .of_finish (fun _ _ => rfl) ?glenGetHistory,
    .of_finish (fun _ _ => rfl) ?probeActivatePack, .of_finish (fun _ _ => rfl) ?probeEndPush,
    .of_finish (fun _ _ => rfl) ?probeGetPush, .of_finish (fun _ _ => rfl) ?probeSet, .of_finish (fun _ _ => rfl) ?probeGet,
    .of_finish (fun _ _ => rfl) ?probeGetCoverage, .of_finish (fun _ _ => rfl) ?probeClearCoverage,
    .of_finish (fun _ _ => rfl) ?probeDisableTile, .of_finish (fun _ _ => rfl) ?probeResumeTile,
    .of_finish (fun _ _ => rfl) ?errSetRoute, .of_finish (fun _ _ => rfl) ?errFetch, .of_finish (fun _ _ => rfl) ?errGet,
    .of_finish (fun _ _ => rfl) ?errReadRing, .of_finish (fun _ _ => rfl) ?errInject,
    .of_finish (fun _ _ => rfl) ?errSetExport, .of_finish (fun _ _ => rfl) ?errGetSignatures,
    .of_finish (fun _ _ => rfl) ?psnGetBirths, .of_finish (fun _ _ => rfl) ?psnGetCounts,
    .of_finish (fun _ _ => rfl) ?trcSet, .of_finish (fun _ _ => rfl) ?trcGet, .of_finish (fun _ _ => rfl) ?trcTrigger,
    .of_finish (fun _ _ => rfl) ?trcArm, .of_finish (fun _ _ => rfl) ?trcGetTriggers, .of_finish (fun _ _ => rfl) ?trcRead,
    .of_finish (fun _ _ => rfl) ?trcReadHistory, .of_finish (fun _ _ => rfl) ?trcSetHistory,
    .of_finish (fun _ _ => rfl) ?trcGetStats, .of_finish (fun _ _ => rfl) ?wptSet, .of_finish (fun _ _ => rfl) ?wptGet,
    .of_finish (fun _ _ => rfl) ?wptEnableData, .of_finish (fun _ _ => rfl) ?wptDisableData,
    .of_finish (fun _ _ => rfl) ?wptReadCapture, .of_finish (fun _ _ => rfl) ?shutterSet,
    .of_finish (fun _ _ => rfl) ?shutterStop, .of_finish (fun _ _ => rfl) ?shutterArmTimed,
    .of_finish (fun _ _ => rfl) ?shutterCancelTimed, .of_finish (fun _ _ => rfl) ?shutterScan,
    .of_finish (fun _ _ => rfl) ?shutterAbortScan, .of_finish (fun _ _ => rfl) ?shutterResume,
    .of_finish (fun _ _ => rfl) ?shutterSetHang, .of_finish (fun _ _ => rfl) ?shutterActivateProgram,
    .of_finish (fun _ _ => rfl) ?shutterGet, .of_finish (fun _ _ => rfl) ?shutterGetCut,
    .of_finish (fun _ _ => rfl) ?shutterSetArea, .of_finish (fun _ _ => rfl) ?shutterListImages,
    .of_finish (fun _ _ => rfl) ?shutterReadImage, .of_finish (fun _ _ => rfl) ?shutterReleaseImage,
    .of_finish (fun _ _ => rfl) ?shutterReadScan, .of_finish (fun _ _ => rfl) ?cdcGet, .of_finish (fun _ _ => rfl) ?evrRead,
    .of_finish (fun _ _ => rfl) ?evrGet, .of_finish (fun _ _ => rfl) ?evrClear, .of_finish (fun _ _ => rfl) ?evrReadMirror,
    .of_finish (fun _ _ => rfl) ?evrGetMirror, .of_finish (fun _ _ => rfl) ?evrClearMirror,
    .of_finish (fun _ _ => rfl) ?srmGet, .of_finish (fun _ _ => rfl) ?srmGetMap, .of_finish (fun _ _ => rfl) ?hshGet,
    .of_finish (fun _ _ => rfl) ?hshSetAudit, .of_finish (fun _ _ => rfl) ?hshGetDigest,
    .of_finish (fun _ _ => rfl) ?hshGetJobDigest, .of_finish (fun _ _ => rfl) ?secGet,
    .of_finish (fun _ _ => rfl) ?secGetCert, ?secOpenSession, ?secCloseSession, ?secRotateKey,
    .of_finish (fun _ _ => rfl) ?secHandover, .of_finish (fun _ _ => rfl) ?cmdGet, .of_finish (fun _ _ => rfl) ?cmdEcho,
    .of_finish (fun _ _ => rfl) ?pwrGet, .of_finish (fun _ _ => rfl) ?pwrSet, .of_finish (fun _ _ => rfl) ?pnlGet,
    .of_finish (fun _ _ => rfl) ?pnlSetLed, .of_finish (fun _ _ => rfl) ?pnlGetLog, List.forall_mem_nil _⟩
  case frameGet | frameSetGroup | frameGetStats | timeGet | timeSet | timeSetSource | timeSetTod | timeSetCal | timeSetServo |
      timeSetUtc | winGet | winSetEnable | winGetStream | ctrRead | ctrClear | ctrGetMap | senRead | senGet | senActivateTrim |
      redActivateCatalogue | redGetCatalogue | redTest | doorSet | doorRetrain | doorClearQuarantine | feaActivateTable |
      feaGetTable | feaGetVector | plnRead | plnReset | plnGetAlarms | glenActivate | glenDeactivate | glenGet | glenSetMode |
      glenSetStraggler | glenTestLink | glenGetFindings | glenGetHistory | probeActivatePack | probeEndPush | probeGetPush |
      probeSet | probeGet | probeGetCoverage | probeClearCoverage | probeDisableTile | probeResumeTile | errSetRoute | errGet |
      errReadRing | errInject | errSetExport | errGetSignatures | psnGetBirths | psnGetCounts | trcSet | trcGet | trcArm |
      trcGetTriggers | trcRead | trcReadHistory | trcSetHistory | trcGetStats | wptSet | wptGet | wptEnableData |
      wptDisableData | shutterSet | shutterArmTimed | shutterScan | shutterAbortScan | shutterResume | shutterSetHang |
      shutterActivateProgram | shutterGet | shutterSetArea | shutterListImages | cdcGet | evrRead | evrGet | evrClear |
      evrGetMirror | evrClearMirror | srmGet | srmGetMap | hshGetDigest | secGet | secHandover | cmdGet | cmdEcho | pwrGet |
      pwrSet | pnlGet | pnlSetLed | pnlGetLog =>
    exact fun r t => .command fun b => by simp only [rejects_unchanged, rejects_okay, rejects_defer, rejects_deferModel, rejects_deferTile, rejects_ite, implies_true, and_self]
  case frameGetPresence | frameGetContribution | redGetSummary | redGetReturned | redGetCheck | shutterGetCut | evrReadMirror |
      doorGet | doorGetStats | secGetCert =>
    refine fun r t => .command fun b => ?_
    split <;> simp only [rejects_ite, rejects_unchanged, rejects_okay, implies_true, and_self]
  case hshGetJobDigest =>
    refine fun r t => .command fun b => ?_
    split
    · exact rejects_unchanged _ _
    · split <;> exact rejects_unchanged _ _
  case glenEval | shutterReadImage | shutterReleaseImage | trcTrigger =>
    refine fun r t => .command fun b => ?_
    simp only [rejects_ite, rejects_unchanged, rejects_okay, implies_true, true_and]
    intros
    split <;> simp only [rejects_ite, rejects_unchanged, rejects_okay, implies_true, and_self]
  case shutterCancelTimed =>
    refine fun r t => .command fun b => ?_
    simp only [rejects_ite]
    constructor <;> intro _ <;> split <;> simp only [rejects_ite, rejects_unchanged, rejects_okay, implies_true, and_self]
  case frameSet =>
    refine fun r t => .command fun b => ?_
    cases role t <;> simp only [rejects_ite, rejects_unchanged, rejects_acceptParams, implies_true, and_self]
  case timeStepRoot =>
    refine fun r t => .command fun b => ?_
    simp only [rejects_ite, rejects_unchanged, implies_true, true_and]
    intro hrange
    have hahead : ¬ num tFrame b ≤ curFrame t := by
      simp only [Bool.or_eq_true, decide_eq_true_eq] at hrange
      omega
    rw [defer, if_neg hahead]
    exact rejects_of_lt (show stDeferred < 0x100 by decide)
  case errFetch | wptReadCapture =>
    refine fun r t => .command fun b => ?_
    simp only [rejects_ite, rejects_unchanged, implies_true, true_and]
    intros
    exact rejects_effect_if_ok (by simp)
  case hshGet =>
    exact fun r t => .command fun b => rejects_effect_if_ok (by simp)
  case shutterStop =>
    refine fun r t => .command fun b => ?_
    simp only [rejects_ite, rejects_unchanged, implies_true, true_and]
    intro _
    split
    next e u hstop => exact immediateStop_refused hstop ▸ rejects_unchanged _ _
    next => exact rejects_okay _ _ _
  case shutterReadScan =>
    refine fun r t => .command fun b => ?_
    simp only [rejects_ite, rejects_unchanged, implies_true, true_and]
    exact fun _ => rejects_of_lt (show stOk < 0x100 by decide)
  case hshSetAudit =>
    exact fun r t => .command fun b => (rejects_ite _ _ _).2 ⟨fun _ => rejects_setSeeds b t, fun _ => rejects_setAuditDie b t⟩
  case secOpenSession => exact fun r s => ⟨_, _, _, rfl, rejects_secOpenSession r _⟩
  case secCloseSession =>
    have hop : ∀ r t, Rejects (secCloseSession r t) t := fun r t => .command fun b => by simp only [rejects_unchanged, rejects_okay, rejects_ite, implies_true, and_self]
    exact fun r s => ⟨_, _, _, rfl, hop r _⟩
  case secRotateKey => exact fun r s => ⟨_, _, _, rfl, rejects_secRotateKey r _⟩

end Sys2Proof.Machine
end

section
/-! PROOFS. Opcodes that act at a frame (R390, R391): the obligations O12 to O14. Where the row's conditions hold, one question is
left, whether the frame is still to come. -/
namespace Sys2Proof.Machine

/-- What an opcode that acts at a frame makes of a request that meets its row: OUT_OF_RANGE for a past frame, and else the
pending change. -/
def Deferral.outcome (x : Deferral) (b : List Tlv) (t : State) : Reply × State :=
  if num tFrame b ≤ curFrame t then (refuse stRange, t) else
  ({ status := stDeferred
     tlvs := effect (num tFrame b) :: ((x.replaced b t).map fun p => (⟨tReplaced, toLe 8 p.frame⟩ : Tlv)).toList },
   setPend ⟨x.code, x.object b t, num tFrame b, x.change b t⟩ (x.rivals.foldl (fun u c => dropPend c (x.object b t) u) t))

def Deferral.Settles (x : Deferral) : Prop :=
  ∀ (r : Request) (s : State), x.meets r s = true → exec (x.cmd r) s = .next (finish x.code r (x.outcome r.body (taken r s)))

theorem Deferral.Settles.takes {x : Deferral} (h : x.Settles) : x.Takes := by
  intro r s t hmeets hahead
  rw [h r s hmeets, Deferral.outcome, if_neg (Nat.not_le.2 hahead)]

theorem Deferral.Settles.past {x : Deferral} (h : x.Settles) {r : Request} {s : State} (hmeets : x.meets r s = true)
    (hpast : num tFrame r.body ≤ curFrame (taken r s)) : exec (x.cmd r) s = .next (finish x.code r (refuse stRange, taken r s)) := by
  rw [h r s hmeets, Deferral.outcome, if_pos hpast]

theorem Deferral.Settles.of_act {x : Deferral} {act : Request → List Tlv → State → Reply × State}
    (hruns : RunsBehindChecks x.cmd (fun t => { code := x.code, auth := x.auth, params := x.params t }) x.allowed act)
    (hact : ∀ r t, x.path r t = true → x.ready r.body t = true → act r r.body t = x.outcome r.body t) : x.Settles := by
  intro r s hmeets
  obtain ⟨hrest, hready⟩ := Bool.and_eq_true_iff.1 hmeets
  obtain ⟨hp, hpath⟩ := Bool.and_eq_true_iff.1 hrest
  rw [hruns.of_passes hp, hact r (taken r s) hpath hready]

/-- A check that fails for a past frame alone may stand anywhere before the end. -/
theorem Deferral.outcome_of_late_guard {x : Deferral} {b : List Tlv} {t : State} {c : Prop} [Decidable c] {y : Reply × State}
    (hc : c → num tFrame b ≤ curFrame t) (hy : y = x.outcome b t) : (if c then (refuse stRange, t) else y) = x.outcome b t := by
  split
  next h => rw [Deferral.outcome, if_pos (hc h)]
  next => exact hy

/-- The last of several conditions of a check is the one that holds. -/
theorem late_of_or {a : Bool} {l : Prop} [Decidable l] (ha : a = false) (h : (a || decide l) = true) : l := by
  simpa [ha] using h

theorem not_isNone {α : Type} {o : Option α} (h : o.isSome = true) : ¬ o.isNone = true := by
  rw [← Option.not_isSome, h]
  decide

/-- One pending change stands for two opcodes that share an object. -/
theorem findSome_pair {f : Nat → Option Pend} {a b c : Nat} (hc : c = a ∨ c = b) : ([a, b].findSome? f).or (f c) = (f a).or (f b) := by
  obtain hc | hc := hc <;> rw [hc] <;> cases ha : f a <;> cases hb : f b <;> simp [List.findSome?, *]

/-! ### Frames, windows, sensors, power and doors -/

theorem windowDeferrals_settle : ∀ x ∈ windowDeferrals, x.Settles := by
  simp only [windowDeferrals, List.forall_mem_cons]
  refine ⟨?frameSetGroup, ?winSetEnable, ?ctrClear, ?senActivateTrim, ?pwrSet, ?doorSet, List.forall_mem_nil _⟩
  case frameSetGroup =>
    refine .of_act (fun _ _ => rfl) fun r t _ hready => ?_
    have hgroup : ¬ byteAt ((val? tGroupTag r.body).getD []) 0 > 63 := Nat.not_lt.2 (of_decide_eq_true hready)
    exact if_neg hgroup
  case winSetEnable =>
    refine .of_act (fun _ _ => rfl) fun r t _ hready => ?_
    simp only [Bool.and_eq_true, decide_eq_true_eq, Bool.not_eq_true', beq_iff_eq] at hready
    obtain ⟨⟨hport, hflag⟩, hstate⟩ := hready
    exact (if_neg (Nat.not_le.2 hport)).trans ((if_neg (by simp [hflag])).trans (if_neg (by simp [hstate])))
  case ctrClear =>
    refine .of_act (fun _ _ => rfl) fun r t _ hready => ?_
    have hranges : ¬ rangesBad (ctrCount t) (ranges r.body) = true := by simpa using hready
    exact if_neg hranges
  case senActivateTrim =>
    refine .of_act (fun _ _ => rfl) fun r t _ hready => ?_
    have hstaged : t.win.trimStaged.isSome = true := hready
    exact if_neg (not_isNone hstaged)
  case pwrSet =>
    refine .of_act (fun _ _ => rfl) fun r t _ hready => ?_
    simp only [Bool.and_eq_true, Bool.not_eq_true'] at hready
    obtain ⟨hgating, hpark⟩ := hready
    refine (if_neg (by simp [hgating, hpark])).trans ?_
    cases hon : set? 0 r.body <;> cases hlane : set? 1 r.body <;> simp [Deferral.outcome, defer, Deferral.replaced, hon, hlane]
  case doorSet =>
    refine .of_act (fun _ _ => rfl) fun r t hpath hready => ?_
    simp only [Bool.and_eq_true, Bool.not_eq_true', decide_eq_true_eq] at hpath hready
    obtain ⟨⟨⟨⟨henable, hdoor⟩, hflap⟩, htime⟩, hdir⟩ := hready
    refine (if_neg (by simp [henable])).trans (Deferral.outcome_of_late_guard (fun hlate => ?_) ?_)
    · rw [hflap, htime, Bool.or_false, Bool.or_false, Bool.or_eq_true, decide_eq_true_eq, decide_eq_true_eq] at hlate
      exact hlate.resolve_right (Nat.not_le.2 hdoor)
    · exact (if_neg (by simp [hdir])).trans (if_neg (by simp [hpath]))

/-! ### Catalogues, tables, trackers and models -/

theorem featureDeferrals_settle : ∀ x ∈ featureDeferrals, x.Settles := by
  simp only [featureDeferrals, List.forall_mem_cons]
  refine ⟨?redActivateCatalogue, ?feaActivateTable, ?plnReset, ?glenActivate, ?glenDeactivate, ?glenSetMode, ?glenSetStraggler,
    List.forall_mem_nil _⟩
  case redActivateCatalogue =>
    refine .of_act (fun _ _ => rfl) fun r t _ hready => ?_
    have hstaged : (tfind (catKey (num tIndex r.body) t) t.catsStaged).isSome = true := hready
    exact if_neg (not_isNone hstaged)
  case feaActivateTable =>
    refine .of_act (fun _ _ => rfl) fun r t _ hready => ?_
    have hstaged : t.fea.staged.isSome = true := hready
    exact if_neg (not_isNone hstaged)
  case plnReset =>
    refine .of_act (fun _ _ => rfl) fun r t _ hready => ?_
    refine Deferral.outcome_of_late_guard (fun hlate => ?_) rfl
    cases hindex : num? tIndex r.body with
    | none => simpa [hindex] using hlate
    | some k =>
      have hin : k < (t.fea.active.map (·.trackers.length)).getD 0 := by simpa [hindex] using hready
      simp only [hindex, Option.map_some, Option.getD_some, Bool.or_eq_true, decide_eq_true_eq] at hlate
      exact hlate.resolve_right (Nat.not_le.2 hin)
  case glenActivate =>
    refine .of_act (fun _ _ => rfl) fun r t _ hready => ?_
    have hpages : pagesReady (num tVersion r.body) t = true := hready
    refine Deferral.outcome_of_late_guard id ((if_neg (by simp [hpages])).trans ?_)
    simp only [deferModel, Deferral.outcome, Deferral.replaced, findSome_pair (.inl rfl)]
    rfl
  case glenDeactivate =>
    refine .of_act (fun _ _ => rfl) fun r t _ hready => ?_
    have hactive : ¬ t.glen.active.isEmpty = true := by simpa using hready
    refine (if_neg hactive).trans ?_
    simp only [deferModel, Deferral.outcome, Deferral.replaced, findSome_pair (.inr rfl)]
    rfl
  case glenSetMode =>
    refine .of_act (fun _ _ => rfl) fun r t _ hready => ?_
    simp only [Bool.and_eq_true, Bool.not_eq_true', decide_eq_true_eq] at hready
    obtain ⟨⟨hmode, hstart⟩, hrecovery⟩ := hready
    refine (if_neg (by simp [hmode])).trans (Deferral.outcome_of_late_guard (fun hlate => ?_) rfl)
    exact late_of_or (by simp [hstart, hrecovery]) hlate
  case glenSetStraggler =>
    refine .of_act (fun _ _ => rfl) fun r t _ hready => ?_
    simp only [Bool.and_eq_true, bne_iff_ne, Bool.not_eq_true', decide_eq_true_eq] at hready
    obtain ⟨⟨⟨⟨⟨⟨⟨hon, hmetric⟩, hk⟩, hkmax⟩, hkn⟩, hn⟩, hfinite⟩, hsign⟩ := hready
    refine Deferral.outcome_of_late_guard (fun hlate => late_of_or ?_ hlate) (if_neg ?_)
    · simp [hmetric, hk, hkmax, hkn, hn]
    · simp [hon, hfinite, hsign]

/-! ### Probes -/

theorem probeDeferrals_settle : ∀ x ∈ probeDeferrals, x.Settles := by
  simp only [probeDeferrals, List.forall_mem_cons]
  refine ⟨?probeActivatePack, ?probeSet, ?probeClearCoverage, ?probeDisableTile, ?probeResumeTile, List.forall_mem_nil _⟩
  case probeActivatePack =>
    refine .of_act (fun _ _ => rfl) fun r t _ hready => ?_
    have hstaged : t.prb.staged.isSome = true := hready
    exact if_neg (not_isNone hstaged)
  case probeSet =>
    refine .of_act (fun _ _ => rfl) fun r t _ hready => ?_
    obtain ⟨hranges, hneighbours⟩ := Bool.and_eq_true_iff.1 hready
    exact Deferral.outcome_of_late_guard (late_of_or (by simpa using hranges)) (if_neg (by simpa using hneighbours))
  case probeClearCoverage => exact .of_act (fun _ _ => rfl) fun r t _ _ => rfl
  case probeDisableTile =>
    refine .of_act (fun _ _ => rfl) fun r t _ hready => ?_
    have htile : ¬ num tIndex r.body > 39 := Nat.not_lt.2 (of_decide_eq_true hready)
    refine (if_neg htile).trans ?_
    simp only [deferTile, Deferral.outcome, Deferral.replaced, findSome_pair (.inl rfl)]
    rfl
  case probeResumeTile =>
    refine .of_act (fun _ _ => rfl) fun r t _ hready => ?_
    simp only [Bool.and_eq_true, Bool.or_eq_true, decide_eq_true_eq] at hready
    obtain ⟨htile, hheld⟩ := hready
    refine (if_neg ?_).trans ((if_neg (Nat.not_lt.2 htile)).trans ?_)
    · obtain hhung | hdisabled := hheld <;> simp [*]
    · simp only [deferTile, Deferral.outcome, Deferral.replaced, findSome_pair (.inr rfl)]
      rfl

/-! ### Trace, watchpoints and Shutter -/

theorem traceDeferrals_settle : ∀ x ∈ traceDeferrals, x.Settles := by
  simp only [traceDeferrals, List.forall_mem_cons]
  refine ⟨?trcSet, ?trcSetHistory, ?wptSet, ?shutterSet, ?shutterSetHang, ?shutterActivateProgram, ?shutterSetArea, List.forall_mem_nil _⟩
  case trcSet =>
    refine .of_act (fun _ _ => rfl) fun r t _ hready => ?_
    obtain ⟨hrest, hbanks⟩ := Bool.and_eq_true_iff.1 hready
    obtain ⟨hrest, hsources⟩ := Bool.and_eq_true_iff.1 hrest
    obtain ⟨hcodes, hranges⟩ := Bool.and_eq_true_iff.1 hrest
    have hwhole : ¬ (((val? (tSetting 7) r.body).getD []).length % 4 != 0) = true := by simpa using hcodes
    refine (if_neg hwhole).trans (Deferral.outcome_of_late_guard (late_of_or ((Bool.not_eq_true' _).mp hranges)) ?_)
    refine (if_neg (ne_true_of_eq_false ((Bool.not_eq_true' _).mp hsources))).trans (if_neg ?_)
    obtain hoff | hon := Bool.or_eq_true_iff.1 hbanks <;> simp_all
  case trcSetHistory =>
    refine .of_act (fun _ _ => rfl) fun r t _ hready => ?_
    simp only [Bool.and_eq_true, Bool.not_eq_true', bne_iff_ne, decide_eq_true_eq] at hready
    obtain ⟨⟨⟨hstopped, hstore⟩, hzero⟩, hmax⟩ := hready
    exact (if_neg (by simp [hstopped, hstore])).trans (if_neg (by simp [hzero, hmax]))
  case wptSet =>
    refine .of_act (fun _ _ => rfl) fun r t _ hready => ?_
    obtain ⟨hrest, hindices⟩ := Bool.and_eq_true_iff.1 hready
    obtain ⟨hlengths, hvalues⟩ := Bool.and_eq_true_iff.1 hrest
    refine (if_neg (ne_true_of_eq_false ((Bool.not_eq_true' _).mp hlengths))).trans ?_
    refine (if_neg (ne_true_of_eq_false ((Bool.not_eq_true' _).mp hvalues))).trans ?_
    exact Deferral.outcome_of_late_guard (late_of_or ((Bool.not_eq_true' _).mp hindices)) rfl
  case shutterSet =>
    refine .of_act (fun _ _ => rfl) fun r t _ hready => ?_
    have hsources : ¬ (set? 0 r.body).getD 0 > 31 := Nat.not_lt.2 (of_decide_eq_true hready)
    exact if_neg hsources
  case shutterSetHang =>
    refine .of_act (fun _ _ => rfl) fun r t _ hready => ?_
    simp only [Bool.and_eq_true, Bool.not_eq_true', decide_eq_true_eq] at hready
    obtain ⟨⟨⟨⟨⟨hlow, hhigh⟩, hmany⟩, hcounters⟩, haction⟩, hitems⟩ := hready
    refine Deferral.outcome_of_late_guard (fun hlate => late_of_or ?_ hlate) (if_neg ?_)
    · simp [hlow, hhigh, hmany]
    · simp [hcounters, haction, hitems]
  case shutterActivateProgram =>
    refine .of_act (fun _ _ => rfl) fun r t _ hready => ?_
    have hstaged : t.sht.staged.isSome = true := hready
    exact if_neg (not_isNone hstaged)
  case shutterSetArea =>
    refine .of_act (fun _ _ => rfl) fun r t _ hready => ?_
    simp only [Bool.and_eq_true, bne_iff_ne, decide_eq_true_eq] at hready
    obtain ⟨⟨⟨hempty, hstore⟩, hzero⟩, hmax⟩ := hready
    exact (if_neg (by simp [hempty, hstore])).trans (if_neg (by simp [hzero, hmax]))

/-! ### Audit hashing and the firmware's handover -/

theorem answered_congr {code : Nat} {r : Request} {x y : Reply × State} (h : x = y) :
    (.next (finish code r x) : Host.Outcome State Fault Refusal) = .next (finish code r y) := by
  rw [h]

/-- What passes a row for some units passes it for all. -/
theorem passes_of_allowed {o : Op} {allowed : Bool} {r : Request} {s : State} (h : passes o allowed r s = true) : passes o true r s = true := by
  simp only [passes, Bool.and_eq_true] at h ⊢
  obtain ⟨⟨⟨hearly, -⟩, hauth⟩, hbody⟩ := h
  exact ⟨⟨⟨hearly, trivial⟩, hauth⟩, hbody⟩

theorem allowed_of_passes {o : Op} {allowed : Bool} {r : Request} {s : State} (h : passes o allowed r s = true) : allowed = true := by
  simp only [passes, Bool.and_eq_true] at h
  obtain ⟨⟨⟨-, hallowed⟩, -⟩, -⟩ := h
  exact hallowed

/-- HSH.SET_AUDIT with the seeds of a root. -/
theorem hshSetAudit_of_data {r : Request} {t : State} (hroot : isRoot t = true) (hdata : (val? tData r.body).isSome = true)
    (hp : passes { code := 0x1402, params := [must tFrame, may tGroupTag, may tData] } true r t = true) :
    hshSetAudit r t = setSeeds r.body t := by
  simp only [hshSetAudit, hdata, hroot, if_true, Bool.true_or]
  rw [command_of_passes hp, if_pos hroot]

/-- HSH.SET_AUDIT with the settings of a die unit. -/
theorem hshSetAudit_of_settings {r : Request} {t : State} (hdie : isDie t = true) (hdata : (val? tData r.body).isSome = false)
    (hp : passes { code := 0x1402, params := [must tFrame, setting 0 16, setting 1 64, setting 2 5, setting 3 8] } true r t = true) :
    hshSetAudit r t = setAuditDie r.body t := by
  have hroot : isRoot t = false := by simp [isRoot, role_of_isDie hdie]
  simp only [hshSetAudit, hdata, hroot, hdie, Bool.false_eq_true, if_false, Bool.not_false, Bool.and_self, Bool.or_true]
  rw [command_of_passes hp, if_neg (ne_true_of_eq_false hroot)]

theorem securityDeferrals_settle : ∀ x ∈ securityDeferrals, x.Settles := by
  simp only [securityDeferrals, List.forall_mem_cons]
  refine ⟨?seeds, ?audit, ?handover, ?dieBoot, List.forall_mem_nil _⟩
  case seeds =>
    intro r s hmeets
    obtain ⟨hrest, hready⟩ := Bool.and_eq_true_iff.1 hmeets
    obtain ⟨hp, -⟩ := Bool.and_eq_true_iff.1 hrest
    simp only [Bool.and_eq_true, decide_eq_true_eq] at hready
    obtain ⟨⟨hlen, htag⟩, hdata⟩ := hready
    have hop := hshSetAudit_of_data (allowed_of_passes hp) hdata (passes_of_allowed hp)
    refine answered_congr (hop.trans ?_)
    refine (if_neg (Nat.not_lt.2 hlen)).trans (if_neg ?_)
    simp only [Bool.or_eq_true, not_or]
    exact ⟨not_isNone htag, not_isNone hdata⟩
  case audit =>
    intro r s hmeets
    obtain ⟨hrest, hready⟩ := Bool.and_eq_true_iff.1 hmeets
    obtain ⟨hp, -⟩ := Bool.and_eq_true_iff.1 hrest
    simp only [Bool.and_eq_true, Bool.not_eq_true'] at hready
    obtain ⟨⟨⟨hdata, hseal⟩, hentities⟩, hroles⟩ := hready
    have hop := hshSetAudit_of_settings (allowed_of_passes hp) (by simpa using hdata) (passes_of_allowed hp)
    refine answered_congr (hop.trans (Deferral.outcome_of_late_guard (fun hlate => ?_) ?_))
    · rw [hseal, hentities, Bool.or_false, Bool.or_false] at hlate
      exact of_decide_eq_true hlate
    · exact if_neg (ne_true_of_eq_false hroles)
  case handover =>
    refine .of_act (fun _ _ => rfl) fun r t _ hready => ?_
    simp only [Bool.and_eq_true, Bool.not_eq_true'] at hready
    obtain ⟨hchoice, hslots⟩ := hready
    exact (if_neg (by simp [Option.isNone_iff_eq_none.1 hchoice])).trans (if_neg (ne_true_of_eq_false hslots))
  case dieBoot =>
    intro r s hmeets
    obtain ⟨hrest, hready⟩ := Bool.and_eq_true_iff.1 hmeets
    obtain ⟨hp, -⟩ := Bool.and_eq_true_iff.1 hrest
    simp only [Bool.and_eq_true, beq_iff_eq] at hready
    obtain ⟨⟨hsome, hchoice⟩, hstaged⟩ := hready
    have hhub : (taken r s).build.hub = true := allowed_of_passes hp
    refine answered_congr ((command_of_passes (passes_of_allowed hp)).trans ?_)
    exact (if_pos hsome).trans ((if_neg (by simp [hhub, hchoice])).trans (if_neg (by simp [hstaged])))

/-- Settles O12: a row that settles takes a frame to come. -/
theorem frameAndModelChangesAreDeferred : Obligations.FrameAndModelChangesAreDeferred := by
  unfold Obligations.FrameAndModelChangesAreDeferred
  simp only [List.forall_mem_append]
  exact ⟨⟨fun x hx => (windowDeferrals_settle x hx).takes, fun x hx => (featureDeferrals_settle x hx).takes⟩,
    fun x hx => (probeDeferrals_settle x hx).takes⟩

/-- Settles O13, as O12. -/
theorem traceShutterAndSecurityChangesAreDeferred : Obligations.TraceShutterAndSecurityChangesAreDeferred := by
  unfold Obligations.TraceShutterAndSecurityChangesAreDeferred
  simp only [List.forall_mem_append]
  exact ⟨fun x hx => (traceDeferrals_settle x hx).takes, fun x hx => (securityDeferrals_settle x hx).takes⟩

/-- Settles O14: a row that settles refuses a past frame. -/
theorem pastFramesAreRefused : Obligations.PastFramesAreRefused := by
  unfold Obligations.PastFramesAreRefused
  simp only [List.forall_mem_append]
  exact ⟨⟨⟨⟨fun x hx _ _ => (windowDeferrals_settle x hx).past, fun x hx _ _ => (featureDeferrals_settle x hx).past⟩,
    fun x hx _ _ => (probeDeferrals_settle x hx).past⟩, fun x hx _ _ => (traceDeferrals_settle x hx).past⟩,
    fun x hx _ _ => (securityDeferrals_settle x hx).past⟩

end Sys2Proof.Machine
end

section
/-! PROOFS. Opcodes that act at once (O15 and O16), and opcodes that are answered when their work ends (O17). -/
namespace Sys2Proof.Machine

theorem Immediate.Acts.of_act {x : Immediate} {act : Request → List Tlv → State → Reply × State}
    (hruns : RunsBehindChecks x.cmd (fun t => { code := x.code, auth := x.auth, params := x.params t }) x.allowed act)
    (hact : ∀ r t, x.allowed t = true → x.ready r t = true → act r r.body t = (okay (x.reply r t), x.effect r t)) : x.Acts := by
  intro r s hmeets
  obtain ⟨hp, hready⟩ := Bool.and_eq_true_iff.1 hmeets
  rw [hruns.of_passes hp, hact r (taken r s) (allowed_of_passes hp) hready]

theorem isSome_eq_false {α : Type} {o : Option α} (h : o.isNone = true) : o.isSome = false := by
  rw [← Option.not_isNone, h]
  rfl

theorem isNone_eq_false {α : Type} {o : Option α} (h : o.isSome = true) : o.isNone = false := by
  rw [← Option.not_isSome, h]
  rfl

/-! ### Time -/

theorem not_outside {lo hi x : Int} (hlow : decide (lo ≤ x) = true) (hhigh : decide (x ≤ hi) = true) : ¬ (decide (x < lo) || decide (x > hi)) = true := by
  rw [decide_eq_false (Int.not_lt.2 (of_decide_eq_true hlow)), decide_eq_false (Int.not_lt.2 (of_decide_eq_true hhigh))]
  decide

theorem timeImmediates_act : ∀ x ∈ timeImmediates, x.Acts := by
  simp only [timeImmediates, List.forall_mem_cons]
  refine ⟨?timeSet, ?timeSetSource, ?timeSetTod, ?timeSetCal, ?timeSetServo, ?timeSetUtc, List.forall_mem_nil _⟩
  case timeSet =>
    refine .of_act (fun _ _ => rfl) fun r t _ hready => ?_
    simp only [Bool.and_eq_true] at hready
    obtain ⟨⟨hparent, hlock⟩, hstamp⟩ := hready
    dsimp only
    exact (if_neg (by rw [isSome_eq_false hparent, hlock]; decide)).trans (if_neg (by rw [hstamp]; decide))
  case timeSetSource =>
    refine .of_act (fun _ _ => rfl) fun r t _ hready => ?_
    simp only [Bool.and_eq_true, decide_eq_true_eq] at hready
    obtain ⟨hsource, hdomain⟩ := hready
    exact (if_neg (Nat.not_lt.2 hsource)).trans (if_neg (Nat.not_lt.2 hdomain))
  case timeSetTod =>
    refine .of_act (fun _ _ => rfl) fun r t _ hready => ?_
    simp only [Bool.and_eq_true, beq_iff_eq] at hready
    obtain ⟨hroot, hsource⟩ := hready
    exact if_neg (by simp [hroot, hsource])
  case timeSetCal =>
    refine .of_act (fun _ _ => rfl) fun r t _ hready => ?_
    simp only [Bool.and_eq_true, Bool.or_eq_true, decide_eq_true_eq] at hready
    obtain ⟨⟨⟨⟨hdoor, hasym⟩, hcable⟩, htx⟩, hrx⟩ := hready
    dsimp only
    cases ha : set? 0 r.body <;> cases hc : set? 3 r.body <;> simp only [ha, hc] at hdoor hasym hcable
    all_goals
      simp only [Option.map_some, Option.all_some, Bool.and_eq_true, Option.isNone_some, Option.isSome_iff_ne_none, Bool.false_eq_true, false_or] at hdoor hasym hcable
      refine (if_neg ?_).trans (if_neg ?_) <;> simp_all
  case timeSetServo =>
    refine .of_act (fun _ _ => rfl) fun r t _ hready => ?_
    simp only [Bool.and_eq_true, Bool.or_eq_true, Bool.not_eq_true'] at hready
    obtain ⟨⟨⟨⟨hinterval, hlimit⟩, hroot⟩, hfinite⟩, hok⟩ := hready
    refine (if_neg ?_).trans (if_neg ?_)
    · simp only [Bool.or_eq_true, Bool.and_eq_true, Bool.not_eq_true', not_or, not_and]
      simp only [Bool.not_eq_true, Bool.not_eq_false]
      exact ⟨⟨fun h => hinterval.resolve_left (not_isNone h), fun h => hlimit.resolve_left (not_isNone h)⟩,
        fun h => hroot.resolve_left (not_isNone h)⟩
    · change ¬ (!_ || !servoOk (givenServo r.body t)) = true
      rw [hok]
      dsimp only
      cases h5 : set? 5 r.body with
      | none => exact Bool.false_ne_true
      | some v =>
        have hslew : isFinite32 (fp32Of v) = true := by simpa [h5] using hfinite
        change ¬ (!isFinite32 (fp32Of v) || !true) = true
        rw [hslew]
        exact Bool.false_ne_true
  case timeSetUtc =>
    refine .of_act (fun _ _ => rfl) fun r t _ hready => ?_
    simp only [Bool.and_eq_true, Bool.not_eq_true'] at hready
    obtain ⟨⟨hflags, hlow⟩, hhigh⟩ := hready
    refine (if_neg (ne_true_of_eq_false hflags)).trans ?_
    cases h0 : set? 0 r.body <;> cases h1 : set? 1 r.body <;> cases h2 : set? 2 r.body <;> cases h3 : set? 3 r.body <;>
      simp only [h0, h1, h2, h3, Option.map_some, Option.map_none, Option.getD_some, Option.getD_none] at hlow hhigh ⊢ <;>
      exact if_neg (not_outside hlow hhigh)

/-! ### Error records, trace and watchpoints -/

theorem reportImmediates_act : ∀ x ∈ reportImmediates, x.Acts := by
  simp only [reportImmediates, List.forall_mem_cons]
  refine ⟨?errSetRoute, ?errInject, ?errSetExport, ?trcTriggerDie, ?trcTriggerNow, ?trcTriggerAt, ?trcArm, ?wptEnableData,
    ?wptDisableData, List.forall_mem_nil _⟩
  case errSetRoute =>
    refine .of_act (fun _ _ => rfl) fun r t _ hready => ?_
    refine if_neg ?_
    cases hdie : isDie t <;> simp_all [isDie] <;> omega
  case errInject =>
    refine .of_act (fun _ _ => rfl) fun r t _ hready => ?_
    simp only [Bool.and_eq_true, beq_iff_eq, decide_eq_true_eq] at hready
    obtain ⟨⟨hchoice, hlen⟩, hzero⟩ := hready
    exact (if_neg (Nat.not_lt.2 hchoice)).trans ((if_neg (by simp [hlen])).trans (if_neg (by simp [hzero])))
  case errSetExport =>
    refine .of_act (fun _ _ => rfl) fun r t _ hready => ?_
    simp only [Bool.and_eq_true, decide_eq_true_eq] at hready
    obtain ⟨⟨⟨⟨⟨⟨⟨hv0, hv1⟩, hv2⟩, hv3⟩, hdec⟩, hdecMax⟩, hper⟩, hperMax⟩ := hready
    refine (if_neg (by simp [hv0, hv1, hv2, hv3])).trans ((if_neg ?_).trans ?_)
    · simp only [Bool.or_eq_true, decide_eq_true_eq]
      omega
    · dsimp only
      cases val? tEndpoint r.body <;> cases (val? (tSetting 1) r.body).isSome <;> rfl
  case trcTriggerDie =>
    refine .of_act (fun _ _ => rfl) fun r t _ hready => ?_
    exact if_pos hready
  case trcTriggerNow =>
    refine .of_act (fun _ _ => rfl) fun r t _ hready => ?_
    simp only [Bool.and_eq_true, Bool.not_eq_true'] at hready
    obtain ⟨hdie, hnow⟩ := hready
    refine (if_neg (ne_true_of_eq_false hdie)).trans ?_
    rw [Option.isNone_iff_eq_none.1 hnow]
  case trcTriggerAt =>
    refine .of_act (fun _ _ => rfl) fun r t _ hready => ?_
    simp only [Bool.and_eq_true, Bool.not_eq_true'] at hready
    obtain ⟨hdie, hlater⟩ := hready
    refine (if_neg (ne_true_of_eq_false hdie)).trans ?_
    dsimp only
    cases hv : val? tTime r.body with
    | none => simp [hv] at hlater
    | some v =>
      simp only [hv, Option.any_some, Bool.and_eq_true, decide_eq_true_eq] at hlater
      obtain ⟨hstamp, hafter⟩ := hlater
      exact (if_neg (by simp [hstamp])).trans (if_neg (Nat.not_le.2 hafter))
  case trcArm =>
    exact .of_act (fun _ _ => rfl) fun r t _ _ => rfl
  case wptEnableData =>
    refine .of_act (fun _ _ => rfl) fun r t _ hready => ?_
    simp only [Bool.and_eq_true, decide_eq_true_eq] at hready
    obtain ⟨⟨hbanks, hahead⟩, hnear⟩ := hready
    refine (if_neg (by simp [hbanks])).trans (if_neg ?_)
    simp only [Bool.or_eq_true, decide_eq_true_eq]
    omega
  case wptDisableData =>
    refine .of_act (fun _ _ => rfl) fun r t _ hready => ?_
    exact if_neg (not_isNone hready)

/-- Settles O15, row by row. -/
theorem timeReportAndTraceOpcodesAct : Obligations.TimeReportAndTraceOpcodesAct := by
  unfold Obligations.TimeReportAndTraceOpcodesAct
  refine ⟨rfl, ?_⟩
  simp only [List.forall_mem_append]
  exact ⟨timeImmediates_act, reportImmediates_act⟩

/-! ### The Shutter -/

/-- A source that may stop a unit that is idle, armed or stopped in the same edge does. -/
theorem immediateStop_of_source {cause mode : Nat} {t : State} (hsource : bit t.sht.sources cause = true)
    (hstate : sameEdgeStop t = true ∨ t.sht.state = shIdle ∨ t.sht.state = shArmed) : ∃ u, immediateStop cause mode t = (none, u) := by
  simp only [immediateStop, hsource, Bool.not_true, Bool.false_eq_true, if_false]
  obtain hsame | hidle | harmed := hstate
  · exact ⟨_, if_pos hsame⟩
  · simp only [hidle]
    split
    · exact ⟨_, rfl⟩
    · exact ⟨_, rfl⟩
  · simp only [harmed]
    split
    · exact ⟨_, rfl⟩
    · exact ⟨_, rfl⟩

/-- A resume time, if there is one, is no earlier than the bound. -/
def tooEarly (bound : Nat) : Option Nat → Bool
  | some u => decide (u < bound)
  | none => false

theorem tooEarly_eq_false {bound : Nat} {o : Option Nat} (h : o.all (fun u => decide (bound ≤ u)) = true) : tooEarly bound o = false := by
  cases o with
  | none => rfl
  | some u => simpa [tooEarly] using h

/-- Times in order pass the three checks of SHUTTER.ARM_TIMED (R313). -/
theorem shutterTimes_of_timesOk {b : List Tlv} {t : State} (h : timesOk b t = true) (x : Reply × State) :
    (if choice b > 2 then (refuse stBadParam, t) else if (vals tTime b).any (!stampOk ·) then (refuse stRange, t)
      else if stampTime ((vals tTime b).getD 0 []) < t.time.now + leadUnits ||
          tooEarly (stampTime ((vals tTime b).getD 0 []) + leadUnits) (((vals tTime b)[1]?).map stampTime) then (refuse stRange, t) else x) = x := by
  simp only [timesOk, Bool.and_eq_true, Bool.not_eq_true', decide_eq_true_eq] at h
  obtain ⟨⟨⟨hmode, hstamps⟩, hstop⟩, hresume⟩ := h
  refine (if_neg (Nat.not_lt.2 hmode)).trans ((if_neg (ne_true_of_eq_false hstamps)).trans (if_neg ?_))
  rw [tooEarly_eq_false hresume, Bool.or_false, decide_eq_true_eq]
  exact Nat.not_lt.2 hstop

/-- A resume time that is a stamp late enough, and a stop to resume from, pass the three checks of SHUTTER.RESUME. -/
theorem shutterResume_of_resumeOk {b : List Tlv} {t : State} {running : Bool} (h : resumeOk b t = true) (hrunning : running = false) (x : Reply × State) :
    (if (match val? tTime b with | some v => !stampOk v | none => false) then (refuse stRange, t)
      else if running then (refuse stState, t)
      else if (match val? tTime b with | some v => decide (stampTime v < t.time.now + leadUnits) | none => false) then (refuse stRange, t)
      else x) = x := by
  unfold resumeOk at h
  subst hrunning
  cases hv : val? tTime b with
  | none => rfl
  | some v =>
    simp only [hv, Option.all_some, Bool.and_eq_true, decide_eq_true_eq] at h
    obtain ⟨hstamp, hlate⟩ := h
    refine (if_neg (by simp [hstamp])).trans ((if_neg Bool.false_ne_true).trans (if_neg ?_))
    rw [decide_eq_true_eq]
    exact Nat.not_lt.2 hlate

theorem shutterImmediates_act : ∀ x ∈ shutterImmediates, x.Acts := by
  simp only [shutterImmediates, List.forall_mem_cons]
  refine ⟨?shutterStop, ?shutterArmDie, ?shutterArmHub, ?shutterCancelDie, ?shutterCancelHub, ?shutterScan, ?shutterAbortScan,
    ?shutterResumeHub, ?shutterResumeDie, ?shutterReleaseImage, List.forall_mem_nil _⟩
  case shutterStop =>
    refine .of_act (fun _ _ => rfl) fun r t _ hready => ?_
    simp only [Bool.and_eq_true, decide_eq_true_eq] at hready
    obtain ⟨⟨hchoice, hsource⟩, hstate⟩ := hready
    refine (if_neg (Nat.not_lt.2 hchoice)).trans ?_
    obtain ⟨u, hu⟩ := immediateStop_of_source (mode := choice r.body) hsource (by simpa [or_assoc] using hstate)
    simp only [hu]
  case shutterArmDie =>
    refine .of_act (fun _ _ => rfl) fun r t _ hready => ?_
    simp only [Bool.and_eq_true, beq_iff_eq] at hready
    obtain ⟨⟨⟨hdie, htimes⟩, hsource⟩, hidle⟩ := hready
    refine (shutterTimes_of_timesOk htimes _).trans ((if_pos hdie).trans ((if_neg (by simp [hsource])).trans (if_neg (by simp [hidle]))))
  case shutterArmHub =>
    refine .of_act (fun _ _ => rfl) fun r t _ hready => ?_
    simp only [Bool.and_eq_true, Bool.not_eq_true'] at hready
    obtain ⟨hdie, htimes⟩ := hready
    exact (shutterTimes_of_timesOk htimes _).trans (if_neg (ne_true_of_eq_false hdie))
  case shutterCancelDie =>
    refine .of_act (fun _ _ => rfl) fun r t _ hready => ?_
    simp only [Bool.and_eq_true, beq_iff_eq] at hready
    obtain ⟨⟨hdie, harmed⟩, harm⟩ := hready
    refine (if_pos hdie).trans ?_
    cases ha : t.sht.arm with
    | none => simp [ha] at harm
    | some a =>
      simp only [ha, Option.any_some, Bool.and_eq_true, beq_iff_eq, decide_eq_true_eq] at harm
      obtain ⟨hserial, hbefore⟩ := harm
      exact if_pos (by simp [harmed, hserial, hbefore])
  case shutterCancelHub =>
    refine .of_act (fun _ _ => rfl) fun r t _ hready => ?_
    simp only [Bool.and_eq_true, Bool.not_eq_true'] at hready
    obtain ⟨hdie, hcut⟩ := hready
    refine (if_neg (ne_true_of_eq_false hdie)).trans ?_
    dsimp only
    cases hc : t.sht.cuts.find? (·.serial == BitVec.ofNat 32 (num tSerial r.body)) with
    | none => simp [hc] at hcut
    | some c => exact if_pos (by simpa [hc] using hcut)
  case shutterScan =>
    refine .of_act (fun _ _ => rfl) fun r t _ hready => ?_
    simp only [Bool.and_eq_true, Bool.or_eq_true, beq_iff_eq] at hready
    obtain ⟨⟨hstate, hpath⟩, hchoice⟩ := hready
    refine (if_neg ?_).trans (if_neg ?_)
    · obtain hstate | hstate := hstate <;> obtain hpath | hpath := hpath <;> simp [hstate, hpath]
    · obtain hc | ⟨hc, hresume⟩ := hchoice
      · simp [hc]
      · rw [isSome_eq_false hresume, hc]
        decide
  case shutterAbortScan =>
    refine .of_act (fun _ _ => rfl) fun r t _ hready => ?_
    exact if_neg (by simpa using hready)
  case shutterResumeHub =>
    refine .of_act (fun _ _ => rfl) fun r t _ hready => ?_
    simp only [Bool.and_eq_true] at hready
    obtain ⟨⟨hhub, htime⟩, hcut⟩ := hready
    refine (shutterResume_of_resumeOk htime (by simp [hhub, hcut]) _).trans (if_pos hhub)
  case shutterResumeDie =>
    refine .of_act (fun _ _ => rfl) fun r t _ hready => ?_
    simp only [Bool.and_eq_true, Bool.not_eq_true', Bool.or_eq_true, beq_iff_eq] at hready
    obtain ⟨⟨hhub, htime⟩, hstate⟩ := hready
    have hstopped : ¬ (t.sht.state != shStopped && t.sht.state != shScanned) = true := by
      obtain hstate | hstate := hstate <;> simp [hstate]
    refine (shutterResume_of_resumeOk htime (by simpa [hhub] using hstopped) _).trans (if_neg (ne_true_of_eq_false hhub))
  case shutterReleaseImage =>
    refine .of_act (fun _ _ => rfl) fun r t _ hready => ?_
    obtain ⟨hstore, himage⟩ := Bool.and_eq_true_iff.1 hready
    obtain ⟨k, hk⟩ := Option.isSome_iff_exists.1 himage
    refine (if_neg (by simp [hstore])).trans ?_
    simp only [hk, Option.getD_some]

theorem mem_dedup {α : Type} [BEq α] [LawfulBEq α] {a : α} {l : List α} : a ∈ dedup l ↔ a ∈ l := by
  have hfold : ∀ acc : List α, a ∈ l.foldl (fun acc x => if acc.contains x then acc else acc ++ [x]) acc ↔ a ∈ acc ∨ a ∈ l := by
    induction l with
    | nil => simp
    | cons x xs ih =>
      intro acc
      rw [List.foldl_cons, ih]
      by_cases hx : acc.contains x = true
      · rw [if_pos hx]
        have hmem : x ∈ acc := by simpa using hx
        have habsorb : a = x → a ∈ acc := fun h => h ▸ hmem
        rw [List.mem_cons]
        exact ⟨Or.imp_right .inr, fun h => h.elim .inl (Or.imp_left habsorb)⟩
      · rw [if_neg hx]
        simp [or_assoc]
  simpa [dedup] using hfold []

/-- The banks that SRM.SET_BANK changes: each named one once, where it is not at the target. -/
def banksToChange (r : Request) (t : State) : List Nat :=
  (dedup (nums tIndex r.body)).filter fun b => t.mem.banks.getD b 0 != choice r.body

/-- The state in which those banks change, and the request waits for their end. -/
def changingBanks (r : Request) (t : State) : State :=
  { t with mem := { t.mem with banks := (banksToChange r t).foldl (fun l b => modifyAt b (fun _ => 3) l) t.mem.banks
                               changing := (banksToChange r t).map fun b => (b, t.mem.banks.getD b 0, choice r.body)
                               bankReply := some (r, banksToChange r t) } }

/-- Free banks pass SRM.SET_BANK's checks (R348, R350). -/
theorem srmSetBank_of_banksFree {r : Request} {t : State}
    (hp : passes { code := 0x1302, params := [many tIndex 256, must tChoice] } true r t = true)
    (hfree : banksFree (nums tIndex r.body) (choice r.body) t = true) :
    srmSetBank r t = if (banksToChange r t).isEmpty then (some (okay []), t) else (none, changingBanks r t) := by
  simp only [banksFree, Bool.and_eq_true, List.all_eq_true, decide_eq_true_eq, Bool.not_eq_true'] at hfree
  obtain ⟨⟨hbanks, htarget⟩, hidle⟩ := hfree
  have hnever : ¬ (dedup (nums tIndex r.body)).any (neverBank t.build.hub) = true := by
    simp only [List.any_eq_true, mem_dedup, not_exists, not_and, Bool.not_eq_true]
    exact fun b hb => (hbanks b hb).1.1
  have hleave : ¬ (dedup (nums tIndex r.body)).any (fun b => b < t.mem.banks.length && choice r.body != 0 && !mayLeaveOn b t) = true := by
    simp only [List.any_eq_true, mem_dedup, not_exists, not_and, Bool.not_eq_true]
    intro b hb
    obtain h | h := Bool.or_eq_true_iff.1 (hbanks b hb).2 <;> simp_all
  have hin : ¬ (dedup (nums tIndex r.body)).any (· ≥ t.mem.banks.length) = true := by
    simp only [List.any_eq_true, mem_dedup, not_exists, not_and, decide_eq_true_eq]
    exact fun b hb => Nat.not_le.2 (hbanks b hb).1.2
  have hreply : t.mem.bankReply = none := Option.isNone_iff_eq_none.1 hidle
  simp only [srmSetBank, command_of_passes hp, if_neg hnever, if_neg hleave, if_neg hin, if_neg (Nat.not_lt.2 htarget), hreply]
  by_cases hch : (banksToChange r t).isEmpty = true
  · rw [if_pos hch]
    unfold banksToChange at hch
    simp only [if_pos hch, hreply, Option.isSome_none, Bool.false_eq_true, if_false]
    rfl
  · rw [if_neg hch]
    unfold banksToChange at hch
    simp only [if_neg hch, Option.isSome_none, Bool.false_eq_true, if_false, List.map_map, Function.comp_def, List.map_id', beq_self_eq_true,
      Option.isNone_none, Bool.and_self, if_true]
    rfl

theorem exec_srmSetBank_answered {r : Request} {s u : State} {rep : Reply} (h : srmSetBank r (taken r s) = (some rep, u)) :
    exec (.srmSetBank r) s = .next (finish 0x1302 r (rep, u)) := by
  change (match srmSetBank r (taken r s) with | (some rep, s) => _ | (none, s) => _) = _
  rw [h]

theorem exec_srmSetBank_started {r : Request} {s u : State} (h : srmSetBank r (taken r s) = (none, u)) : exec (.srmSetBank r) s = .next u := by
  change (match srmSetBank r (taken r s) with | (some rep, s) => _ | (none, s) => _) = _
  rw [h]

theorem unitImmediates_act : ∀ x ∈ unitImmediates, x.Acts := by
  simp only [unitImmediates, List.forall_mem_cons]
  refine ⟨?evrClear, ?evrClearMirror, ?pnlSetLed, ?doorRetrain, ?doorClearQuarantine, ?probeEndPush, ?srmSetBank, ?secStageFirmware,
    List.forall_mem_nil _⟩
  case evrClear =>
    refine .of_act (fun _ _ => rfl) fun r t _ hready => ?_
    exact if_neg (by simpa using hready)
  case evrClearMirror =>
    refine .of_act (fun _ _ => rfl) fun r t _ hready => ?_
    exact if_neg (by simpa using hready)
  case pnlSetLed =>
    refine .of_act (fun _ _ => rfl) fun r t _ hready => ?_
    simp only [Bool.and_eq_true, Bool.not_eq_true', beq_iff_eq] at hready
    obtain ⟨⟨⟨hled, hlamp⟩, hmask⟩, hcages⟩ := hready
    exact (if_neg (by simp [hled, hlamp, hmask])).trans (if_neg (ne_true_of_eq_false hcages))
  case doorRetrain | doorClearQuarantine =>
    refine .of_act (fun _ _ => rfl) fun r t _ hready => ?_
    simp only [Bool.and_eq_true, Bool.not_eq_true', decide_eq_true_eq] at hready
    obtain ⟨hdoor, hsome⟩ := hready
    exact (if_neg (Nat.not_le.2 hdoor)).trans (if_neg (ne_true_of_eq_false hsome))
  case probeEndPush =>
    refine .of_act (fun _ _ => rfl) fun r t _ hready => ?_
    have hrunning : ¬ t.prb.pushes.all (·.ended) = true := by
      rw [List.all_eq_not_any_not]
      simpa using hready
    exact if_neg hrunning
  case srmSetBank =>
    intro r s hmeets
    obtain ⟨hp, hready⟩ := Bool.and_eq_true_iff.1 hmeets
    obtain ⟨hfree, hthere⟩ := Bool.and_eq_true_iff.1 hready
    have hnone : (banksToChange r (taken r s)).isEmpty = true := by
      simp only [List.all_eq_true, beq_iff_eq] at hthere
      simp only [List.isEmpty_iff, banksToChange, List.filter_eq_nil_iff, mem_dedup, bne_iff_ne]
      exact fun b hb haway => haway (hthere b hb)
    have hop := (srmSetBank_of_banksFree hp hfree).trans (if_pos hnone)
    exact exec_srmSetBank_answered hop
  case secStageFirmware =>
    refine .of_act (fun _ _ => rfl) fun r t _ hready => ?_
    simp only [Bool.and_eq_true, Bool.not_eq_true'] at hready
    obtain ⟨⟨⟨⟨hdie, hchoice⟩, hpiece⟩, hbusy⟩, hlive⟩ := hready
    dsimp only
    cases hv : val? tChoice r.body with
    | none => simp [hv] at hchoice
    | some v =>
      have hzero : byteAt v 0 = 0 := by simpa [hv] using hchoice
      simp [hzero, hdie, isSome_eq_false hpiece, hbusy, hlive]

/-- Settles O16, row by row. -/
theorem shutterAndUnitOpcodesAct : Obligations.ShutterAndUnitOpcodesAct := by
  unfold Obligations.ShutterAndUnitOpcodesAct
  simp only [List.forall_mem_append]
  exact ⟨shutterImmediates_act, unitImmediates_act⟩

/-! ### Opcodes that are answered when their work ends -/

/-- Settles O17: the opcode's own part starts the work, and answers nothing yet. -/
theorem longOpcodesStart : Obligations.LongOpcodesStart := by
  unfold Obligations.LongOpcodesStart
  simp only [starters, List.forall_mem_cons]
  refine ⟨?probeRun, ?srmSetBank, ?secSelfTest, List.forall_mem_nil _⟩
  case probeRun =>
    intro r s hmeets
    obtain ⟨hp, hready⟩ := Bool.and_eq_true_iff.1 hmeets
    simp only [Bool.and_eq_true, beq_iff_eq, decide_eq_true_eq] at hready
    obtain ⟨⟨⟨⟨hpair, htile⟩, hactive⟩, horder⟩, hprobe⟩ := hready
    obtain ⟨k, p, hkp⟩ : ∃ k p, nums tIndex r.body = [k, p] := ⟨_, _, List.eq_getElem_of_length_eq_two _ hpair⟩
    simp only [hkp, List.getD_cons_zero, List.getD_cons_succ] at htile horder hprobe ⊢
    have hop : probeRun r (taken r s) = (none, setTile k (fun x => { x with
        order := some (p, r, curFrame (taken r s) + b2n (taken r s).prb.window) }) (taken r s)) := by
      simp only [probeRun, command_of_passes hp, hkp, if_neg (Nat.not_lt.2 htile), isSome_eq_false horder, isNone_eq_false hactive,
        isNone_eq_false hprobe, Bool.or_false, Bool.false_eq_true, if_false]
      rfl
    change (match probeRun r (taken r s) with | (some rep, s) => _ | (none, s) => _) = _
    rw [hop]
  case srmSetBank =>
    intro r s hmeets
    obtain ⟨hp, hready⟩ := Bool.and_eq_true_iff.1 hmeets
    obtain ⟨hfree, haway⟩ := Bool.and_eq_true_iff.1 hready
    have hsome : ¬ (banksToChange r (taken r s)).isEmpty = true := by
      obtain ⟨b, hb, hne⟩ := List.any_eq_true.1 haway
      rw [List.isEmpty_iff]
      exact List.ne_nil_of_mem (List.mem_filter.2 ⟨mem_dedup.2 hb, hne⟩)
    have hop := (srmSetBank_of_banksFree hp hfree).trans (if_neg hsome)
    exact exec_srmSetBank_started hop
  case secSelfTest =>
    intro r s hmeets
    obtain ⟨hp, -⟩ := Bool.and_eq_true_iff.1 hmeets
    have hop : secSelfTest r (taken r s) =
        (none, setSec (fun x => { x with boundary := .selfTest, selfTests := 0, testReply := some r }) (taken r s)) := by
      simp [secSelfTest, command_of_passes hp, okay]
    change (match secSelfTest r (taken r s) with | (some rep, s) => _ | (none, s) => _) = _
    rw [hop]

end Sys2Proof.Machine
end

section
/-! PROOFS. Images in pieces (R392, R393): the obligations O18 and O19. What a slot makes of a piece is `takePiece`; an opcode adds what it
makes of the whole image. -/
namespace Sys2Proof.Machine

/-- What an opcode that stages an image makes of a piece. -/
def Stager.outcome (x : Stager) (r : Request) (t : State) : Reply × State :=
  match takePiece (x.slot r.body t) r.session r.body t with
  | .done p u => (p, u)
  | .whole img u => x.whole r.body img u

def Stager.Runs (x : Stager) : Prop :=
  ∀ (r : Request) (s : State), x.meets r s = true → exec (x.cmd r) s = .next (finish x.code r (x.outcome r (taken r s)))

theorem Stager.Runs.of_act {x : Stager} {act : Request → List Tlv → State → Reply × State}
    (hruns : RunsBehindChecks x.cmd (fun t => { code := x.code, auth := x.auth, params := x.params t }) x.allowed act)
    (hact : ∀ r t, x.ready r.body t = true → act r r.body t = x.outcome r t) : x.Runs := by
  intro r s hmeets
  obtain ⟨hp, hready⟩ := Bool.and_eq_true_iff.1 hmeets
  rw [hruns.of_passes hp, hact r (taken r s) hready]

/-- A piece that does not end its image is answered at once, where no work is under way that was not before. -/
def Stager.AnswersPieces (x : Stager) : Prop :=
  ∀ (r : Request) (s : State) (p : Reply) (u : State), x.meets r s = true →
    takePiece (x.slot r.body (taken r s)) r.session r.body (taken r s) = .done p u →
    u.prb.install = (taken r s).prb.install → u.cdc.test = (taken r s).cdc.test → exec (x.cmd r) s = .next (finish x.code r (p, u))

/-- Emptying the slot touches no work under way. -/
def Stager.ClearsSlotAlone (x : Stager) : Prop :=
  ∀ (b : List Tlv) (t : State), (x.slot b t).cleared.prb.install = t.prb.install ∧ (x.slot b t).cleared.cdc.test = t.cdc.test

theorem Stager.Runs.answersPieces {x : Stager} (h : x.Runs) : x.AnswersPieces := by
  intro r s p u hmeets hpiece _ _
  rw [h r s hmeets, Stager.outcome, hpiece]

theorem Stager.AnswersPieces.opens {x : Stager} (h : x.AnswersPieces) (hclear : x.ClearsSlotAlone) : x.Opens := by
  intro r s t k p hmeets hopens hshort hframe
  obtain ⟨hinstall, htest⟩ := hclear r.body t
  exact h r s _ _ hmeets (takePiece_opens hopens hshort hframe) hinstall htest

theorem Stager.AnswersPieces.continues {x : Stager} (h : x.AnswersPieces) : x.Continues := by
  intro r s a t k p hmeets hcont hshort hframe ha
  exact h r s _ _ hmeets (takePiece_continues hcont ha hshort hframe) rfl rfl

theorem Stager.Runs.ends {x : Stager} (h : x.Runs) : x.Ends := by
  intro r s a t k p hmeets hcont hlast ha
  rw [h r s hmeets, Stager.outcome, takePiece_ends hcont ha hlast]

theorem whole_of_guard {c : Prop} [Decidable c] {p : Reply} {v u : State} {y : Piece} {img : Bytes}
    (h : (if c then .done p v else y) = Piece.whole img u) : y = .whole img u := by
  split at h
  · cases h
  · exact h

theorem eq_of_whole {c : Prop} [Decidable c] {q : Piece} {bytes img : Bytes} {v u : State} (h : (if c then Piece.whole bytes v else q) = .whole img u)
    (hq : ∀ img u, q ≠ .whole img u) : u = v := by
  split at h
  · exact (Piece.whole.inj h).2.symm
  · exact absurd h (hq img u)

/-- A whole image is judged in the state as taken or with the slot emptied; its assembly has ended. -/
theorem takePiece_whole {k : Slot} {session : Nat} {b : List Tlv} {t u : State} {img : Bytes} (h : takePiece k session b t = .whole img u) :
    u = withAssembly k.key none t ∨ u = withAssembly k.key none k.cleared := by
  have hend : ∀ v : State, { v with asm := v.asm.filter (·.slot != k.key) } = withAssembly k.key none v := fun v => by simp [withAssembly]
  unfold takePiece at h
  iterate 10 replace h := whole_of_guard h
  have hu := eq_of_whole h fun _ _ => Piece.noConfusion
  rw [hu, hend]
  split
  · exact .inr rfl
  · exact .inl rfl

/-- The check of FRAME in the last piece. -/
theorem late_eq_not_frameAhead (b : List Tlv) (t : State) :
    (match num? tFrame b with | some f => decide (f ≤ curFrame t) | none => false) = !frameAhead b t := by
  cases hf : num? tFrame b <;> simp only [frameAhead, hf, Option.all_none, Option.all_some, Bool.not_true, ← decide_not, Nat.not_lt]

/-! ### The opcodes whose image is staged at once -/

theorem stagers_run : ∀ x ∈ stagers, x.Runs := by
  simp only [stagers, List.forall_mem_cons]
  refine ⟨?senStageTrim, ?redStageCatalogue, ?feaStageTable, ?glenStagePage, ?shutterStageProgram, ?probePushPack, ?hubImage, ?dieImage,
    List.forall_mem_nil _⟩
  case senStageTrim | redStageCatalogue | feaStageTable =>
    exact .of_act (fun _ _ => rfl) fun r t _ => rfl
  case glenStagePage =>
    refine .of_act (fun _ _ => rfl) fun r t hready => ?_
    have hstaging : stagingReady t = true := hready
    exact if_neg (by simp [hstaging])
  case shutterStageProgram =>
    refine .of_act (fun _ _ => rfl) fun r t _ => ?_
    dsimp only [Stager.outcome]
    cases hpiece : takePiece _ r.session r.body t with
    | done p u => rfl
    | whole img u =>
      obtain rfl | rfl := takePiece_whole hpiece <;> rfl
  case probePushPack =>
    refine .of_act (fun _ _ => rfl) fun r t _ => ?_
    dsimp only [Stager.outcome]
    cases hpiece : takePiece _ r.session r.body t with
    | done p u => rfl
    | whole img u =>
      dsimp only
      rw [← late_eq_not_frameAhead] <;> rfl
  case hubImage =>
    refine .of_act (fun _ _ => rfl) fun r t hready => ?_
    obtain ⟨hchoice, hpiece⟩ := Bool.and_eq_true_iff.1 hready
    simp [Option.isNone_iff_eq_none.1 hchoice, hpiece, Stager.outcome] <;> rfl
  case dieImage =>
    refine .of_act (fun _ _ => rfl) fun r t hready => ?_
    simp only [Bool.and_eq_true] at hready
    obtain ⟨⟨⟨hhub, hchoice⟩, hpiece⟩, hstorage⟩ := hready
    cases hv : val? tChoice r.body with
    | none => simp [hv] at hchoice
    | some v =>
      have hone : byteAt v 0 = 1 := by simpa [hv] using hchoice
      simp [hone, hpiece, hhub, hstorage, Stager.outcome] <;> rfl

theorem stagers_clearSlotAlone : ∀ x ∈ stagers ++ laterStagers, x.ClearsSlotAlone := by
  simp only [stagers, laterStagers, List.cons_append, List.nil_append, List.forall_mem_cons]
  refine ⟨?_, ?_, ?_, ?_, ?_, ?_, ?_, ?_, ?_, ?_, List.forall_mem_nil _⟩ <;> exact fun _ _ => ⟨rfl, rfl⟩

/-! ### The two whose whole image is answered later -/

theorem exec_probeInstallPack_answered {r : Request} {s u : State} {rep : Reply} (h : probeInstallPack r (taken r s) = (some rep, u)) :
    exec (.probeInstallPack r) s = .next (finish 0x0B01 r (rep, u)) := by
  change (match probeInstallPack r (taken r s) with | (some rep, s) => _ | (none, s) => _) = _
  rw [h]

theorem exec_cdcTest_answered {r : Request} {s u : State} {rep : Reply} (h : cdcTest r (taken r s) = (some rep, u)) :
    exec (.cdcTest r) s = .next (finish 0x1102 r (rep, u)) := by
  change (match cdcTest r (taken r s) with | (some rep, s) => _ | (none, s) => _) = _
  rw [h]

theorem true_ne_false_beq : ¬ (true == false) = true := by decide

/-- A work that stands as before is no work begun. -/
theorem not_begun {α : Type} {o p : Option α} (h : o = p) : ¬ (o.isSome && p.isNone) = true := by
  subst h
  cases o <;> simp

theorem laterStagers_answerPieces : ∀ x ∈ laterStagers, x.AnswersPieces := by
  simp only [laterStagers, List.forall_mem_cons]
  refine ⟨?install, ?test, List.forall_mem_nil _⟩
  case install =>
    intro r s p u hmeets hpiece hinstall _
    obtain ⟨hp, -⟩ := Bool.and_eq_true_iff.1 hmeets
    refine exec_probeInstallPack_answered ?_
    simp only [probeInstallPack, command_of_passes hp]
    dsimp only at hpiece
    simp only [hpiece, if_neg (not_begun hinstall)]
  case test =>
    intro r s p u hmeets hpiece _ htest
    obtain ⟨hp, hready⟩ := Bool.and_eq_true_iff.1 hmeets
    obtain ⟨hsome, hnone⟩ := Bool.and_eq_true_iff.1 hready
    refine exec_cdcTest_answered ?_
    simp only [cdcTest, command_of_passes hp, hsome, isSome_eq_false hnone]
    dsimp only at hpiece
    simp only [hpiece, Bool.false_eq_true, if_false, if_neg true_ne_false_beq, if_neg (not_begun htest)]

/-- Settles O18: an opcode that runs its pieces opens, continues and ends an assembly as its slot does. -/
theorem piecesAreAssembled : Obligations.PiecesAreAssembled := by
  unfold Obligations.PiecesAreAssembled
  have hpieces : ∀ x ∈ stagers ++ laterStagers, x.AnswersPieces :=
    List.forall_mem_append.2 ⟨fun x hx => (stagers_run x hx).answersPieces, laterStagers_answerPieces⟩
  exact ⟨fun x hx => (hpieces x hx).opens (stagers_clearSlotAlone x hx), fun x hx => (hpieces x hx).continues,
    fun x hx => (stagers_run x hx).ends⟩

theorem exec_probeInstallPack_started {r : Request} {s u : State} (h : probeInstallPack r (taken r s) = (none, u)) :
    exec (.probeInstallPack r) s = .next u := by
  change (match probeInstallPack r (taken r s) with | (some rep, s) => _ | (none, s) => _) = _
  rw [h]

theorem exec_cdcTest_started {r : Request} {s u : State} (h : cdcTest r (taken r s) = (none, u)) : exec (.cdcTest r) s = .next u := by
  change (match cdcTest r (taken r s) with | (some rep, s) => _ | (none, s) => _) = _
  rw [h]

/-- Settles O19: the last piece hands on the whole image, and what it begins was not under way before. -/
theorem packAndCodecTestBegin : Obligations.PackAndCodecTestBegin := by
  unfold Obligations.PackAndCodecTestBegin
  simp only [laterStagers, List.forall_mem_cons]
  refine ⟨⟨?install, fun _ _ _ _ hcode => absurd hcode (by decide), List.forall_mem_nil _⟩, fun _ _ _ _ hcode => absurd hcode (by decide), ?test,
    List.forall_mem_nil _⟩
  case install =>
    intro r s u a _ hmeets hcont hlast ha hbusy hahead hopen hstarted hidle
    obtain ⟨hp, -⟩ := Bool.and_eq_true_iff.1 hmeets
    refine exec_probeInstallPack_started ?_
    have hpiece := takePiece_ends hcont ha hlast
    dsimp only at hpiece hbusy hopen
    cases hf : num? tFrame r.body with
    | none =>
      rw [hf] at hopen
      simp only [probeInstallPack, command_of_passes hp, hpiece, hbusy, hf, hopen, hstarted, hidle, Bool.false_eq_true, if_false]
      rfl
    | some f =>
      have hlater : curFrame (taken r s) < f := by simpa [frameAhead, hf] using hahead
      have hframe : ¬ f ≤ curFrame (withAssembly 0x0B01 none (taken r s)) := Nat.not_le.2 hlater
      rw [hf] at hopen
      simp only [probeInstallPack, command_of_passes hp, hpiece, hbusy, hf, decide_eq_true_eq, if_neg hframe, hopen, hstarted, hidle,
        Bool.false_eq_true, if_false]
      rfl
  case test =>
    intro r s a c _ hmeets hcont hlast ha hidle hjob
    obtain ⟨hp, hready⟩ := Bool.and_eq_true_iff.1 hmeets
    obtain ⟨hsome, hnone⟩ := Bool.and_eq_true_iff.1 hready
    refine exec_cdcTest_started ?_
    have hpiece := takePiece_ends hcont ha hlast
    dsimp only at hpiece hjob
    simp only [hidle] at hpiece
    simp only [cdcTest, command_of_passes hp, hsome, isSome_eq_false hnone, hidle, Bool.false_eq_true, if_false, if_neg true_ne_false_beq, hpiece, hjob]
    rfl

end Sys2Proof.Machine
end

section
/-! PROOFS. Opcodes of their own kind: the step of root time (O21), drawn values (O22), streams (O23) and sessions (O24). -/
namespace Sys2Proof.Machine

/-! ### The step of root time (R71) -/

/-- Settles O21: the checks of TIME.STEP_ROOT pass, and the frame is ahead. -/
theorem stepOfRootTimeIsDeferred : Obligations.StepOfRootTimeIsDeferred := by
  unfold Obligations.StepOfRootTimeIsDeferred
  intro r s t f ns hp hspan hahead hstart
  have hlater : curFrame t < f := by omega
  have hrange : ¬ (decide (ns.natAbs > 1000000000000) || decide (f < curFrame t + 16) ||
      decide (((tickTime t.frame.params f / nsUnit : Nat) : Int) + ns < 0)) = true := by
    simp only [Bool.or_eq_true, decide_eq_true_eq]
    omega
  refine answered_congr ((command_of_passes hp).trans ((if_neg hrange).trans ?_))
  rw [show num tFrame r.body = f from rfl, defer_later hlater]

/-! ### Drawn values (R417) -/

theorem exec_secGetCert {r : Request} {s : State} {p : Reply} {u : State}
    (hp : passes { code := 0x1502, auth := authRead, params := [may tData] } true r (taken r s) = true)
    (hact : (match val? tData r.body with
      | none => (okay [record (fit 768 (taken r s).sec.chain)], taken r s)
      | some c =>
        if c.length != 32 then (refuse stBadLength, taken r s) else
        (okay [record (fit 768 (taken r s).sec.chain), record (fit 96 (Config.attestation (taken r s).free (sha256 (attested c (taken r s)))))],
          { taken r s with free := (taken r s).free + 1 })) = (p, u)) :
    exec (.secGetCert r) s = .next (finish 0x1502 r (p, u)) :=
  answered_congr ((command_of_passes hp).trans hact)

/-- The engine load is the last of the fixed TLVs, and the draw is spent where the reply is OK. -/
theorem hshGet_of_passes {r : Request} {t : State} (hp : passes { code := 0x1401, auth := authRead, params := [may tOffset] } true r t = true) :
    ∃ fixed items next, hshGet r t =
      (readout r.version (fixed ++ [stBytes 0 (Config.freeBytes t.free 4)]) items next,
        if (readout r.version (fixed ++ [stBytes 0 (Config.freeBytes t.free 4)]) items next).status = stOk then { t with free := t.free + 1 } else t) := by
  simp only [hshGet, command_of_passes hp, drawBytes, beq_iff_eq]
  exact ⟨_, _, _, rfl⟩

/-- Settles O22: what is drawn stands in the reply, and the reply's status says whether the draw is spent. -/
theorem freeValuesAreDrawnIntoReplies : Obligations.FreeValuesAreDrawnIntoReplies := by
  unfold Obligations.FreeValuesAreDrawnIntoReplies
  refine ⟨?load, ?certificate⟩
  case load =>
    intro r s t hp
    obtain ⟨fixed, items, next, hop⟩ := hshGet_of_passes hp
    refine ⟨_, answered_congr hop, (readout_cases _ _ _ _).imp_left fun hok => ⟨hok.1, ?_⟩⟩
    exact hok.2 _ (List.mem_append_right _ (List.mem_singleton.2 rfl))
  case certificate =>
    intro r s t hp
    refine ⟨fun hnone => ?_, fun c hsome hlen => ?_⟩
    · exact exec_secGetCert hp (by rw [hnone])
    · exact exec_secGetCert hp (by rw [hsome]; exact if_neg (by simp [hlen]))

/-! ### Streams -/

theorem hostRead_formHead (t : State) : (formHead t).sht.hostRead = t.sht.hostRead := by
  unfold formHead
  dsimp only
  (repeat' split) <;> rfl

/-- Making room for the host's output writes the codec alone. -/
theorem sht_hostRoom (t : State) : (hostRoom t).sht = t.sht :=
  (keep_hostRoom (M := maskOf [.cdc]) rfl (Keep.refl t)).part .sht (by decide)

/-- Settles O23: one reporter's entries, a run of the scan, the store of the session that has it. -/
theorem streamsAreRead : Obligations.StreamsAreRead := by
  unfold Obligations.StreamsAreRead
  refine ⟨?fetch, ?scan, ?capture⟩
  case fetch =>
    intro r s q t hp hexports hunit hseq es rep
    refine answered_congr ((command_of_passes hp).trans ?_)
    simp only [hunit, hseq]
    refine (if_neg (by simp [hexports])).trans ((if_neg (by simp)).trans ((if_neg (by simp)).trans ((if_neg (by simp)).trans ?_)))
    simp only [beq_iff_eq] <;> rfl
  case scan =>
    intro r s t hp hhost v run
    refine ⟨_, _, answered_congr ((command_of_passes hp).trans (if_neg (by simp [hhost]))), rfl, rfl, ?_, hostRead_formHead t⟩
    split <;> exact congrArg (·.hostRead) (sht_hostRoom _)
  case capture =>
    intro r s f t hp hauth hflag p
    refine answered_congr ((command_of_passes hp).trans ?_)
    have hsession : ¬ ((t.wpt.auth.map (·.1)) != some r.session) = true := by simp [hauth]
    refine (if_neg hsession).trans ((if_neg (ne_true_of_eq_false hflag)).trans ?_)
    simp only [Bool.and_eq_true, beq_iff_eq] <;> rfl

/-! ### Sessions (R422 to R424) -/

/-- SEC.OPEN_SESSION stands outside the checks of Table CMD-5's rows 4 and 8: a unit that works takes a grant. -/
theorem secOpenSession_of_working {r : Request} {t : State} (hw : working t = true) (hself : t.sec.boundary ≠ .selfTest)
    (herr : t.sec.boundary ≠ .error) (hbody : checkBody [must tData] r.body = none) :
    secOpenSession r t = match checkGrant ((val? tData r.body).getD []) t with
      | .error e => (none, refuse e, t)
      | .ok x => (some x.key, okay [], openGranted ((val? tData r.body).getD []) x t) := by
  simp only [secOpenSession, hw, hbody, beq_eq_false_iff_ne.2 hself, beq_eq_false_iff_ne.2 herr] <;> rfl

theorem exec_secOpenSession {r : Request} {s u : State} {key : Option Bytes} {p : Reply} (h : secOpenSession r (taken r s) = (key, p, u)) :
    exec (.secOpenSession r) s = .next (answerWith key 0x1503 r p u) := by
  change (match secOpenSession r (taken r s) with | (key, p, s) => Host.Outcome.next (answerWith key 0x1503 r p s)) = _
  rw [h]

theorem exec_secCloseSession {r : Request} {s u : State} {p : Reply} (h : secCloseSession r (taken r s) = (p, u)) :
    exec (.secCloseSession r) s = .next (answerWith (replyKey r.session (taken r s)) 0x1504 r p u) := by
  change (match secCloseSession r (taken r s) with
    | (p, s') => Host.Outcome.next (answerWith (replyKey r.session (taken r s)) 0x1504 r p s')) = _
  rw [h]

theorem exec_secRotateKey {r : Request} {s u : State} {p : Reply} (h : secRotateKey r (taken r s) = (p, u)) :
    exec (.secRotateKey r) s = .next (answerWith (replyKey r.session (taken r s)) 0x1505 r p u) := by
  change (match secRotateKey r (taken r s) with
    | (p, s') => Host.Outcome.next (answerWith (replyKey r.session (taken r s)) 0x1505 r p s')) = _
  rw [h]

/-- The session that passes the checks signs its reply. -/
theorem replyKey_of_passes {o : Op} {allowed : Bool} {r : Request} {t : State} {x : Session} (hp : passes o allowed r t = true)
    (hx : sessionOf r.session t = some x) : replyKey r.session t = some x.key := by
  simp only [passes, Bool.and_eq_true, bne_iff_ne] at hp
  simp [replyKey, hx, hp]

theorem sessionOf_isSome_of_passes {o : Op} {allowed : Bool} {r : Request} {t : State} (hp : passes o allowed r t = true) :
    (sessionOf r.session t).isSome = true := by
  simp only [passes, Bool.and_eq_true] at hp
  obtain ⟨⟨⟨⟨⟨-, hsession⟩, -⟩, -⟩, -⟩, -⟩ := hp
  exact hsession

theorem flagBad_of_val_none {b : List Tlv} (h : val? tFlag b = none) : flagBad b = false := by
  have hvals : vals tFlag b = [] := List.head?_eq_none_iff.1 h
  simp [flagBad, nums, hvals]

/-- What SEC.ROTATE_KEY does behind its checks, by its CHOICE. -/
def rotation (c : Nat) (r : Request) (t : State) : Reply × State :=
  match c with
  | 0 => rotateSession r ((val? tData r.body).getD []) t
  | 1 => rotateAnchor (flag r.body) ((val? tData r.body).getD []) t
  | 2 => rotateOwnership ((val? tData r.body).getD []) t
  | _ => if (val? tData r.body).isSome then (refuse stBadParam, t) else (okay [], zeroise t)

theorem secRotateKey_of_passes {r : Request} {t : State} {c : Nat} (hc : choice r.body = c) (hle : c ≤ 3)
    (hp : passes { code := 0x1505, auth := if 1 ≤ c && c ≤ 3 then authKeys else authOperate, params := [must tChoice, may tFlag, may tData] } true r t = true)
    (hflag : flagBad r.body = false) (hone : val? tFlag r.body = none ∨ c = 1) :
    secRotateKey r t = rotation c r t := by
  subst hc
  have hguard : ¬ (decide (choice r.body > 3) || flagBad r.body || ((val? tFlag r.body).isSome && choice r.body != 1)) = true := by
    obtain hnone | hone := hone
    · simp [hle, hflag, hnone]
    · simp [hflag, hone]
  unfold secRotateKey
  dsimp only
  rw [command_of_passes hp]
  exact if_neg hguard

theorem rotateSession_of_opened {r : Request} {t : State} {d key : Bytes} {x : Session} (hlen : d.length = 60) (hx : sessionOf r.session t = some x)
    (hopen : gcmOpen x.key (d.take 12) (targetBlock t ++ toLe 2 r.session ++ toLe 4 r.seq) (slice d 12 32) (slice d 44 16) = some key) :
    rotateSession r d t = (okay [], setSession r.session (fun k => { k with key := key }) t) := by
  unfold rotateSession
  rw [if_neg (by simp [hlen]), hx, Option.bind_some, hopen]

theorem rotateOwnership_of_opened {t : State} {d k key : Bytes} (hlen : d.length = 60) (hgen : t.sec.generation + 1 ≤ 7)
    (hk : tfind t.sec.generation t.sec.ownership = some k)
    (hopen : gcmOpen k (d.take 12) (targetBlock t ++ toLe 1 (t.sec.generation + 1)) (slice d 12 32) (slice d 44 16) = some key) :
    rotateOwnership d t = (okay [], setSec (fun x => { x with generation := t.sec.generation + 1, ownership := [(t.sec.generation + 1, key)] }) t) := by
  unfold rotateOwnership
  rw [if_neg (by simp [hlen]), if_neg (by omega), ownerKey, hk, Option.bind_some, hopen]

/-- An anchor's slot that is empty takes the key; slot 0xFF narrows the release key. -/
theorem rotateAnchor_writes {t : State} {d : Bytes} (hlen : d.length = 100) (hzero : allZero (slice d 2 2) = true) (hmask : bit (byteAt d 1) 7 = false) :
    (byteAt d 0 ≤ 7 → t.sec.anchors.getD (byteAt d 0) none = none → rotateAnchor false d t =
      (okay [], setSec (fun x => { x with anchors := modifyAt (byteAt d 0) (fun _ => some ⟨rd d 4 48, rd d 52 48, byteAt d 1, false⟩) x.anchors }) t)) ∧
    (byteAt d 0 = 0xFF → rotateAnchor false d t =
      (okay [], setSec (fun x => { x with release := { x.release with mask := x.release.mask &&& byteAt d 1 } }) t)) := by
  have hsize : ¬ (d.length != (if false = true then 1 else 100)) = true := by simp [hlen]
  have hbytes : ¬ (!allZero (slice d 2 2) || bit (byteAt d 1) 7) = true := by simp [hzero, hmask]
  constructor
  · intro hslot hnone
    have hanchor : ¬ (byteAt d 0 == 0xFF) = true := by
      rw [beq_iff_eq]
      omega
    unfold rotateAnchor
    rw [if_neg hsize, if_neg (by simp [Nat.not_lt.2 hslot]), if_neg Bool.false_ne_true, if_neg hbytes, if_neg hanchor, hnone] <;> rfl
  · intro hslot
    unfold rotateAnchor
    rw [if_neg hsize, if_neg (by simp [hslot]), if_neg Bool.false_ne_true, if_neg hbytes, if_pos (by simp [hslot])]

/-- A good anchor is revoked where another one may still open sessions. -/
theorem rotateAnchor_revokes {t : State} {d : Bytes} {a : Anchor} (hlen : d.length = 1) (hslot : byteAt d 0 ≤ 7)
    (ha : t.sec.anchors.getD (byteAt d 0) none = some a) (hgood : a.revoked = false) (hother : otherSessions (byteAt d 0) t = true) :
    rotateAnchor true d t =
      (okay [], setSec (fun x => { x with anchors := modifyAt (byteAt d 0) (fun _ => some { a with revoked := true }) x.anchors }) t) := by
  unfold rotateAnchor
  rw [if_neg (by simp [hlen]), if_neg (by simp [Nat.not_lt.2 hslot]), if_pos rfl, ha]
  exact if_neg (by simp [hgood, hother])

/-- Settles O24, form by form. -/
theorem sessionOpcodesAct : Obligations.SessionOpcodesAct := by
  unfold Obligations.SessionOpcodesAct
  refine ⟨?opens, ?rejects, ?closes, ?closesOther, ?zeroises, ?newKey, ?anchors, ?ownership⟩
  case opens =>
    intro r s x t g hw hself herr hbody hgrant
    exact exec_secOpenSession ((secOpenSession_of_working hw hself herr hbody).trans (by rw [show checkGrant _ t = _ from hgrant]))
  case rejects =>
    intro r s e t g hw hself herr hbody hgrant
    exact exec_secOpenSession ((secOpenSession_of_working hw hself herr hbody).trans (by rw [show checkGrant _ t = _ from hgrant]))
  case closes =>
    intro r s t hp hindex
    refine exec_secCloseSession ?_
    have hself : ¬ (sessionOf r.session t).isNone = true := not_isNone (sessionOf_isSome_of_passes hp)
    simp only [secCloseSession, hindex, Bool.false_eq_true, if_false]
    rw [command_of_passes hp, hindex]
    exact if_neg hself
  case closesOther =>
    intro r s k t hp hindex hk hother
    refine exec_secCloseSession ?_
    have hauth : (k != r.session) = true := by simpa using hk
    simp only [secCloseSession, hindex, hauth, if_true]
    rw [command_of_passes hp, hindex]
    exact if_neg (not_isNone hother)
  case zeroises =>
    intro r s t hp hchoice hflag hdata
    refine exec_secRotateKey ((secRotateKey_of_passes hchoice (Nat.le_refl _) hp (flagBad_of_val_none hflag) (.inl hflag)).trans ?_)
    exact if_neg (by simp [hdata])
  case newKey =>
    intro r s x key t d hp hchoice hflag hlen hx hopen
    rw [← replyKey_of_passes hp hx]
    refine exec_secRotateKey ((secRotateKey_of_passes hchoice (by decide) hp (flagBad_of_val_none hflag) (.inl hflag)).trans ?_)
    exact rotateSession_of_opened hlen hx hopen
  case anchors =>
    intro r s t d slot become hp hchoice hflag
    have hop := secRotateKey_of_passes hchoice (by decide) hp hflag (.inr rfl)
    refine ⟨fun hwrite hlen hzero hmask => ?_, fun a hrevoke hlen hslot ha hgood hother => ?_⟩
    · obtain ⟨hwrites, hnarrows⟩ := rotateAnchor_writes (t := t) hlen hzero hmask
      rw [rotation, hwrite] at hop
      exact ⟨fun hslot hnone => exec_secRotateKey (hop.trans (hwrites hslot hnone)), fun hslot => exec_secRotateKey (hop.trans (hnarrows hslot))⟩
    · rw [rotation, hrevoke] at hop
      exact exec_secRotateKey (hop.trans (rotateAnchor_revokes hlen hslot ha hgood hother))
  case ownership =>
    intro r s k key t d g hp hchoice hflag hlen hg hk hopen
    refine exec_secRotateKey ((secRotateKey_of_passes hchoice (by decide) hp (flagBad_of_val_none hflag) (.inl hflag)).trans ?_)
    exact rotateOwnership_of_opened hlen hg hk hopen

end Sys2Proof.Machine
end

section
/-! PROOFS. Encodings: numbers, TLVs, parameter blocks, LEB128 values and cuts read back, and the obligations O59 and O60. -/
namespace Sys2Proof.Machine

/-! ### Little-endian numbers -/

theorem le_toLe (n v : Nat) : le (toLe n v) = v % 256 ^ n := by
  induction n generalizing v with
  | zero => simp [toLe, le, Nat.mod_one]
  | succ n ih =>
    rw [toLe, le, ih, BitVec.toNat_ofNat, Nat.pow_succ' (n := n), Nat.mod_mul]

theorem rd_append_left {n v : Nat} (hv : v < 256 ^ n) (rest : Bytes) : rd (toLe n v ++ rest) 0 n = v := by
  rw [rd, slice, List.drop_zero, List.take_left' (length_toLe n v), le_toLe, Nat.mod_eq_of_lt hv]

theorem slice_append_right {a : Bytes} {off : Nat} (h : a.length ≤ off) (b : Bytes) (n : Nat) :
    slice (a ++ b) off n = slice b (off - a.length) n := by
  rw [slice, slice, List.drop_append, List.drop_of_length_le h, List.nil_append]

/-- A read past the first part of a byte string reads the second. -/
theorem rd_append_right {a : Bytes} {off : Nat} (h : a.length ≤ off) (b : Bytes) (n : Nat) :
    rd (a ++ b) off n = rd b (off - a.length) n :=
  congrArg le (slice_append_right h b n)

theorem byteAt_eq_rd (b : Bytes) (off : Nat) : byteAt b off = rd b off 1 := by
  rw [byteAt, rd, slice, List.getD_eq_getElem?_getD, ← List.head?_drop]
  cases b.drop off with
  | nil => rfl
  | cons x xs => simp [le]

theorem allZero_zeros (n : Nat) : allZero (zeros n) = true :=
  allZero_iff.2 fun _ hb => List.eq_of_mem_replicate hb

/-! ### TLVs (R372 to R375) -/

theorem padTo_four_length (v : Bytes) : (v.length + 3) / 4 * 4 = v.length + (4 - v.length % 4) % 4 := by omega

theorem length_tlvBytes (t : Tlv) : (tlvBytes t).length = 4 + (t.val.length + 3) / 4 * 4 := by
  simp [tlvBytes, padTo, padTo_four_length]
  omega

/-- A built TLV is its type, the length of its value, the value and its padding. -/
theorem tlvBytes_append (t : Tlv) (rest : Bytes) :
    tlvBytes t ++ rest = toLe 2 t.ty ++ (toLe 2 t.val.length ++ (t.val ++ (zeros ((4 - t.val.length % 4) % 4) ++ rest))) := by
  simp only [tlvBytes, padTo, List.append_assoc]

theorem readTlvs_nil (n : Nat) : readTlvs n [] = [] := by
  cases n <;> rfl

/-- One more of fuel reads the TLV at the front. -/
theorem readTlvs_tlvBytes_append {t : Tlv} (hty : t.ty < 2 ^ 16) (hlen : t.val.length < 2 ^ 16) (n : Nat) (rest : Bytes) :
    readTlvs (n + 1) (tlvBytes t ++ rest) = t :: readTlvs n rest := by
  have hkind : rd (tlvBytes t ++ rest) 0 2 = t.ty := by
    rw [tlvBytes_append]
    exact rd_append_left hty _
  have hsize : rd (tlvBytes t ++ rest) 2 2 = t.val.length := by
    rw [tlvBytes_append, rd_append_right (by simp), length_toLe]
    exact rd_append_left hlen _
  have hvalue : slice (tlvBytes t ++ rest) 4 t.val.length = t.val := by
    rw [tlvBytes_append, slice_append_right (by simp), slice_append_right (by simp), length_toLe, length_toLe]
    exact List.take_left
  have hpad : slice (tlvBytes t ++ rest) (4 + t.val.length) ((t.val.length + 3) / 4 * 4 - t.val.length) = zeros ((4 - t.val.length % 4) % 4) := by
    rw [tlvBytes_append, slice_append_right (by simp; omega), slice_append_right (by simp; omega), slice_append_right (by simp; omega),
      length_toLe, length_toLe, padTo_four_length, Nat.add_sub_cancel_left]
    have hstart : 4 + t.val.length - 2 - 2 - t.val.length = 0 := by omega
    rw [hstart]
    exact List.take_left' (length_zeros _)
  have hroom : ¬ (tlvBytes t ++ rest).length < (tlvBytes t).length := by
    rw [List.length_append]
    omega
  have hsome : ¬ (tlvBytes t ++ rest).isEmpty = true := by
    rw [List.isEmpty_iff_length_eq_zero, List.length_append, length_tlvBytes]
    omega
  rw [readTlvs, if_neg hsome]
  simp only [hsize, hkind, hvalue, hpad, allZero_zeros, if_neg hroom, if_true, ← length_tlvBytes, List.drop_left]

/-- Settles O59, by induction on the TLVs. -/
theorem bodiesReadBack : Obligations.BodiesReadBack := by
  unfold Obligations.BodiesReadBack
  intro ts
  induction ts with
  | nil => exact fun n _ _ => readTlvs_nil n
  | cons t ts ih =>
    intro n hts hn
    obtain ⟨⟨hty, hlen⟩, hrest⟩ := List.forall_mem_cons.1 hts
    obtain _ | n := n
    · simp at hn
    · rw [bodyBytes, List.flatMap_cons, readTlvs_tlvBytes_append hty hlen]
      exact congrArg (t :: ·) (ih n hrest (Nat.le_of_succ_le_succ hn))

/-! ### LEB128 values (R279) -/

/-- With fuel for `f` continued bytes and a last one, a value of 7 × (f + 1) bits reads back. -/
theorem unleb128_leb128F_append (rest : Bytes) (f v : Nat) (hv : v < 128 ^ (f + 1)) : unleb128 (leb128F f v ++ rest) = some (v, rest) := by
  induction f generalizing v with
  | zero =>
    have hlast : v % 128 = v := Nat.mod_eq_of_lt (by simpa using hv)
    have hbyte : (BitVec.ofNat 8 v).toNat = v := by
      rw [BitVec.toNat_ofNat]
      omega
    rw [leb128F, List.singleton_append, unleb128, hlast, hbyte, if_pos (by omega)]
  | succ f ih =>
    rw [leb128F]
    split
    next hsmall =>
      have hbyte : (BitVec.ofNat 8 v).toNat = v := by
        rw [BitVec.toNat_ofNat]
        omega
      rw [List.singleton_append, unleb128, hbyte, if_pos hsmall]
    next hlarge =>
      have hbyte : (BitVec.ofNat 8 (128 + v % 128)).toNat = 128 + v % 128 := by
        rw [BitVec.toNat_ofNat]
        omega
      have hhigh : v / 128 < 128 ^ (f + 1) := Nat.div_lt_of_lt_mul (by rwa [← Nat.pow_succ'])
      have hsum : (128 + v % 128) % 128 + 128 * (v / 128) = v := by omega
      rw [List.cons_append, unleb128, hbyte, if_neg (by omega), ih _ hhigh]
      exact congrArg (fun w => some (w, rest)) hsum

/-! ### Parameter blocks (Table RED-19) -/

theorem secOf_mul_nsUnit (n : Nat) : secOf (n * nsUnit) = n / 1000000000 :=
  Nat.mul_div_mul_right _ _ (Nat.two_pow_pos 32)

theorem nsOf_mul_nsUnit (n : Nat) : nsOf (n * nsUnit) = n % 1000000000 := by
  rw [nsOf, Nat.mul_div_cancel n (n := nsUnit) (Nat.two_pow_pos 32)]

theorem b2n_lt (b : Bool) : b2n b < 256 ^ 1 := by
  cases b <;> decide

theorem b2n_beq_one (b : Bool) : (b2n b == 1) = b := by
  cases b <;> rfl

theorem readParams_paramBlock {p : FrameParams} (hanchor : p.anchor < 256 ^ 8) (hns : p.anchorNs < 1000000000 * 256 ^ 8) (hperiod : p.period < 256 ^ 4)
    (hemit : p.emit < 256 ^ 2) (htray : p.tray < 256 ^ 2) (hpod : p.pod < 256 ^ 2) (hroot : p.root < 256 ^ 2) (hret : p.ret < 256 ^ 2)
    (hgrace : p.grace < 256 ^ 1) (hlimit : p.limit < 256 ^ 1) (hstale : p.stale < 256 ^ 1) : readParams (paramBlock p) = p := by
  have hsec : p.anchorNs / 1000000000 < 256 ^ 8 := Nat.div_lt_of_lt_mul hns
  have hpart : p.anchorNs % 1000000000 < 2 ^ 30 := Nat.lt_trans (Nat.mod_lt _ (by decide : 0 < 1000000000)) (by decide)
  have hfour : p.anchorNs % 1000000000 < 256 ^ 4 := Nat.lt_trans hpart (by decide)
  simp only [readParams, paramBlock, shortStamp, secOf_mul_nsUnit, nsOf_mul_nsUnit, byteAt_eq_rd, List.append_assoc]
  simp only [rd_append_right, length_toLe, Nat.reduceLeDiff, Nat.reduceSub, rd_append_left, hanchor, hsec, hfour, hperiod, hemit, htray, hpod, hroot, hret,
    hgrace, hlimit, hstale, b2n_lt, b2n_beq_one, Nat.mod_eq_of_lt hpart, Nat.div_add_mod', Nat.le_refl]

/-! ### Cuts (log entry 40) -/

/-- A stamp that the body of a cut can hold. -/
def StampFits (t : Stamp) : Prop := t.sec < 2 ^ 64 ∧ t.ns < 2 ^ 30 ∧ t.sub < 2 ^ 16

/-- A stamp in the 16 bytes that the body of a cut gives it. -/
def stampBytes (t : Stamp) : Bytes := toLe 8 t.sec ++ toLe 4 t.ns ++ toLe 2 t.sub ++ zeros 2

/-- The stamp that stands at an offset of the body of a cut. -/
def stampAt (b : Bytes) (o : Nat) : Stamp := ⟨rd b o 8, bits (rd b (o + 8) 4) 0 30, rd b (o + 12) 2⟩

@[simp] theorem length_stampBytes (t : Stamp) : (stampBytes t).length = 16 := by
  simp [stampBytes]

theorem stampAt_append_left {t : Stamp} (ht : StampFits t) (rest : Bytes) : stampAt (stampBytes t ++ rest) 0 = t := by
  obtain ⟨hsec, hns, hsub⟩ := ht
  have hsec8 : t.sec < 256 ^ 8 := hsec
  have hns4 : t.ns < 256 ^ 4 := Nat.lt_trans hns (by decide)
  have hsub2 : t.sub < 256 ^ 2 := hsub
  simp only [stampAt, stampBytes, List.append_assoc, bits, Nat.pow_zero, Nat.div_one, rd_append_right, length_toLe, Nat.reduceLeDiff, Nat.reduceSub,
    Nat.reduceAdd, rd_append_left, hsec8, hns4, hsub2, Nat.mod_eq_of_lt hns]

theorem stampAt_append_right {a : Bytes} {o : Nat} (h : a.length ≤ o) (b : Bytes) : stampAt (a ++ b) o = stampAt b (o - a.length) := by
  rw [stampAt, rd_append_right h, rd_append_right (Nat.le_add_right_of_le h), rd_append_right (Nat.le_add_right_of_le h),
    Nat.sub_add_comm h, Nat.sub_add_comm h]
  rfl

/-- The fields of a cut before its stamps. -/
def cutHead (c : CutArm) : Bytes :=
  zeros 8 ++ (toLe 1 c.op ++ (toLe 1 c.mode ++ (toLe 1 (b2n c.resume.isSome) ++ (zeros 1 ++ toLe 4 c.serial.toNat))))

@[simp] theorem length_cutHead (c : CutArm) : (cutHead c).length = 16 := by
  simp [cutHead]

/-- The resume stamp of a cut, or the zero bytes in its place. -/
def resumeBytes (o : Option Stamp) : Bytes := (o.map stampBytes).getD (zeros 16)

@[simp] theorem length_resumeBytes (o : Option Stamp) : (resumeBytes o).length = 16 := by
  cases o with
  | none => rfl
  | some t => exact length_stampBytes t

theorem cutBody_eq (c : CutArm) : cutBody c = cutHead c ++ (stampBytes c.stop ++ resumeBytes c.resume) := by
  obtain ⟨op, serial, stop, mode, resume⟩ := c
  cases resume with
  | none => simp only [cutBody, cutHead, stampBytes, resumeBytes, List.append_assoc, Option.map_none, Option.getD_none]
  | some t => simp only [cutBody, cutHead, stampBytes, resumeBytes, List.append_assoc, Option.map_some, Option.getD_some]

theorem stampAt_resumeBytes {o : Option Stamp} (h : ∀ t ∈ o, StampFits t) :
    (if b2n o.isSome == 1 then some (stampAt (resumeBytes o) 0) else none) = o := by
  cases o with
  | none => rfl
  | some t =>
    have hread : stampAt (stampBytes t) 0 = t := by simpa using stampAt_append_left (h t rfl) []
    exact congrArg some hread

theorem readCut_cutBody {c : CutArm} (hop : c.op ≤ 2) (hmode : c.mode ≤ 2) (hstamps : ∀ t ∈ c.stop :: c.resume.toList, StampFits t) :
    readCut (cutBody c) = some c := by
  obtain ⟨hstop, hresume⟩ := List.forall_mem_cons.1 hstamps
  have hop1 : c.op < 256 ^ 1 := Nat.lt_of_le_of_lt hop (by decide)
  have hmode1 : c.mode < 256 ^ 1 := Nat.lt_of_le_of_lt hmode (by decide)
  have hserial4 : c.serial.toNat < 256 ^ 4 := c.serial.isLt
  have hopAt : byteAt (cutBody c) 8 = c.op := by
    rw [cutBody_eq, byteAt_eq_rd]
    simp [cutHead, rd_append_right, rd_append_left hop1]
  have hmodeAt : byteAt (cutBody c) 9 = c.mode := by
    rw [cutBody_eq, byteAt_eq_rd]
    simp [cutHead, rd_append_right, rd_append_left hmode1]
  have hsomeAt : byteAt (cutBody c) 10 = b2n c.resume.isSome := by
    rw [cutBody_eq, byteAt_eq_rd]
    simp [cutHead, rd_append_right, rd_append_left (b2n_lt _)]
  have hserialAt : rd (cutBody c) 12 4 = c.serial.toNat := by
    rw [cutBody_eq]
    simp [cutHead, rd_append_right, rd_append_left hserial4]
  have hstopAt : stampAt (cutBody c) 16 = c.stop := by
    rw [cutBody_eq, stampAt_append_right (by simp), length_cutHead]
    exact stampAt_append_left hstop _
  have hresumeAt : (if b2n c.resume.isSome == 1 then some (stampAt (cutBody c) 32) else none) = c.resume := by
    rw [cutBody_eq, stampAt_append_right (by simp), stampAt_append_right (by simp), length_cutHead, length_stampBytes]
    exact stampAt_resumeBytes fun t ht => hresume t (Option.mem_toList.2 ht)
  have hform : ¬ ((cutBody c).length != 48 || decide (byteAt (cutBody c) 8 > 2) || decide (byteAt (cutBody c) 9 > 2)) = true := by
    rw [hopAt, hmodeAt, decide_eq_false (Nat.not_lt.2 hop), decide_eq_false (Nat.not_lt.2 hmode), cutBody_eq]
    simp
  refine (if_neg hform).trans (congrArg some ?_)
  change CutArm.mk (byteAt (cutBody c) 8) (BitVec.ofNat 32 (rd (cutBody c) 12 4)) (stampAt (cutBody c) 16) (byteAt (cutBody c) 9)
    (if byteAt (cutBody c) 10 == 1 then some (stampAt (cutBody c) 32) else none) = c
  rw [hopAt, hmodeAt, hsomeAt, hserialAt, hstopAt, hresumeAt, BitVec.ofNat_toNat, BitVec.setWidth_eq]

/-- Settles O60: each field is read at its offset. -/
theorem blocksReadBack : Obligations.BlocksReadBack := by
  unfold Obligations.BlocksReadBack
  exact ⟨fun _ => readParams_paramBlock, fun v rest hv => unleb128_leb128F_append rest 10 v (Nat.lt_of_lt_of_le hv (by decide)), fun _ => readCut_cutBody⟩

end Sys2Proof.Machine
end

section
/-! PROOFS. The codec is lossless (R335 to R338), and the obligation O49. -/
namespace Sys2Proof.Machine

/-! ### The header (Table CDC-1) -/

/-- The header of a block of `data`, as the decoder reads it. -/
def headFor (raw fresh : Bool) (target : Nat) (data : Bytes) : BlockHead :=
  { raw := raw, fresh := fresh, target := target, n := data.length, check := crc32c data, clear := true }

/-- The control byte holds the three fields and zeros below them. -/
theorem controlByte_fields (raw fresh : Bool) {target : Nat} (ht : target < 4) :
    let c := 128 * b2n raw + 64 * b2n fresh + 16 * target
    c < 256 ^ 1 ∧ bit c 7 = raw ∧ bit c 6 = fresh ∧ bits c 4 2 = target ∧ bits c 0 4 = 0 := by
  revert target
  cases raw <;> cases fresh <;> decide

theorem headOf_blockHead_append (raw fresh : Bool) {target : Nat} {data : Bytes} (ht : target < 4) (hpos : 1 ≤ data.length)
    (hle : data.length ≤ 4096) (rest : Bytes) : headOf (blockHead raw fresh target data ++ rest) = headFor raw fresh target data := by
  obtain ⟨hc, hraw, hfresh, htarget, hlow⟩ := controlByte_fields raw fresh ht
  have hn : data.length - 1 < 256 ^ 2 := by omega
  have hcheck : crc32c data < 256 ^ 4 := BitVec.isLt _
  have hcount : bits (data.length - 1) 0 12 + 1 = data.length := by
    rw [bits]
    omega
  have hhigh : bits (data.length - 1) 12 4 = 0 := by
    rw [bits]
    omega
  have hzero : rd (zeros 1 ++ (toLe 2 (data.length - 1) ++ (toLe 4 (crc32c data) ++ rest))) 0 1 = 0 := rfl
  simp only [headOf, headFor, byteAt_eq_rd, blockHead, List.append_assoc, rd_append_right, length_toLe, length_zeros, Nat.reduceLeDiff, Nat.reduceSub,
    rd_append_left, hc, hn, hcheck, hraw, hfresh, htarget, hlow, hcount, hhigh, hzero, Nat.le_refl, beq_self_eq_true, Bool.and_self]

/-! ### The decoder (R335) -/

/-- What the decoder of a stream makes of a payload. -/
def decodePayload (raw fresh : Bool) (pay : Bytes) (n : Nat) (history : Bytes) : Except Nat Bytes :=
  if raw then decodeRaw pay n else decodeCoded pay n (if fresh then [] else history)

/-- The bytes that follow a header. -/
def payloadSize (raw : Bool) (target : Nat) : Nat := if raw then 4096 else targetSize target

/-- A context that can take a block of `data` for `target`: its stream has not ended, has no other target, and has room (R335, R338). -/
def Takes (d : Ctx) (target : Nat) (data : Bytes) : Prop :=
  (d.target = 0 ∨ d.target = target) ∧ d.ended = false ∧ d.outBytes + data.length ≤ d.limit

/-- A whole block whose payload decodes to the bytes of its header is decoded. -/
theorem decodeBlock_of_payload {d : Ctx} {raw fresh : Bool} {target : Nat} {data pay rest : Bytes} (htarget : target = 1 ∨ target = 2)
    (hpos : 1 ≤ data.length) (hle : data.length ≤ 4096) (hinput : d.input = blockHead raw fresh target data ++ (pay ++ rest))
    (hpay : pay.length = payloadSize raw target) (htakes : Takes d target data) (hhist : fresh = false → d.hasHist = true)
    (hdecode : decodePayload raw fresh pay data.length d.history = .ok data) :
    decodeBlock d = .ok (headFor raw fresh target data, data) := by
  obtain ⟨hsame, hended, hroom⟩ := htakes
  have hhead : headOf d.input = headFor raw fresh target data := by
    rw [hinput]
    exact headOf_blockHead_append raw fresh (by omega) hpos hle _
  have hlength : d.input.length = 8 + (payloadSize raw target + rest.length) := by
    rw [hinput, List.length_append, length_blockHead, List.length_append, hpay]
  have hslice : slice d.input 8 (payloadSize raw target) = pay := by
    rw [hinput, slice_append_right (by simp), length_blockHead, ← hpay]
    exact List.take_left
  have hform : ¬ (!true || target == 0 || target == 3 || (d.blocks != 0 && d.target != 0 && target != d.target) || d.ended) = true := by
    obtain hzero | heq := hsame
    · rw [hzero, hended]
      obtain rfl | rfl := htarget <;> simp
    · rw [heq, hended]
      obtain rfl | rfl := htarget <;> simp
  have hlimit : ¬ (decide (d.outBytes + data.length > d.limit) || (d.exact && decide (d.outBytes ≥ d.limit))) = true := by
    rw [decide_eq_false (by omega), decide_eq_false (by omega), Bool.and_false]
    decide
  have hhistory : ¬ (!fresh && !d.hasHist) = true := by
    cases fresh with
    | true => exact Bool.false_ne_true
    | false => simp [hhist rfl]
  rw [decodeBlock]
  simp only [hhead]
  refine (if_neg (by omega)).trans ((if_neg hform).trans ((if_neg hlimit).trans ((if_neg hhistory).trans ((if_neg ?size).trans ?payload))))
  case size => exact Nat.not_lt.2 (hlength ▸ Nat.add_le_add_left (Nat.le_add_right ..) 8)
  case payload =>
    change (match decodePayload raw fresh (slice d.input 8 (payloadSize raw target)) data.length d.history with
      | .error e => Except.error e
      | .ok bytes => if crc32c bytes == crc32c data then .ok (headFor raw fresh target data, bytes) else .error cdCrc) = _
    rw [hslice, hdecode]
    exact if_pos (beq_self_eq_true _)

/-! ### Encoder and decoder -/

theorem length_fit (n : Nat) (bs : Bytes) : (fit n bs).length = n := by
  rw [fit, List.length_take, List.length_append, length_zeros]
  omega

/-- A block is sent coded only where the decoder gives its bytes back (R337). -/
theorem encodeBlock_cases (c : Ctx) (data : Bytes) (hle : data.length ≤ 4096) :
    ∃ raw pay, encodeBlock c data = (blockHead raw (!c.hasHist) c.target data ++ pay, !raw) ∧ pay.length = payloadSize raw c.target ∧
      decodePayload raw (!c.hasHist) pay data.length c.history = .ok data := by
  have hraw : decodePayload true (!c.hasHist) (fit 4096 data) data.length c.history = .ok data := by
    refine (congrArg (decodeRaw · data.length) (fit_of_length_le hle)).trans ?_
    rw [decodeRaw_append, if_pos (allZero_zeros _)]
  have hhistory : historyOf c = if (!c.hasHist) then [] else c.history := by
    cases h : c.hasHist <;> simp [historyOf, h]
  unfold encodeBlock
  extract_lets hist size tok fits
  cases hfits : fits with
  | false => exact ⟨true, fit 4096 data, rfl, length_fit .., hraw⟩
  | true =>
    refine ⟨false, fit size tok, rfl, length_fit .., ?_⟩
    have hback := (Bool.and_eq_true_iff.1 hfits).2
    change decodeCoded (fit size tok) data.length (if (!c.hasHist) then [] else c.history) = .ok data
    rw [← hhistory]
    split at hback
    next d hdecode => rw [hdecode, beq_iff_eq.1 hback]
    next => exact absurd hback Bool.false_ne_true

/-- Settles O49: the payload decodes to the block's bytes, whatever the compressor chose. -/
theorem codecIsLossless : Obligations.CodecIsLossless := by
  unfold Obligations.CodecIsLossless
  intro c d data rest htarget hpos hle hinput hhas hhistory hsame hended hroom
  obtain ⟨raw, pay, hblock, hpay, hdecode⟩ := encodeBlock_cases c data hle
  rw [hblock] at hinput ⊢
  have hhist : (!c.hasHist) = false → d.hasHist = true := fun h => by rw [hhas, ← Bool.not_eq_false', h]
  refine ⟨_, decodeBlock_of_payload htarget hpos hle (hinput.trans (List.append_assoc ..)) hpay ⟨hsame, hended, hroom⟩ hhist (hhistory ▸ hdecode),
    (Bool.not_not raw).symm, rfl, ?_⟩
  rw [List.length_append, length_blockHead, hpay]
  rfl

end Sys2Proof.Machine
end

section
/-! PROOFS. The frame engine: which frame begins next (O30) and the steps of a frame (O31). -/
namespace Sys2Proof.Machine

/-! ### Frames and ticks (R15, R19) -/

theorem anchor_le_frameAfter (p : FrameParams) (t : Nat) : p.anchor ≤ frameAfter p t := by
  unfold frameAfter
  split
  · exact Nat.le_refl _
  · exact Nat.le_add_right ..

theorem tickTime_mono (p : FrameParams) {m n : Nat} (h : m ≤ n) : tickTime p m ≤ tickTime p n :=
  Nat.add_le_add_left (Nat.mul_le_mul_right _ (Nat.sub_le_sub_right h _)) _

theorem periodUnits_pos {p : FrameParams} (hp : 0 < p.period) : 0 < periodUnits p :=
  Nat.mul_pos (Nat.mul_pos hp (by decide)) (Nat.two_pow_pos 32)

/-- A quotient rounded up reaches the number. -/
theorem le_ceil_mul (x : Nat) {p : Nat} (hp : 0 < p) : x ≤ (x + p - 1) / p * p := by
  have hdiv := Nat.div_add_mod' (x + p - 1) p
  have hmod := Nat.mod_lt (x + p - 1) hp
  omega

/-- What is below the quotient rounded up does not reach the number. -/
theorem mul_lt_of_lt_ceil {x p k : Nat} (hp : 0 < p) (hk : k < (x + p - 1) / p) : k * p < x := by
  have hnext : (k + 1) * p ≤ x + p - 1 := (Nat.le_div_iff_mul_le hp).1 hk
  rw [Nat.succ_mul] at hnext
  omega

/-- The frame after a time begins no earlier than that time. -/
theorem le_tickTime_frameAfter {p : FrameParams} (hp : 0 < p.period) (t : Nat) : t ≤ tickTime p (frameAfter p t) := by
  unfold frameAfter
  split
  next hle => exact Nat.le_trans hle (Nat.le_add_right ..)
  next =>
    rw [tickTime, Nat.add_sub_cancel_left]
    have hceil := le_ceil_mul (t - p.anchorNs * nsUnit) (periodUnits_pos hp)
    omega

/-- Every frame before it begins earlier than that time. -/
theorem tickTime_lt_of_lt_frameAfter {p : FrameParams} (hp : 0 < p.period) {t m : Nat} (hanchor : p.anchor ≤ m) (hm : m < frameAfter p t) :
    tickTime p m < t := by
  unfold frameAfter at hm
  split at hm
  next => exact absurd hm (Nat.not_lt.2 hanchor)
  next hle =>
    have hcount : m - p.anchor < (t - p.anchorNs * nsUnit + periodUnits p - 1) / periodUnits p := by omega
    have hbelow := mul_lt_of_lt_ceil (periodUnits_pos hp) hcount
    rw [tickTime]
    omega

/-- The earliest time at which the next frame may begin (R16, R19). -/
def nextFrom (s : State) : Nat := max (s.time.now - (cycleUnits s - 1)) (s.frame.endAt.getD 0)

theorem nextFrame_of_no_pending {s : State} (hpend : s.frame.pending = none) :
    nextFrame s = (let n := max ((s.frame.last.map (· + 1)).getD 0) (frameAfter s.frame.params (nextFrom s)); (n, tickTime s.frame.params n, false)) := by
  simp [nextFrame, hpend, nextFrom]

/-- Settles O30: the next frame is the first after both the last one begun and the earliest time allowed. -/
theorem nextFrameIsFirstTickAhead : Obligations.NextFrameIsFirstTickAhead := by
  unfold Obligations.NextFrameIsFirstTickAhead
  intro s hpend hp lo
  rw [nextFrame_of_no_pending hpend]
  refine ⟨rfl, fun l hl => ?_, Nat.le_trans (anchor_le_frameAfter ..) (Nat.le_max_right ..), ?_, fun m hm hanchor hlast => ?_⟩
  · rw [hl]
    exact Nat.lt_of_lt_of_le (Nat.lt_succ_self l) (Nat.le_max_left ..)
  · exact Nat.le_trans (le_tickTime_frameAfter hp lo) (tickTime_mono _ (Nat.le_max_right ..))
  · refine tickTime_lt_of_lt_frameAfter hp hanchor (Nat.lt_of_not_le fun hge => ?_)
    obtain hlow | hafter : m < (s.frame.last.map (· + 1)).getD 0 ∨ m < frameAfter s.frame.params (nextFrom s) := by omega
    · cases hl : s.frame.last with
      | none => simp [hl] at hlow
      | some l =>
        have hsucc : m < l + 1 := by simpa [hl] using hlow
        exact absurd (hlast l hl) (by omega)
    · exact absurd hafter (Nat.not_lt.2 hge)

/-! ### The steps of a frame (R15, R28) -/

theorem exec_tick_of_no_change {s : State} (hw : working s = true) (hrun : s.time.running = true) (hadopt : s.frame.adopt = none)
    (hpend : s.frame.pending = none) : exec .tick s =
      .next (beginFrame (nextFrame s.fresh).1 (nextFrame s.fresh).2.1 (probesAtTick (advanceTo (nextFrame s.fresh).2.1 s.fresh))) := by
  change execTick s = _
  simp [execTick, hw, hrun, hadopt, hpend]

/-- A counter as the snapshot's swap leaves it (R87). -/
def swapped (c : Ctr) : Ctr := { c with prev := c.newPrev, delta := c.newDelta, stale := c.newStale, rebased := c.newRebased, snapSat := c.newSat }

/-- With no reset of trackers pending, the swap writes the counters and the step alone. -/
theorem swapSnapshot_of_no_reset {s : State} (hpend : s.pend.all (·.opcode != 0x0902) = true) : swapSnapshot s =
    { s with win := { s.win with ctrs := s.win.ctrs.map fun p => (p.1, swapped p.2), snapFrame := some (curFrame s) }
             frame := { s.frame with step := .trackers, stepAt := s.pwr.cycles } } := by
  have hother : ∀ p ∈ s.pend, (p.opcode == 0x0902) = false := by simpa using hpend
  have hdue (k : Nat) : (s.pend.filter fun p => p.opcode == 0x0902 && decide (p.frame ≤ k)) = [] :=
    List.filter_eq_nil_iff.2 fun p hp => by simp [hother p hp]
  have hrest (k : Nat) : (s.pend.filter fun p => !(p.opcode == 0x0902 && decide (p.frame ≤ k))) = s.pend :=
    List.filter_eq_self.2 fun p hp => by simp [hother p hp]
  simp only [swapSnapshot, hdue, hrest, List.foldl_nil, swapped]

theorem exec_snapshotSwap_of_sampled {s : State} (hw : working s = true) (hstep : s.frame.step = .snapshot)
    (hports : s.win.ports.all (·.awaiting == 0) = true) :
    exec .snapshotSwap s = .next (updateTrackers (hangCount (swapSnapshot (advanceCycles (s.frame.stepAt + 1024) s.fresh)))) := by
  have hguard : ¬ (!working s.fresh || s.fresh.frame.step != .snapshot || s.fresh.win.ports.any (·.awaiting > 0)) = true := by
    simpa [hw, hstep] using hports
  exact if_neg hguard

theorem exec_entityEvaluated_of_next {k e : Nat} {s : State} (hlane : s.glen.lanes.getD k none = some e) (hw : working s = true)
    (hstep : s.frame.step = .evaluate) (hnext : nextLane k s.fresh = true)
    (htime : (advanceCycles (s.glen.laneEnds.getD k 0) s.fresh).time.now ≤ evalStop s.fresh) :
    let t := advanceCycles (s.glen.laneEnds.getD k 0) s.fresh
    let kind := (kindOf e s.fresh).getD 0
    let u := (evalEntity e kind t).foldl (fun s r => applyHead e kind r s) t
    exec (.entityEvaluated k) s = .next (assignLane k
      { u with glen := { u.glen with doneE := u.glen.doneE ++ [e], lanes := modifyAt k (fun _ => none) u.glen.lanes } }) := by
  intro t kind u
  have hguard : ¬ (!working s.fresh || s.fresh.frame.step != .evaluate || !nextLane k s.fresh) = true := by
    simp [hw, hstep, hnext]
  have hunfold : exec (.entityEvaluated k) s = match s.glen.lanes.getD k none with
      | none => .next s.fresh
      | some e => if !working s.fresh || s.fresh.frame.step != .evaluate || !nextLane k s.fresh then .next s.fresh else _ := rfl
  rw [hunfold, hlane]
  exact (if_neg hguard).trans (if_neg (Nat.not_lt.2 htime))

/-- Settles O31: one state premise per step decides its guard. -/
theorem frameEngineSteps : Obligations.FrameEngineSteps := by
  unfold Obligations.FrameEngineSteps
  refine ⟨fun s hw hrun hadopt hpend => exec_tick_of_no_change hw hrun hadopt hpend, fun s hw hstep hports hpend => ?swap, fun s hw hstep => ?trackers,
    fun k e s hlane hw hstep hnext htime => exec_entityEvaluated_of_next hlane hw hstep hnext htime, fun f s hfirst hw hstart hset hstep hspan => ?start,
    fun s hw hmode hstep hspan => ?recovery, fun s hw hhub hlast => ?mark, fun f t r s hw hcloses => ?close⟩
  case swap =>
    rw [exec_snapshotSwap_of_sampled hw hstep hports, swapSnapshot_of_no_reset (by simpa using hpend)]
    simp [swapped, curFrame]
  case trackers =>
    refine ⟨fun hcutoff => ?_, fun hcutoff => ?_⟩
    · change execTrackerUpdateEnd s = _
      simp [execTrackerUpdateEnd, hw, hstep, hcutoff]
    · change execTrackerUpdateEnd s = _
      simp [execTrackerUpdateEnd, hw, hstep, hcutoff]
  case start =>
    change execStartUpSpanElapsed s = _
    simp [execStartUpSpanElapsed, hfirst, hw, hstart, hset, hstep, hspan]
  case recovery =>
    change execRecoverySpanElapsed s = _
    simp [execRecoverySpanElapsed, hw, hmode, hstep, hspan]
  case mark =>
    change execReturnMark s = _
    simp [execReturnMark, hw, hhub, Option.isNone_eq_false_iff.2 hlast]
  case close =>
    change execReturnClose s = _
    simp [execReturnClose, hw, hcloses]

end Sys2Proof.Machine
end

section
/-! PROOFS. Supplies, reset and start-up: the obligations O25, O27 and O28. -/
namespace Sys2Proof.Machine

/-! ### Into reset (R466, R467) -/

/-- What a reset leaves of the recorder before the block's state goes: all but the entries that a clear zeroes and a torn write (R358, R360). -/
theorem recorderReset_keeps (s : State) : (recorderReset s).build = s.build ∧ (recorderReset s).sec = s.sec ∧ (recorderReset s).mem = s.mem ∧
    (recorderReset s).net = s.net ∧ (recorderReset s).evr.base = s.evr.base ∧ (recorderReset s).evr.head = s.evr.head ∧
    (s.evr.clearing = false → (recorderReset s).evr.slots = s.evr.slots) := by
  unfold recorderReset
  split
  next hclear => exact ⟨rfl, rfl, rfl, rfl, rfl, rfl, fun h => by simp [h] at hclear⟩
  next =>
    split
    · exact ⟨rfl, rfl, rfl, rfl, rfl, rfl, fun _ => rfl⟩
    · split
      · exact ⟨rfl, rfl, rfl, rfl, rfl, rfl, fun _ => rfl⟩
      · unfold tearWrite
        dsimp only
        generalize (if Config.freeNat s.free % 3 == 1 then _ else _ : Bytes) = torn
        split <;> exact ⟨rfl, rfl, rfl, rfl, rfl, rfl, fun _ => rfl⟩

/-- What survives a block reset, and what it leaves empty. -/
theorem blockReset_survivors (cause : Nat) (s : State) : let t := blockReset cause s
    t.pwr.phase = .inReset ∧ t.pwr.ready = false ∧ t.pwr.cause = cause ∧
      t.evr.base = s.evr.base ∧ t.evr.head = s.evr.head ∧ (s.evr.clearing = false → t.evr.slots = s.evr.slots) ∧ t.evr.queue = [] ∧
      t.sec.sessions = [] ∧ t.sec.generation = s.sec.generation ∧ t.sec.anchors = s.sec.anchors ∧ t.sec.minimum = s.sec.minimum ∧
      t.sec.slots = s.sec.slots ∧ t.asm = [] ∧ t.pend = [] ∧ t.glen.active = [] ∧ t.frame.last = none ∧ t.mem.repairs = s.mem.repairs ∧
      t.out = (List.range s.net.doors.length).map fun d => .laneEnable d false := by
  obtain ⟨hbuild, hsec, hmem, hnet, hbase, hhead, hslots⟩ := recorderReset_keeps s
  exact ⟨rfl, rfl, rfl, hbase, hhead, hslots, rfl, rfl, congrArg (·.generation) hsec, congrArg (·.anchors) hsec, congrArg (·.minimum) hsec,
    congrArg (·.slots) hsec, rfl, rfl, rfl, rfl, congrArg (·.repairs) hmem,
    congrArg (fun n : Net => (List.range n.doors.length).map fun d => Output.laneEnable d false) hnet⟩

/-- Settles O25: each of the three ways into a block reset ends in `blockReset`. -/
theorem blockResetKeepsOnlyWhatSurvives : Obligations.BlockResetKeepsOnlyWhatSurvives := by
  unfold Obligations.BlockResetKeepsOnlyWhatSurvives
  intro i cause s hreset
  obtain ⟨rfl, rfl, hon⟩ | ⟨rfl, rfl, hw⟩ | ⟨b, a, rfl, rfl, hout, hbank, hrec⟩ := hreset
  · exact ⟨_, exec_externalBlockReset_of_on hon, blockReset_survivors 1 _⟩
  · exact ⟨_, exec_watchdogExpiry_of_working hw, blockReset_survivors 2 _⟩
  · exact ⟨_, exec_sramUncorrectableError_of_not_recorderBank hout hbank hrec, blockReset_survivors 3 _⟩

/-- Settles O27: the premises decide each command's guard. -/
theorem suppliesAndSramErrors : Obligations.SuppliesAndSramErrors := by
  unfold Obligations.SuppliesAndSramErrors
  refine ⟨fun p h s hoff => ?valid, fun s hon => ?loss, fun b a s hout hbank hrec => ?sram⟩
  case valid =>
    have hguard : ¬ (s.pwr.phase != .off) = true := by simp [hoff]
    exact if_neg hguard
  case loss => exact ⟨_, exec_supplyLoss_of_on hon, rfl, rfl, rfl, rfl, rfl, rfl, rfl, rfl⟩
  case sram =>
    have hguard : ¬ (!outOfReset s || decide (b ≥ s.mem.banks.length)) = true := by simp [hout, hbank]
    exact (if_neg hguard).trans (if_pos hrec)

/-! ### Out of reset: the recorder and its first entries (R355, R358) -/

theorem evr_raiseOwn (cls sev op entity kind : Nat) (detail : Bytes) (s : State) : (raiseOwn cls sev op entity kind detail s).evr = s.evr :=
  (keep_raiseOwn (M := maskOf [.net, .err, .exp, .out]) rfl (Keep.refl s)).part .evr (by decide)

theorem pwr_raiseOwn (cls sev op entity kind : Nat) (detail : Bytes) (s : State) : (raiseOwn cls sev op entity kind detail s).pwr = s.pwr :=
  (keep_raiseOwn (M := maskOf [.net, .err, .exp, .out]) rfl (Keep.refl s)).part .pwr (by decide)

/-- An entry that waits leaves the recorder's bounds and entries as they are. -/
theorem enqueueEvr_keeps (e : EvrEntry) (s : State) : (enqueueEvr e s).pwr = s.pwr ∧ (enqueueEvr e s).evr.base = s.evr.base ∧
    (enqueueEvr e s).evr.head = s.evr.head ∧ (enqueueEvr e s).evr.slots = s.evr.slots ∧ (enqueueEvr e s).evr.pcc = s.evr.pcc ∧
    (evrFull s = false → (enqueueEvr e s).evr.refFull = s.evr.refFull) := by
  unfold enqueueEvr
  split
  next hfull => exact ⟨rfl, rfl, rfl, rfl, rfl, fun h => by simp [h] at hfull⟩
  next => split <;> exact ⟨rfl, rfl, rfl, rfl, rfl, fun _ => rfl⟩

/-- The entry that a reset cut short is whole and stands at the head, and there is room for it (R358). -/
def tornWhole (s : State) : Prop := evrFull s = false ∧ evrValid s.evr.torn = true ∧ rd s.evr.torn 0 8 = s.evr.head

theorem recoverTorn_of_not_whole {s : State} (h : ¬ tornWhole s) : recoverTorn s = s := by
  refine if_pos ?_
  rw [tornWhole] at h
  cases hfull : evrFull s <;> cases hvalid : evrValid s.evr.torn <;> simp_all

theorem recoverTorn_of_whole {s : State} (h : tornWhole s) : recoverTorn s =
    { s with evr := { s.evr with slots := s.evr.slots.take (s.evr.head - s.evr.base) ++ [s.evr.torn], torn := [], head := s.evr.head + 1 } } := by
  obtain ⟨hfull, hvalid, hhead⟩ := h
  exact if_neg (by simp [hfull, hvalid, hhead])

theorem pwr_recoverTorn (s : State) : (recoverTorn s).pwr = s.pwr := by
  unfold recoverTorn
  dsimp only
  split <;> rfl

/-- The first entries after a reset wait: the recorder holds what the torn entry's recovery leaves. -/
theorem resetEntries_recorder (n : Nat) (s : State) : let u := recoverTorn s
    (resetEntries n s).pwr = { s.pwr with sramError := none, watchdogFrame := none } ∧ (resetEntries n s).evr.base = u.evr.base ∧
    (resetEntries n s).evr.head = u.evr.head ∧ (resetEntries n s).evr.slots = u.evr.slots ∧ (resetEntries n s).evr.pcc = u.evr.pcc ∧
    (evrFull u = false → (resetEntries n s).evr.refFull = u.evr.refFull) := by
  intro u
  have hentry (payload : Bytes) : let v := ownEntry 0x0F10 0 0 payload u
      v.pwr = s.pwr ∧ v.evr.base = u.evr.base ∧ v.evr.head = u.evr.head ∧ v.evr.slots = u.evr.slots ∧ v.evr.pcc = u.evr.pcc ∧
      (evrFull u = false → v.evr.refFull = u.evr.refFull) := pwr_recoverTorn s ▸ enqueueEvr_keeps _ u
  unfold resetEntries
  dsimp only
  specialize hentry (toLe 1 u.pwr.cause ++ zeros 3 ++ toLe 8 (if u.pwr.cause == 0 then 0 else n))
  revert hentry
  generalize ownEntry 0x0F10 0 0 (toLe 1 u.pwr.cause ++ zeros 3 ++ toLe 8 (if u.pwr.cause == 0 then 0 else n)) u = v
  rintro ⟨hpwr, hentry⟩
  split <;> split <;> simpa only [evr_raiseOwn, pwr_raiseOwn, hpwr, true_and] using hentry

/-! ### The judgement (R355) -/

/-- The state that is judged: the block starts under the given configuration with global time running. -/
def started (env : StartEnv) (s : State) : State :=
  let u := { s with cfg := readCfg env.config, pwr := { s.pwr with phase := .starting, leftAt := 0 } }
  { u with time := { u.time with running := true, lock := if isPrimary u then 3 else 0
                                 servo := { u.time.servo with stability := if isRoot u then 10 else 50 } }, err := { u.err with fleet := bit u.cfg.flags 0 } }

/-- The state in which the first entries are made: without powered stacks the stored history and images are gone. -/
def judged (env : StartEnv) (s : State) : State :=
  let u := judgeReset env (started env s)
  if env.stacksPowered then u else
    { u with trc := { u.trc with stopped := false, history := [], histSize := 720 }, sht := { u.sht with images := [], area := 16 } }

theorem leaveReset_of_good {env : StartEnv} {s : State} (hcfg : cfgRefused env.config s.build.hub = false) :
    leaveReset env s = readPorts env (assignDoors env (resetEntries s.evr.head (judged env s))) :=
  if_neg (ne_true_of_eq_false hcfg)

/-- Warm means that the retention block is valid and the power-cycle counts agree. -/
def isWarm (s : State) : Bool := s.evr.valid && s.evr.pcc == s.pwr.pcycleIn

theorem judged_keeps (env : StartEnv) (s : State) : let u := judgeReset env (started env s)
    (judged env s).cfg = u.cfg ∧ (judged env s).pwr = u.pwr ∧ (judged env s).time = u.time ∧ (judged env s).evr = u.evr := by
  unfold judged
  cases env.stacksPowered <;> exact ⟨rfl, rfl, rfl, rfl⟩

theorem judgeReset_keeps (env : StartEnv) (s : State) :
    (judgeReset env s).cfg = s.cfg ∧ (judgeReset env s).pwr = { s.pwr with warm := isWarm s } ∧ (judgeReset env s).time = s.time := by
  unfold judgeReset
  dsimp only
  split <;> exact ⟨rfl, rfl, rfl⟩

/-- A warm start takes the recorder as it is. -/
theorem evr_judgeReset_of_warm {env : StartEnv} {s : State} (hwarm : isWarm s = true) : (judgeReset env s).evr = s.evr := by
  have hjudge : judgeReset env s = { s with pwr := { s.pwr with warm := isWarm s } } := if_pos hwarm
  rw [hjudge]

/-- The recorder of a cold start: empty, from the power-cycle count on. -/
def coldRecorder (s : State) : Recorder :=
  { valid := true, base := s.pwr.pcycleIn % 2 ^ 24 * 2 ^ 40 + 1, head := s.pwr.pcycleIn % 2 ^ 24 * 2 ^ 40 + 1, pcc := s.pwr.pcycleIn,
    hours := s.pwr.hoursIn }

theorem evr_judgeReset_of_cold {env : StartEnv} {s : State} (hcold : isWarm s = false) : (judgeReset env s).evr = coldRecorder s :=
  congrArg State.evr (if_neg (ne_true_of_eq_false hcold))

/-- Doors and port declarations leave the configuration, power, time and the recorder as they are. -/
theorem readPorts_assignDoors_keeps (env : StartEnv) (s : State) : let t := readPorts env (assignDoors env s)
    t.cfg = s.cfg ∧ t.pwr = s.pwr ∧ t.time = s.time ∧ t.evr = s.evr := by
  have hkeep : Keep (maskOf [.win, .net, .prb, .err, .exp, .trc, .wpt, .sht, .out]) s (readPorts env (assignDoors env s)) :=
    keep_readPorts rfl (keep_assignDoors rfl (Keep.refl s))
  exact ⟨hkeep.part .cfg (by decide), hkeep.part .pwr (by decide), hkeep.part .time (by decide), hkeep.part .evr (by decide)⟩

theorem resetEntries_keeps (n : Nat) (s : State) : (resetEntries n s).cfg = s.cfg ∧ (resetEntries n s).time = s.time := by
  have hkeep : Keep (maskOf [.pwr, .net, .err, .exp, .evr, .out]) s (resetEntries n s) := keep_resetEntries rfl (Keep.refl s)
  exact ⟨hkeep.part .cfg (by decide), hkeep.part .time (by decide)⟩

/-- The parts of the state out of reset that a start fixes; the recorder is what the first entries leave of the judged one. -/
theorem leaveReset_parts {env : StartEnv} {s : State} (hcfg : cfgRefused env.config s.build.hub = false) :
    let t := leaveReset env s
    t.cfg = readCfg env.config ∧ t.pwr.phase = .starting ∧ t.pwr.warm = isWarm s ∧ t.time.running = true ∧
      t.evr = (resetEntries s.evr.head (judged env s)).evr := by
  intro t
  obtain ⟨hcfgP, hpwrP, htimeP, hevrP⟩ := readPorts_assignDoors_keeps env (resetEntries s.evr.head (judged env s))
  obtain ⟨hcfgE, htimeE⟩ := resetEntries_keeps s.evr.head (judged env s)
  obtain ⟨hpwrE, -⟩ := resetEntries_recorder s.evr.head (judged env s)
  obtain ⟨hcfgJ, hpwrJ, htimeJ, -⟩ := judged_keeps env s
  obtain ⟨hcfgR, hpwrR, htimeR⟩ := judgeReset_keeps env (started env s)
  have hpwr : t.pwr = { (started env s).pwr with warm := isWarm s, sramError := none, watchdogFrame := none } := by
    rw [show t = _ from leaveReset_of_good hcfg, hpwrP, hpwrE, hpwrJ, hpwrR]
    rfl
  refine ⟨?_, by rw [hpwr]; rfl, by rw [hpwr], ?_, ?_⟩
  · rw [show t = _ from leaveReset_of_good hcfg, hcfgP, hcfgE, hcfgJ, hcfgR]
    rfl
  · rw [show t = _ from leaveReset_of_good hcfg, htimeP, htimeE, htimeJ, htimeR]
    rfl
  · rw [show t = _ from leaveReset_of_good hcfg, hevrP]

/-- The recorder that is judged, warm or cold. -/
theorem evr_judged (env : StartEnv) (s : State) : (judged env s).evr = if isWarm s then s.evr else coldRecorder s := by
  obtain ⟨-, -, -, hevr⟩ := judged_keeps env s
  rw [hevr]
  split
  next hwarm => exact evr_judgeReset_of_warm (s := started env s) hwarm
  next hcold => exact evr_judgeReset_of_cold (s := started env s) (eq_false_of_ne_true hcold)

/-- What a start makes of a recorder that it keeps (R358). -/
theorem leaveReset_recorder_of_warm {env : StartEnv} {s : State} (hcfg : cfgRefused env.config s.build.hub = false) (hwarm : isWarm s = true) :
    let t := leaveReset env s
    t.evr.base = s.evr.base ∧ (¬ tornWhole s → t.evr.head = s.evr.head ∧ t.evr.slots = s.evr.slots) ∧
      (tornWhole s → t.evr.head = s.evr.head + 1 ∧ t.evr.slots = s.evr.slots.take (s.evr.head - s.evr.base) ++ [s.evr.torn]) := by
  intro t
  obtain ⟨-, -, -, -, hevr⟩ := leaveReset_parts hcfg
  obtain ⟨-, hbase, hhead, hslots, -⟩ := resetEntries_recorder s.evr.head (judged env s)
  have hjudged : (judged env s).evr = s.evr := (evr_judged env s).trans (if_pos hwarm)
  have hsame : tornWhole (judged env s) ↔ tornWhole s := by
    unfold tornWhole evrFull
    rw [hjudged]
  rw [show t.evr = _ from hevr, hbase, hhead, hslots]
  by_cases htorn : tornWhole s
  · rw [recoverTorn_of_whole (hsame.2 htorn)]
    dsimp only
    rw [hjudged]
    exact ⟨rfl, fun h => absurd htorn h, fun _ => ⟨rfl, rfl⟩⟩
  · rw [recoverTorn_of_not_whole (mt hsame.1 htorn), hjudged]
    exact ⟨rfl, fun _ => ⟨rfl, rfl⟩, fun h => absurd h htorn⟩

/-- A recorder that begins anew holds no entry, and its first number is the power-cycle count's. -/
theorem leaveReset_recorder_of_cold {env : StartEnv} {s : State} (hcfg : cfgRefused env.config s.build.hub = false) (hcold : isWarm s = false) :
    let t := leaveReset env s
    t.evr.base = (coldRecorder s).base ∧ t.evr.head = (coldRecorder s).head ∧ t.evr.slots = [] ∧ t.evr.refFull = 0 ∧ t.evr.pcc = s.pwr.pcycleIn := by
  intro t
  obtain ⟨-, -, -, -, hevr⟩ := leaveReset_parts hcfg
  obtain ⟨-, hbase, hhead, hslots, hpcc, hfull⟩ := resetEntries_recorder s.evr.head (judged env s)
  have hjudged : (judged env s).evr = coldRecorder s := (evr_judged env s).trans (if_neg (ne_true_of_eq_false hcold))
  have htorn : ¬ tornWhole (judged env s) := by
    unfold tornWhole
    rw [hjudged]
    exact fun ⟨_, hvalid, _⟩ => Bool.false_ne_true hvalid
  have hroom : evrFull (judged env s) = false := by
    rw [evrFull, hjudged]
    exact decide_eq_false (by rw [coldRecorder, Nat.sub_self]; decide)
  rw [recoverTorn_of_not_whole htorn] at hbase hhead hslots hpcc hfull
  rw [show t.evr = _ from hevr, hbase, hhead, hslots, hpcc, hfull hroom, hjudged]
  exact ⟨rfl, rfl, rfl, rfl, rfl⟩

theorem exec_leaveReset_of_supplied {env : StartEnv} {s : State} (hreset : s.pwr.phase = .inReset) (hsupply : s.pwr.supplyOk = true)
    (hfault : s.pwr.cfgFault = false) : exec (.leaveReset env) s = .next (leaveReset env s.fresh) := by
  have hguard : ¬ (s.pwr.phase != .inReset || !s.pwr.supplyOk || s.pwr.cfgFault) = true := by simp [hreset, hsupply, hfault]
  exact if_neg hguard

/-- PC_READY rises, and training the doors leaves power as it is (R461). -/
theorem exec_ready_of_starting {s : State} (hphase : s.pwr.phase = .starting) :
    ∃ t, exec .ready s = .next t ∧ t.pwr = { s.pwr with phase := .working, ready := true, readyAt := s.time.now } := by
  have hguard : ¬ (s.pwr.phase != .starting) = true := by simp [hphase]
  refine ⟨_, if_neg hguard, ?_⟩
  have hkeep : Keep (maskOf [.hub, .net, .out]) _ _ := Keep.foldl
    (s := { s.fresh with pwr := { s.pwr with phase := .working, ready := true, readyAt := s.time.now } })
    (f := fun s d => trainIfFree d s) (List.range s.net.doors.length) (Keep.refl _) fun _ _ => keep_trainIfFree rfl
  exact hkeep.part .pwr (by decide)

theorem isWarm_iff {s : State} : isWarm s = true ↔ s.evr.valid = true ∧ s.evr.pcc = s.pwr.pcycleIn := by
  rw [isWarm, Bool.and_eq_true, beq_iff_eq]

theorem not_tornWhole_iff {s : State} : ¬ tornWhole s ↔ evrFull s = true ∨ evrValid s.evr.torn = false ∨ rd s.evr.torn 0 8 ≠ s.evr.head := by
  rw [tornWhole, Classical.not_and_iff_not_or_not, Classical.not_and_iff_not_or_not, Bool.not_eq_false, Bool.not_eq_true]

/-- Settles O28: what `judgeReset` makes of the recorder passes unchanged through the first entries, the doors and the ports. -/
theorem leavingResetJudgesWarmOrCold : Obligations.LeavingResetJudgesWarmOrCold := by
  unfold Obligations.LeavingResetJudgesWarmOrCold
  refine ⟨fun env s hreset hsupply hfault => ⟨fun hrefused => ?refused, fun hgood => ?good⟩, fun s hphase => ?ready⟩
  case refused =>
    have hleave : leaveReset env s.fresh = { s.fresh with pwr := { s.pwr with cfgFault := true } } := if_pos hrefused
    exact ⟨_, (exec_leaveReset_of_supplied hreset hsupply hfault).trans (congrArg _ hleave), hreset, rfl⟩
  case good =>
    obtain ⟨hcfg, hstarting, hwarm, hrunning, -⟩ := leaveReset_parts (env := env) (s := s.fresh) hgood
    refine ⟨_, exec_leaveReset_of_supplied hreset hsupply hfault, hstarting, hcfg, hrunning, ?_, fun h => ?_, fun h => ?_⟩
    · rw [hwarm]
      exact isWarm_iff
    · obtain ⟨hbase, hkept, hwhole⟩ := leaveReset_recorder_of_warm (env := env) (s := s.fresh) hgood (hwarm.symm.trans h)
      exact ⟨hbase, fun hnot => hkept (not_tornWhole_iff.2 hnot), fun hfull hvalid hhead => hwhole ⟨hfull, hvalid, hhead⟩⟩
    · exact leaveReset_recorder_of_cold (env := env) (s := s.fresh) hgood (hwarm.symm.trans h)
  case ready =>
    obtain ⟨t, ht, hpwr⟩ := exec_ready_of_starting hphase
    exact ⟨t, ht, by rw [hpwr], by rw [hpwr], by rw [hpwr]⟩

end Sys2Proof.Machine
end

section
/-! PROOFS. The boundary and firmware (O29), the time base (O34) and a root's source (O35). -/
namespace Sys2Proof.Machine

/-- A choice on the test of two numbers is a choice on their equality. -/
theorem ite_beq {α : Type} (a b : Nat) (x y : α) : (if (a == b) = true then x else y) = if a = b then x else y := by
  simp only [beq_iff_eq]

/-! ### The boundary (R416) -/

theorem exec_selfTestComplete_of_running {passed : Bool} {s : State} (hout : outOfReset s = true) (htest : s.sec.boundary = .selfTest) :
    exec (.selfTestComplete passed) s = .next (endTests passed s.fresh) := by
  have hguard : ¬ (!outOfReset s || s.sec.boundary != .selfTest) = true := by simp [hout, htest]
  exact congrArg _ (if_neg hguard)

theorem exec_entropyTestFailure_of_not_zeroised {s : State} (hout : outOfReset s = true) (hzero : s.sec.boundary ≠ .zeroised) :
    exec .entropyTestFailure s = .next (endTests false s.fresh) := by
  have hguard : ¬ (!outOfReset s || s.sec.boundary == .zeroised) = true := by simp [hout, hzero]
  exact congrArg _ (if_neg hguard)

/-! ### Firmware (R428 to R431) -/

theorem exec_firmwareBoot_of_idle {s : State} (hout : outOfReset s = true) (hidle : s.sec.active = none) :
    exec .firmwareBoot s = .next (bootRom s.fresh) := by
  have hguard : ¬ (!outOfReset s) = true := by simp [hout]
  have hactive : ¬ s.sec.active.isSome = true := by simp [hidle]
  exact (if_neg hguard).trans (if_neg hactive)

theorem slotGood_fresh (k : Nat) (s : State) : slotGood k s.fresh = slotGood k s := by
  simp [slotGood, checkFirmware, slotAt, verified, anchorAt]

theorem bootRom_of_cold {s : State} (hcold : (s.pwr.warm && (slotGood 0 s || slotGood 1 s)) = false) : bootRom s =
    if s.build.hub then
      (let img := s.mem.fw.hub.getD s.mem.fw.hubActive []
       if !storageUsable s || img.isEmpty then s
       else bootSlot 0 (putSlot 0 { readFirmware img with verified := (checkFirmware true img s).isNone } s))
    else if liveAt 0 s then requestBoot s else s :=
  if_neg (ne_true_of_eq_false hcold)

/-- A packet that finds the processor starting joins the queue (log entry 17). -/
theorem arrivePacket_of_busy (path : Path) (pkt : Bytes) {s : State} (hbusy : s.pwr.cycles < s.sec.coreFree) :
    arrivePacket path pkt s = joinQueue path pkt s := by
  have hcore : coreReady s = false := decide_eq_false (Nat.not_le.2 hbusy)
  have hserve : serveWaiting s = s := if_pos (by simp [hcore])
  rw [arrivePacket, hserve]
  exact if_neg (ne_true_of_eq_false hcore)

theorem loadTest_of_failed {k : Nat} {s : State} (himage : (slotAt k s).image ≠ []) (hfail : verified 1 (slotAt k s).image s = false)
    (hzero : s.sec.boundary ≠ .zeroised) : loadTest k s = setSec (fun x => { x with boundary := .error, selfTests := 2 }) s :=
  if_neg (by simp [himage, hfail, hzero])

theorem exec_bootRequestArrival_of_usable {d : Nat} {s : State} (htray : isTray s = true) (hcarries : carries d s = true)
    (hstorage : storageUsable s = true) (himage : s.mem.fw.die.getD s.mem.fw.dieActive [] ≠ []) :
    exec (.bootRequestArrival d (zeros 8)) s = .next
      (let (n, u) := nextSerial 12 s.fresh; sendBulk d 12 n (s.mem.fw.die.getD s.mem.fw.dieActive []) u) := by
  have hguard : ¬ (!isTray s || !carries d s) = true := by simp [htray, hcarries]
  have hready : ¬ (!storageUsable s || (s.mem.fw.die.getD s.mem.fw.dieActive []).isEmpty) = true := by
    rw [hstorage, List.isEmpty_eq_false_iff.2 himage]
    exact Bool.false_ne_true
  exact (if_neg hguard).trans ((if_neg (by simp)).trans (if_neg hready))

theorem exec_bootImageArrival_of_fetched {img : Bytes} {s : State} (hhub : s.build.hub = false) (hcarries : carries 0 s = true)
    (hfetch : s.sec.fetching = true) :
    let u := setSec (fun x => { x with fetching := false }) s.fresh
    firmwareBusy u = false → checkFirmware false img u = none → exec (.bootImageArrival img) s = .next (storeFirmware false img u) := by
  intro u hbusy hcheck
  have hguard : ¬ (s.build.hub || !carries 0 s) = true := by simp [hhub, hcarries]
  refine (if_neg hguard).trans ((if_pos hfetch).trans ((if_neg (ne_true_of_eq_false hbusy)).trans (congrArg _ ?_)))
  change (match checkFirmware false img u with
    | some _ => putSlot (stagingSlot u) {} u
    | none => storeFirmware false img u) = _
  rw [hcheck]

theorem exec_trialEnd_of_trial {k : Nat} {s : State} (hw : working s = true) (htrial : s.sec.trial = some 0) (hactive : s.sec.active = some k) :
    exec .trialEnd s =
      .next { s.fresh with sec := { s.sec with trial := none, minimum := max s.sec.minimum (slotAt k s).security } } := by
  change execTrialEnd s = _
  simp [execTrialEnd, hw, htrial, hactive, setSec, slotAt]

/-- Settles O29: the premises decide each command's guards. -/
theorem boundaryAndFirmwareEvents : Obligations.BoundaryAndFirmwareEvents := by
  unfold Obligations.BoundaryAndFirmwareEvents
  refine ⟨fun passed s hout htest => ?tests, fun s hout hzero => ?entropy, fun s hout hidle hcold hhub hlive => ?request, ?rom, ?load,
    fun s hout hactive => ?serve,
    fun path pkt s hbusy => arrivePacket_of_busy path pkt hbusy,
    fun d s htray hcarries hstorage himage => exec_bootRequestArrival_of_usable htray hcarries hstorage himage,
    fun img s hhub hcarries hfetch => exec_bootImageArrival_of_fetched hhub hcarries hfetch,
    fun k s hw htrial hactive => exec_trialEnd_of_trial hw htrial hactive⟩
  case tests => exact exec_selfTestComplete_of_running hout htest
  case entropy => exact exec_entropyTestFailure_of_not_zeroised hout hzero
  case request =>
    rw [exec_firmwareBoot_of_idle hout hidle, bootRom_of_cold (s := s.fresh) (by simpa only [slotGood_fresh, State.fresh_fields] using hcold)]
    simp [hhub, hlive]
  case rom =>
    intro s img hout hidle hcold hhub hstorage himage
    have hready : ¬ (!storageUsable s || img.isEmpty) = true := by
      rw [hstorage, List.isEmpty_eq_false_iff.2 himage]
      exact Bool.false_ne_true
    rw [exec_firmwareBoot_of_idle hout hidle, bootRom_of_cold (s := s.fresh) (by simpa only [slotGood_fresh, State.fresh_fields] using hcold)]
    exact congrArg _ ((if_pos hhub).trans (if_neg hready))
  case load =>
    intro k s himage hfail hzero
    rw [loadTest_of_failed himage hfail hzero]
    rfl
  case serve =>
    have hguard : ¬ (!outOfReset s) = true := by simp [hout]
    exact (if_neg hguard).trans (if_pos hactive)

/-! ### The time base (R58 to R65) -/

theorem source_advanceTo (t : Nat) (s : State) : (advanceTo t s).time.source = s.time.source := by
  unfold advanceTo advance
  split
  · split <;> rfl
  · rfl

theorem exec_exchangeInterval_of_parent {n d : Nat} {s : State} (hw : working (begin_ n s) = true) (hparent : isParentEnd d (begin_ n s) = true)
    (hlive : liveAt d (begin_ n s) = true) :
    let u := begin_ n s; let x := (doorAt d u).exch; let k := (x.num + 1) % 256
    exec (.exchangeInterval n d) s = .next
      (let v := setExch d (fun x => { x with num := k, t1 := none, t4 := none }) u
       sendMsg d (timeMsg (parentFlit k (match x.t1, x.t4 with | some a, some b => some (x.num, a, b) | _, _ => none) v)) v) := by
  have hguard : ¬ (!working (begin_ n s)) = true := by simp [hw]
  have hdoor : ¬ (!liveAt d (begin_ n s)) = true := by simp [hlive]
  exact (if_neg hguard).trans ((if_pos hparent).trans (if_neg hdoor))

theorem exec_filterPeriodEnd_of_working {s : State} (hw : working s = true) :
    exec .filterPeriodEnd s = .next (applySettings
      (let rate := if s.time.lock = 2 ∧ s.time.offsets = [] then ppmUnits s.time.freq else s.time.rate
       let m := medianOffset s.time.offsets
       let u := { s.fresh with time := { s.time with offsets := [], m := m.or s.time.m, ptp := { s.time.ptp with valid := 0 }, rate := rate } }
       match m with | some m => lockStep m (servoStep m u) | none => u)) := by
  have hguard : ¬ (!working s) = true := by simp [hw]
  have halone : (if s.time.lock = 2 ∧ s.time.offsets = [] then ppmUnits s.time.freq else s.time.rate) =
      if (s.time.lock == 2 && s.time.offsets.isEmpty) = true then ppmUnits s.time.freq else s.time.rate := by
    simp
  rw [halone]
  exact if_neg hguard

theorem exec_holdoverEntry_of_lost {s : State} (hw : working s = true) (hlock : s.time.lock = 1)
    (hlost : (onSource s = false ∧ allQuiet s = true) ∨ (onSource s = true ∧ s.time.source = 1)) : exec .holdoverEntry s = .next (setLock 2 s.fresh) := by
  have hquiet : (if onSource s then s.time.source == 1 else allQuiet s) = true := by
    obtain ⟨hsource, hquiet⟩ | ⟨hsource, hpps⟩ := hlost
    · simp [hsource, hquiet]
    · simp [hsource, hpps]
  have hguard : (working s && s.time.lock == 1 && if onSource s then s.time.source == 1 else allQuiet s) = true := by
    simp [hw, hlock, hquiet]
  exact congrArg _ (if_pos hguard)

/-- Settles O34: a lock that holds or is lost decides each command's guard. -/
theorem timeBaseEvents : Obligations.TimeBaseEvents := by
  unfold Obligations.TimeBaseEvents
  refine ⟨?exchange, fun n d p bad b s => rfl, fun s hw => exec_filterPeriodEnd_of_working hw,
    fun s hw hlock hlost => exec_holdoverEntry_of_lost hw hlock hlost, fun s hw hlock hroot hstable => ?limit,
    fun s hw hsecond hlock hown hquiet => ?own⟩
  case exchange =>
    intro n d s u x k hw hparent hlive
    exact exec_exchangeInterval_of_parent hw hparent hlive
  case limit =>
    have hguard : ¬ (!working s || s.time.lock != 2 || isRoot s || s.time.servo.stability == 0) = true := by simp [hw, hlock, hroot, hstable]
    exact if_neg hguard
  case own =>
    have hguard : ¬ (!working s || !isSecondary s || s.time.lock != 2 || s.time.ownSource || !allQuiet s) = true := by
      simp [hw, hsecond, hlock, hown, hquiet]
    refine (if_neg hguard).trans (congrArg _ ?_)
    simp only [State.fresh_fields, source_advanceTo, beq_iff_eq]

/-! ### A root's source (R56, R68, R69) -/

theorem source_guard {u : State} {k : Nat} (hw : working u = true) (hsource : onSource u = true) (hkind : u.time.source = k) :
    ¬ (!working u || !onSource u || u.time.source != k) = true := by
  simp [hw, hsource, hkind]

theorem exec_ptpMessage_of_announce {n : Nat} {m : PtpMsg} {s : State}
    (hguard : ¬ (!working (begin_ n s) || !onSource (begin_ n s) || (begin_ n s).time.source != 0) = true)
    (hheard : ptpHeard m (begin_ n s) = true) (hkind : m.kind = .announce) :
    exec (.ptpMessage n m) s = .next (ptpAnnounce m (chooseMaster (begin_ n s))) := by
  have hskip : ¬ (!ptpHeard m (begin_ n s)) = true := by simp [hheard]
  refine (if_neg hguard).trans ((if_neg hskip).trans (congrArg _ ?_))
  rw [hkind]

/-- Settles O35: `source_guard` holds at a root that is on its source. -/
theorem rootSourceEvents : Obligations.RootSourceEvents := by
  unfold Obligations.RootSourceEvents
  refine ⟨?ptp, ?delay, fun s hw hsource hkind hlock => ?loss, ?pulse⟩
  case ptp =>
    intro n m s u hw hsource hkind
    refine ⟨fun hother => ?_, fun hheard hannounce => exec_ptpMessage_of_announce (source_guard hw hsource hkind) hheard hannounce, ?_⟩
    · have hskip : (!ptpHeard m u) = true := by simp [hother]
      exact (if_neg (source_guard hw hsource hkind)).trans (if_pos hskip)
    · intro v hheard hsync hchosen
      have hskip : ¬ (!ptpHeard m u) = true := by simp [hheard]
      have hmaster : ¬ (!(v.time.ptp.chosen == some m.source)) = true := by simp [hchosen]
      refine (if_neg (source_guard hw hsource hkind)).trans ((if_neg hskip).trans (congrArg _ ?_))
      rw [hsync]
      exact if_neg hmaster
  case delay =>
    intro n s u hw hsource hkind q t
    exact if_neg (source_guard hw hsource hkind)
  case loss =>
    have hguard : (working s && onSource s && s.time.source == 0 && s.time.lock == 1) = true := by simp [hw, hsource, hkind, hlock]
    exact congrArg _ (if_pos hguard)
  case pulse =>
    intro n p tod s u t hw hsource hkind htod hlock
    have hoff (near : Bool) : ¬ (u.time.lock == 1 && !near) = true := by simp [hlock]
    refine (if_neg (source_guard hw hsource hkind)).trans ?_
    dsimp only
    rw [show (begin_ n s).time.tod = some tod from htod]
    exact if_neg (hoff _)

end Sys2Proof.Machine
end

section
/-! PROOFS. Contributions and summaries (O33), window ports (O37) and sensors (O38). -/
namespace Sys2Proof.Machine

/-! ### What a hub takes and sends (R31 to R36, R152, R157) -/

theorem exec_contributionArrival_of_carries {n d : Nat} {b : Bytes} {s : State} (hcarries : carriesDown d (begin_ n s) = true) :
    exec (.contributionArrival n d b) s = .next (arrive d (arrivedContribution b (begin_ n s)) b (begin_ n s)) :=
  congrArg _ (if_neg (by simp [hcarries]))

theorem exec_summaryArrival_of_carries {n d : Nat} {b : Bytes} {s : State} (hcarries : carriesDown d (begin_ n s) = true) :
    exec (.summaryArrival n d b) s = .next (arrive d (arrivedSummary b (begin_ n s)) b (begin_ n s)) :=
  congrArg _ (if_neg (by simp [hcarries]))

theorem exec_passItemApplied_of_begun {k : Nat} {x : Item} {s : State} (hitem : s.hub.items[k]? = some x) (hw : working s = true)
    (hbegun : x.stage = .begun) (hopen : s.hub.isClosed = false) : exec (.passItemApplied k) s = .next (rootTry (setItem k .applied s.fresh)) := by
  change execPassItemApplied k s = _
  simp [execPassItemApplied, hitem, hw, hbegun, hopen]

/-- The mark of a hub that is not a root closes its frame once (R32). -/
theorem mark_guard {s : State} (hw : working s = true) (hdie : isDie s = false) (hroot : isRoot s = false) (hlast : s.frame.last.isSome = true)
    (hframe : s.hub.frame = s.frame.last) {done : Bool} (hdone : done = false) :
    ¬ (!working s || isDie s || isRoot s || s.frame.last.isNone || s.hub.frame != s.frame.last || done) = true := by
  simp [hw, hdie, hroot, Option.isNone_eq_false_iff.2 hlast, hframe, hdone]

theorem exec_inputClose_of_open {s : State} (hw : working s = true) (hdie : isDie s = false) (hroot : isRoot s = false)
    (hlast : s.frame.last.isSome = true) (hframe : s.hub.frame = s.frame.last) (hopen : s.hub.isOpen = true) :
    let u := advanceTo (inputCloseAt s) s.fresh
    exec .inputClose s = .next { u with hub := { u.hub with isOpen := false } } := by
  intro u
  have hguard : ¬ (!working s || isDie s || s.frame.last.isNone || s.hub.frame != s.frame.last || !s.hub.isOpen) = true := by
    simp [hw, hdie, Option.isNone_eq_false_iff.2 hlast, hframe, hopen]
  have hother : ¬ isRoot { u with hub := { u.hub with isOpen := false } } = true := by
    have hrole : isRoot { u with hub := { u.hub with isOpen := false } } = isRoot s := by
      simp only [isRoot, role, unitId, u, advanceTo_fields, State.fresh_fields]
    simp [hrole, hroot]
  exact (if_neg hguard).trans (congrArg _ (if_neg hother))

/-- Forming and exporting a frame's summary leaves the frame engine as it is. -/
theorem frame_exportFrame_formSummary (s : State) : (exportFrame (formSummary s).2).frame = s.frame := by
  have hkeep : Keep (maskOf [.hub, .net, .err, .exp, .out]) s (exportFrame (formSummary s).2) := keep_exportFrame rfl (keep_formSummary rfl (Keep.refl s))
  exact hkeep.part .frame (by decide)

theorem exec_hubMark_of_fleet {s : State} (hw : working s = true) (hdie : isDie s = false) (hroot : isRoot s = false)
    (hlast : s.frame.last.isSome = true) (hframe : s.hub.frame = s.frame.last) (hclosed : s.hub.isClosed = false)
    (hfleet : s.frame.params.trayScope = false) :
    let p := formSummary (advanceTo (ownMarkAt s) s.fresh)
    let u := exportFrame p.2
    let v := keepSummary p.1.frame (summaryBytes { p.1 with seq := u.hub.seqs.getD 0 0 } []) u
    exec .hubMark s = .next (if sendsUp v then sendSummaries p.1 v else v) := by
  have hscope : ¬ (isTray (exportFrame (formSummary (advanceTo (ownMarkAt s) s.fresh)).2) &&
      (exportFrame (formSummary (advanceTo (ownMarkAt s) s.fresh)).2).frame.params.trayScope) = true := by
    simp [frame_exportFrame_formSummary, hfleet]
  change execHubMark s = _
  unfold execHubMark
  dsimp only
  rw [if_neg (mark_guard (s := s.fresh) (done := s.fresh.hub.isClosed) hw hdie hroot hlast hframe hclosed), ownMarkAt_fresh]
  exact if_neg hscope

theorem hub_exportFull (n : Nat) (full : Bytes) (s : State) : (exportFull n full s).hub = s.hub :=
  (keep_exportFull (M := maskOf [.net, .exp, .err, .out]) rfl (Keep.refl s)).part .hub (by decide)

theorem hub_sendDown (b : Bytes) (s : State) : (sendDown b s).hub = s.hub :=
  (keep_sendDown (M := maskOf [.net, .out]) rfl (Keep.refl s)).part .hub (by decide)

theorem hub_ite_sendDown (c : Prop) [Decidable c] (b : Bytes) (s : State) : (if c then sendDown b s else s).hub = s.hub := by
  split
  · exact hub_sendDown b s
  · rfl

/-- The root's mark comes once in a frame (R158). -/
theorem exec_rootMark_marks {s : State} (hw : working s = true) (hroot : isRoot s = true) (hlast : s.frame.last.isSome = true)
    (hframe : s.hub.frame = s.frame.last) (hmarked : s.hub.marked = false) : ∃ t, exec .rootMark s = .next t ∧ t.hub.marked = true := by
  have hguard : ¬ (!working s || !isRoot s || s.frame.last.isNone || s.hub.frame != s.frame.last || s.hub.marked) = true := by
    simp [hw, hroot, Option.isNone_eq_false_iff.2 hlast, hframe, hmarked]
  refine ⟨_, if_neg hguard, ?_⟩
  rw [hub_exportFull, hub_ite_sendDown]
  rfl

theorem exec_rootCheckArrival_of_peer {n d : Nat} {b : Bytes} {s : State} (hcarries : carries d (begin_ n s) = true) (hroot : isRoot (begin_ n s) = true)
    (hdir : (doorAt d (begin_ n s)).dir = 3) (hlen : b.length = 120) : let u := begin_ n s
    exec (.rootCheckArrival n d b) s = .next
      (if u.frame.last.isSome ∧ u.hub.frame = u.frame.last ∧ u.hub.marked = false ∧ inputCloseAt u ≤ u.time.now ∧ u.time.now ≤ ownMarkAt u then
        { u with hub := { u.hub with peerCheck := u.hub.peerCheck.or (some b) } }
      else { u with hub := { u.hub with discards := u.hub.discards + 1 } }) := by
  intro u
  have hguard : ¬ (!carries d u || !isRoot u || (doorAt d u).dir != 3) = true := by simp [u, hcarries, hroot, hdir]
  have hform : ¬ (b.length != 120) = true := by simp [hlen]
  have hin : (u.frame.last.isSome && u.hub.frame == u.frame.last && !u.hub.marked && decide (inputCloseAt u ≤ u.time.now) &&
      decide (u.time.now ≤ ownMarkAt u)) = true ↔
      (u.frame.last.isSome ∧ u.hub.frame = u.frame.last ∧ u.hub.marked = false ∧ inputCloseAt u ≤ u.time.now ∧ u.time.now ≤ ownMarkAt u) := by
    simp [and_assoc]
  refine (if_neg hguard).trans ((if_neg hform).trans ?_)
  rw [apply_ite Host.Outcome.next]
  exact ite_congr (propext hin) (fun _ => rfl) fun _ => rfl

theorem exec_returnedSummaryArrival_of_first {n d close : Nat} {b : Bytes} {s : State} (hcarries : carries d (begin_ n s) = true)
    (hhub : (begin_ n s).build.hub = false) (hok : returnedOk b = true) :
    let v := receiveParams (summaryParams b).1 (summaryParams b).2 (begin_ n s)
    tfind (rd b 8 8) v.frame.closes = some close → v.frame.gotReturned ≠ some (rd b 8 8) →
    exec (.returnedSummaryArrival n d false b) s = .next
      (if close < v.time.now then { v with frame := { v.frame with lateReturned := v.frame.lateReturned + 1 } }
       else { v with frame := keepReturned (rd b 8 8) b { v.frame with gotReturned := some (rd b 8 8) } }) := by
  have hguard : ¬ (!carries d (begin_ n s)) = true := by simp [hcarries]
  have hform : ¬ (!returnedOk b) = true := by simp [hok]
  have hdie : exec (.returnedSummaryArrival n d false b) s = .next (dieReturned d false b (begin_ n s)) :=
    congrArg _ ((if_neg hguard).trans (if_neg (ne_true_of_eq_false hhub)))
  rw [hdie, dieReturned, if_neg Bool.false_ne_true, if_neg hform]
  generalize summaryParams b = p
  obtain ⟨cur, pend⟩ := p
  intro v hclose hfirst
  have hnew : ¬ (v.frame.gotReturned == some (rd b 8 8)) = true := by simp [hfirst]
  simp only [show tfind (rd b 8 8) (receiveParams cur pend (begin_ n s)).frame.closes = some close from hclose]
  exact congrArg _ (ite_congr rfl (fun _ => rfl) fun _ => if_neg hnew)

/-- Settles O33: each command by the lemma on its own arm. -/
theorem summariesAreCollectedAndReturned : Obligations.SummariesAreCollectedAndReturned := by
  unfold Obligations.SummariesAreCollectedAndReturned
  refine ⟨?arrivals, fun k s hw hbegin => ?begins, fun k x s hitem hw hbegun hopen => exec_passItemApplied_of_begun hitem hw hbegun hopen,
    fun s hw hdie hroot hlast hframe hopen => exec_inputClose_of_open hw hdie hroot hlast hframe hopen,
    fun s hw hdie hroot hlast hframe hclosed hfleet => exec_hubMark_of_fleet hw hdie hroot hlast hframe hclosed hfleet,
    fun s hw hroot hlast hframe hmarked => exec_rootMark_marks hw hroot hlast hframe hmarked, ?check, ?parameters, fun s hw hlast => ?select, ?returned⟩
  case arrivals =>
    intro n d b s u hcarries
    exact ⟨exec_contributionArrival_of_carries hcarries, exec_summaryArrival_of_carries hcarries⟩
  case begins =>
    have hguard : (working s && mayBegin k s.fresh) = true := by simp [hw, hbegin]
    exact congrArg _ (if_pos hguard)
  case check =>
    intro n d b s u hcarries hroot hdir hlen
    exact exec_rootCheckArrival_of_peer hcarries hroot hdir hlen
  case parameters =>
    intro n d b s u hcarries hsecond hdir hlen
    have hguard : ¬ (!carries d u || !isSecondary u || (doorAt d u).dir != 3) = true := by simp [hcarries, hsecond, hdir]
    exact (if_neg hguard).trans (if_neg (by simp [hlen]))
  case select =>
    refine ⟨fun hpod => ?_, fun htray => ?_⟩
    · have hguard : (working s && isPod s && s.frame.last.isSome) = true := by simp [hw, hpod, hlast]
      exact congrArg _ (if_pos hguard)
    · have hguard : (working s && isTray s && s.frame.last.isSome) = true := by simp [hw, htray, hlast]
      exact congrArg _ (if_pos hguard)
  case returned =>
    intro n d b close s u p v hcarries hhub hok hclose hfirst
    exact exec_returnedSummaryArrival_of_first hcarries hhub hok hclose hfirst

/-! ### Window ports (R75, R86, R87, R94, R95) -/

theorem sample_guard {p : Nat} {s : State} (hlive : portLive p s = true) (hwaits : (portAt p s).awaiting ≠ 0) (htimely : (portAt p s).late = false) :
    ¬ (!portLive p s || (portAt p s).awaiting == 0 || (portAt p s).late) = true := by
  simp [hlive, hwaits, htimely]

/-- An event of a class that its port takes is queued with what it saw at its edge (R94). -/
theorem exec_windowEvent_of_taken {n p c : Nat} {e : WinEvent} {s : State} (hlive : portLive p (begin_ n s) = true) (hclass : eventClass e.code = some c)
    (hmask : bit (portAt p (begin_ n s)).mask c = true) (herror : c = 3 → errorEventOk e.code e.payload = true) :
    exec (.windowEvent n p e) s = .next (queueEvent (captured p e c (begin_ n s)) c (begin_ n s)) := by
  have hguard : ¬ (!portLive p (begin_ n s)) = true := by simp [hlive]
  have hform : ¬ (!bit (portAt p (begin_ n s)).mask c || (c == 3 && !errorEventOk e.code e.payload)) = true := by
    simpa [hmask] using herror
  refine (if_neg hguard).trans ?_
  rw [hclass]
  exact if_neg hform

theorem exec_windowEvent_of_unknown {n p : Nat} {e : WinEvent} {s : State} (hlive : portLive p (begin_ n s) = true) (hclass : eventClass e.code = none) :
    exec (.windowEvent n p e) s = .next (setPort p (fun q => { q with malformed := q.malformed + 1 }) (begin_ n s)) := by
  have hguard : ¬ (!portLive p (begin_ n s)) = true := by simp [hlive]
  refine (if_neg hguard).trans ?_
  rw [hclass]

/-- Where 32 events wait at its port, an event is lost, and the first such keeps its stamp (R95). -/
theorem queueEvent_of_full {q : QEvent} {s : State} (c : Nat) (hfull : 32 ≤ (portAt q.port s).queue.length) : queueEvent q c s =
    setPort q.port (fun x => { x with lost := x.lost + 1, firstLost := if x.lost = 0 then q.stamp else x.firstLost }) s := by
  simp only [← ite_beq]
  exact if_pos hfull

theorem exec_eventService_of_queue {p : Nat} {q : QEvent} {rest : List QEvent} {s : State} (hnext : nextPort s.fresh = some p)
    (hqueue : (portAt p s).queue = q :: rest) (hlost : (portAt p s).lost = 0) :
    let u := setPort p (fun x => { x with queue := rest, lost := 0, firstLost := 0 }) (advance 1 s.fresh)
    exec .eventService s = .next (applyEvent q { u with win := { u.win with lastServed := p } }) := by
  have hport : portAt p (advance 1 s.fresh) = portAt p s := by simp [portAt]
  change execEventService s = _
  simp [execEventService, hnext, servePort, hport, hqueue, hlost]

theorem time_addCtr (i n : Nat) (s : State) : (addCtr i n s).time = s.time :=
  (keep_addCtr (M := maskOf [.win, .evr]) rfl (Keep.refl s)).part .time (by decide)

theorem exec_stretchEpisodeEnd_of_short {n p k : Nat} {s : State} (hlive : portLive p (begin_ n s) = true) (hregion : (portAt p (begin_ n s)).region ≤ 127)
    (hshort : k ≤ (begin_ n s).time.servo.stretch * 100) : let g := (portAt p (begin_ n s)).region
    exec (.stretchEpisodeEnd n p k) s = .next (addCtr (ctrStretchCycles g) k (addCtr (ctrStretchEpisodes g) 1 (begin_ n s))) := by
  intro g
  have hguard : ¬ (!portLive p (begin_ n s) || decide ((portAt p (begin_ n s)).region > 127)) = true := by simp [hlive, hregion]
  refine (if_neg hguard).trans (congrArg _ (if_neg ?_))
  rw [time_addCtr, time_addCtr]
  exact Nat.not_lt.2 hshort

/-- Settles O37: each port event by the lemma on its own arm. -/
theorem windowPortEvents : Obligations.WindowPortEvents := by
  unfold Obligations.WindowPortEvents
  refine ⟨fun p v s hlive hmore htimely => ?waits, fun p v s hlive hlast htimely => ?completes, fun p s hlive hwaits => ?late, fun p ws s hlive => ?words,
    ?event, fun n p e s hlive hclass => exec_windowEvent_of_unknown hlive hclass,
    fun p q rest s hnext hqueue hlost => exec_eventService_of_queue hnext hqueue hlost, ?stretch⟩
  case waits =>
    have hone : ¬ ((portAt p s).awaiting == 1) = true := by simp [Nat.ne_of_gt hmore]
    exact (if_neg (sample_guard hlive (Nat.ne_of_gt (Nat.lt_of_succ_lt hmore)) htimely)).trans (congrArg _ (if_neg hone))
  case completes =>
    have hone : ((portAt p s).awaiting == 1) = true := by simp [hlast]
    exact (if_neg (sample_guard hlive (by simp [hlast]) htimely)).trans (congrArg _ (if_pos hone))
  case late =>
    have hguard : ¬ (!portLive p s || (portAt p s).awaiting == 0) = true := by simp [hlive, Nat.ne_of_gt hwaits]
    exact if_neg hguard
  case words => exact congrArg _ (if_pos hlive)
  case event =>
    intro n p c e s u hlive hclass hmask herror q
    exact ⟨exec_windowEvent_of_taken hlive hclass hmask herror, rfl, rfl, rfl, rfl, rfl, fun hfull => queueEvent_of_full (q := q) c hfull⟩
  case stretch =>
    intro n p k s u g hlive hregion hshort
    exact ⟨_, exec_stretchEpisodeEnd_of_short hlive hregion hshort, rfl⟩

/-! ### Sensors (R102, R234, R449) -/

theorem sensorAnswer_of_first {c code : Nat} {r : List Nat} {s : State} (hfirst : s.win.requests = c :: r) : sensorAnswer c code s =
    ({ s with win := { s.win with requests := r, chans := modifyAt c (convert s.pwr.cycles code) s.win.chans } }, true) := by
  simp [sensorAnswer, hfirst]

/-- The ended runs of the tiles whose temperature channel is `c` settle (R234). -/
def settleRuns (c : Nat) (s : State) : State :=
  (List.range 40).foldl (fun s t => if tileChan t 0 48 s == some c then settleRun t (tileTemp t s) s else s) s

theorem exec_sensorAnswer_of_first {c code : Nat} {r : List Nat} {s : State} (hfirst : s.win.requests = c :: r) : let u :=
      { s.fresh with win := { s.win with requests := r, chans := modifyAt c (convert s.pwr.cycles code) s.win.chans } }
    exec (.sensorAnswer c code) s = .next (if c < 48 then settleRuns c u else u) := by
  intro u
  change execSensorAnswer c code s = _
  rw [execSensorAnswer, sensorAnswer_of_first (s := s.fresh) hfirst]
  by_cases hc : c < 48
  · rw [if_pos hc]
    exact if_neg (by simp [hc])
  · rw [if_neg hc]
    exact if_pos (by simpa using hc)

theorem settleRun_of_no_end {t : Nat} {temp : Option Int} {s : State} (h : (tileAt t s).ended = none) : settleRun t temp s = s := by
  rw [settleRun, h]

/-- Where no tile's run has ended, none settles. -/
theorem settleRuns_of_no_end {s : State} (h : ∀ t, (s.prb.tiles.getD t {}).ended = none) (c : Nat) : settleRuns c s = s := by
  have hstep (t : Nat) : (if tileChan t 0 48 s == some c then settleRun t (tileTemp t s) s else s) = s := by
    rw [settleRun_of_no_end (h t), ite_self]
  unfold settleRuns
  induction List.range 40 with
  | nil => rfl
  | cons t ts ih => rw [List.foldl_cons, hstep, ih]

/-- Settles O38: an answer is the sensor's part, `sensorAnswer_of_first`, and then the runs that settle. -/
theorem sensorRequestsAndAnswers : Obligations.SensorRequestsAndAnswers := by
  unfold Obligations.SensorRequestsAndAnswers
  refine ⟨fun c s hw hroom hchan => ?asks, fun c s hfull => ?waits, fun c code r s hfirst hquiet => ?plain, fun c code r s hfirst hc => ?settles,
    fun c s hmem => ?gives⟩
  case asks =>
    have hguard : ¬ (!working s || decide (s.win.requests.length ≥ 8) || decide (c ≥ 80)) = true := by simp [hw, hroom, hchan]
    exact if_neg hguard
  case waits =>
    have hguard : (!working s || decide (s.win.requests.length ≥ 8) || decide (c ≥ 80)) = true := by simp [hfull]
    exact if_pos hguard
  case plain =>
    refine (exec_sensorAnswer_of_first hfirst).trans (congrArg _ ?_)
    obtain hhigh | hnone := hquiet
    · exact if_neg (Nat.not_lt.2 hhigh)
    · have htiles : ∀ t, (s.prb.tiles.getD t {}).ended = none := hnone
      have hsame := settleRuns_of_no_end
        (s := { s.fresh with win := { s.win with requests := r, chans := modifyAt c (convert s.pwr.cycles code) s.win.chans } }) htiles c
      rw [hsame, ite_self]
      rfl
  case settles => exact (exec_sensorAnswer_of_first hfirst).trans (congrArg _ (if_pos hc))
  case gives =>
    have hguard : ¬ (!s.win.requests.contains c) = true := by simpa using hmem
    exact if_neg hguard

end Sys2Proof.Machine
end

section
/-! PROOFS. Doors (O39), messages and datagrams (O40) and the execution of packets (O41). -/
namespace Sys2Proof.Machine

/-! ### Doors (R139 to R150) -/

/-- What an update of one element leaves in every element, the list shows everywhere. -/
theorem getD_modifyAt_of_invariant {α β : Type} {f : α → α} {g : α → β} (hg : ∀ x, g (f x) = g x) (i j : Nat) (l : List α) (d : α) :
    g ((modifyAt i f l).getD j d) = g (l.getD j d) := by
  induction l generalizing i j with
  | nil => simp only [modifyAt]
  | cons a r ih =>
    cases i with
    | zero =>
      cases j with
      | zero => exact hg a
      | succ j => rfl
    | succ i =>
      cases j with
      | zero => rfl
      | succ j => exact ih i j

/-- A door's counters do not decide whether it carries. -/
theorem carries_setDoor {f : Door → Door} (hf : ∀ x, live (f x) = live x) (d e : Nat) (s : State) : carries d (setDoor e f s) = carries d s :=
  congrArg (working s && ·) (getD_modifyAt_of_invariant hf e d s.net.doors {})

theorem exec_laneRetire_of_worn {d l n : Nat} {s : State} (hcarries : carries (laneEnd d l s.fresh) s = true)
    (hused : laneUsed (laneEnd d l s.fresh) l s.fresh = true) (hn : 16 < n) : let e := laneEnd d l s.fresh
    let u := retireLane e l n (setDoor e (fun x => { x with syncErrors := modifyAt (l % 2) (· + n) x.syncErrors }) s.fresh)
    exec (.laneRetire d l n) s = .next
      (if (doorAt e u).mode == 0 && (doorAt e u).state == .up then setDoor e (fun x => { x with state := .degraded }) u else retrain e u) := by
  intro e u
  have hworking : working s = true := (Bool.and_eq_true_iff.1 hcarries).1
  have hguard : ¬ (!working s || !laneUsed (laneEnd d l s.fresh) l s.fresh) = true := by simp only [hworking, hused]; decide
  have hkept : carries e (setDoor e (fun x => { x with syncErrors := modifyAt (l % 2) (· + n) x.syncErrors }) s.fresh) = true :=
    (carries_setDoor (f := fun x => { x with syncErrors := modifyAt (l % 2) (· + n) x.syncErrors }) (fun _ => rfl) e e s.fresh).trans hcarries
  have hfailed : ¬ (!carries e (setDoor e (fun x => { x with syncErrors := modifyAt (l % 2) (· + n) x.syncErrors }) s.fresh) || decide (n ≤ 16)) = true := by
    rw [hkept, decide_eq_false (Nat.not_le.2 hn)]
    decide
  exact (if_neg hguard).trans (if_neg hfailed)

/-- Settles O39: a retirement turns on the mode that `retireLane` leaves. -/
theorem doorEvents : Obligations.DoorEvents := by
  unfold Obligations.DoorEvents
  refine ⟨?flits, fun d s hcarries => ?replays, ?lock, ?retire, fun d s hw htraining => ?trains, fun d s hw hquarantine => ?ends⟩
  case flits =>
    intro n d b s u hw hd
    have hguard : ¬ (!working u || decide (d ≥ u.net.doors.length)) = true := by simp [hw, hd]
    exact ⟨congrArg _ (if_neg hguard), if_neg hguard⟩
  case replays => exact if_neg (by simp [hcarries])
  case lock =>
    intro d l s e hcarries hused
    have hguard : ¬ (!carries e s || !laneUsed e l s.fresh) = true := by simp only [hcarries, hused]; decide
    exact if_neg hguard
  case retire =>
    intro d l n s e hcarries hused hn u
    refine ⟨fun hmode hup => ?_, fun hmode => ?_⟩
    · exact (exec_laneRetire_of_worn hcarries hused hn).trans (congrArg _ (if_pos (by rw [hmode, hup]; decide)))
    · refine (exec_laneRetire_of_worn hcarries hused hn).trans (congrArg _ (if_neg ?_))
      rw [beq_eq_false_iff_ne.2 hmode, Bool.false_and]
      exact Bool.false_ne_true
  case trains =>
    change execTrainingAttemptTimeout d s = _
    simp [execTrainingAttemptTimeout, hw, htraining]
  case ends =>
    have hguard : ¬ (!working s || !(doorAt d s).quarantined) = true := by simp [hw, hquarantine]
    exact if_neg hguard

/-! ### Messages and datagrams (R167, R386, R387, R454) -/

theorem exec_replyMessageArrival_of_formed {d : Nat} {t : Word} {b : Bytes} {s : State} (hcarries : carries d s = true) (hhub : s.build.hub = true)
    (hlen : 32 ≤ b.length) (hunit : bit (rd b 28 4) 31 = true ∨ reservedSlot (slotOf (bits (rd b 28 4) 0 18)) = false) :
    exec (.replyMessageArrival d t b) s = .next
      (if bits t.toNat 0 16 == hubAddr s then returnByTag (rd b 4 4) (b.drop 8) s.fresh
       else forwardMsg { kind := 2, type := 0x21, flags := 1, target := t, body := b } s.fresh) := by
  have hguard : ¬ (!carries d s) = true := by simp [hcarries]
  have hform : ¬ (decide (b.length < 32) || (!bit (rd b 28 4) 31 && reservedSlot (slotOf (bits (rd b 28 4) 0 18))) || !s.build.hub) = true := by
    rw [decide_eq_false (Nat.not_lt.2 hlen), hhub]
    obtain hbit | hslot := hunit
    · rw [hbit]
      simp
    · rw [hslot]
      simp
  exact (if_neg hguard).trans (congrArg _ (if_neg hform))

/-- Settles O40: each message and datagram passes its guard. -/
theorem messagesAndDatagrams : Obligations.MessagesAndDatagrams := by
  unfold Obligations.MessagesAndDatagrams
  refine ⟨?commands, fun d t b s hcarries hhub hlen hunit => ?replies, fun h r s hheld => ?holds, fun k t s htag => ?tags, ?datagrams,
    fun src k x s hreasm => ?fragments, fun s hw hhub => ?icmp⟩
  case commands =>
    intro n d f t b s u hcarries
    have hguard : ¬ (!carries d u) = true := by simp [hcarries]
    refine ⟨fun hplain => ?_, fun c hcut hread => ?_⟩
    · exact (if_neg hguard).trans (if_neg (ne_true_of_eq_false hplain))
    · refine (if_neg hguard).trans ((if_pos hcut).trans ?_)
      rw [hread]
  case replies =>
    refine ⟨fun hself => ?_, fun hother => ?_⟩
    · exact (exec_replyMessageArrival_of_formed hcarries hhub hlen hunit).trans (congrArg _ (if_pos (by simp [hself])))
    · exact (exec_replyMessageArrival_of_formed hcarries hhub hlen hunit).trans (congrArg _ (if_neg (by simp [hother])))
  case holds =>
    change execCommandHoldTimeout s = _
    simp [execCommandHoldTimeout, hheld]
  case tags =>
    change execReturnTagExpiry k s = _
    simp [execReturnTagExpiry, htag]
  case datagrams =>
    intro n src f p s u hw hhub
    have hguard : ¬ (!working u || !u.build.hub) = true := by simp only [hw, hhub]; decide
    exact ⟨if_neg hguard, if_neg hguard⟩
  case fragments =>
    change execFragmentReassemblyTimeout src k s = _
    simp [execFragmentReassemblyTimeout, hreasm, discardDatagram]
  case icmp =>
    have hguard : ¬ (!working s || !s.build.hub) = true := by simp only [hw, hhub]; decide
    exact ⟨fun _ _ => if_neg hguard, fun _ => (if_neg hguard).trans (congrArg _ (if_pos (beq_self_eq_true _))), fun _ _ => if_neg hguard, if_neg hguard⟩

/-! ### Packets with a session's trailer (R383) -/

/-- A whole packet of a session that is open and has not expired is refused with AUTH_FAIL or takes its place in the session's sequence. -/
theorem takePacket_of_session {path : Path} {pkt : Bytes} {s : State} {x : Session} (hlength : pkt.length = 32 + rd pkt 12 4)
    (hwords : rd pkt 12 4 % 4 = 0) (hmax : rd pkt 12 4 ≤ 2016) (hversion : byteAt pkt 0 = 1 ∨ byteAt pkt 0 = 2) (htest : s.sec.boundary ≠ .selfTest)
    (herror : s.sec.boundary ≠ .error) (hsid : rd pkt 4 2 ≠ 0) (hsession : sessionOf (rd pkt 4 2) s = some x) (htime : s.time.now ≤ x.notAfter) :
    let len := rd pkt 12 4; let body := slice pkt 16 len; let trailer := slice pkt (16 + len) 16
    let r : Request := { after := 0, path := path, session := rd pkt 4 2, version := byteAt pkt 0, seq := rd pkt 8 4, body := readTlvs len body }
    takePacket path pkt s = if trailerOf x.key (targetBlock s) (pkt.take 16) body != trailer then answerEarly 4 stAuth path pkt s
      else takeSequence x trailer (rd pkt 2 2) r pkt s := by
  intro len body trailer r
  have hframed : ¬ (!wellFramed pkt) = true := by simp [wellFramed, hlength, hwords, hmax]
  have hknown : ¬ (!knownVersion pkt) = true := by
    rw [knownVersion, Bool.or_eq_true_iff.2 (hversion.imp beq_iff_eq.2 beq_iff_eq.2)]
    decide
  have hnoTest : ¬ (s.sec.boundary == .selfTest) = true := by simp [htest]
  have hnoError : ¬ (s.sec.boundary == .error) = true := by simp [herror]
  have hnumbered : ¬ (rd pkt 4 2 == 0) = true := by simp [hsid]
  refine (if_neg hframed).trans ((if_neg hknown).trans ((if_neg hnoTest).trans ((if_neg hnoError).trans ((if_neg hnumbered).trans ?_))))
  rw [hsession]
  exact if_neg (Nat.not_lt.2 htime)

/-- Settles O41: a signed packet is `takeSequence`, which splits on H and the cache. -/
theorem packetsAreExecutedOnce : Obligations.PacketsAreExecutedOnce := by
  unfold Obligations.PacketsAreExecutedOnce
  intro path pkt s x len body trailer r hlength hwords hmax hversion htest herror hsid hsession htime own
  have htake := takePacket_of_session (path := path) hlength hwords hmax hversion htest herror hsid hsession htime
  have hsigned (h : own = trailer) : takePacket path pkt s = takeSequence x trailer (rd pkt 2 2) r pkt s := htake.trans (if_neg (by simpa using h))
  refine ⟨fun hother => htake.trans (if_pos (by simpa using hother)), fun hown hnew => ?_, fun hown hold c hcached hsame => ?_, fun hown hold hfresh => ?_⟩
  · exact (hsigned hown).trans (if_pos hnew)
  · refine (hsigned hown).trans ((if_neg (Nat.not_lt.2 hold)).trans ?_)
    rw [hcached]
    exact if_pos (by simpa using hsame)
  · refine (hsigned hown).trans ((if_neg (Nat.not_lt.2 hold)).trans ?_)
    cases hcached : x.cache.find? (·.seq == r.seq) with
    | none => rfl
    | some c => exact if_neg (by simpa using hfresh c hcached)

end Sys2Proof.Machine
end

section
/-! PROOFS. Error records and storage ports (O42), trace (O43) and watchpoints (O44). -/
namespace Sys2Proof.Machine

/-! ### Error records (R259 to R263) -/

theorem exec_errorRecordMessage_of_hub {d : Nat} {b : Bytes} {s : State} (hcarries : carries d s = true) (hhub : s.build.hub = true)
    (hpos : 0 < rd b 4 2) (hmax : rd b 4 2 ≤ 16) (hlen : b.length = 16 + 64 * rd b 4 2) (hform : unitFormOk (rd b 0 4) = true)
    (hunit : bit (rd b 0 4) 31 = true) (hexports : (s.err.fleet && !isRoot s) = false) :
    let u := rd b 0 4; let r := reporterAt u s.fresh
    let t := putReporter u { r with expected := some (r.expected.getD (rd b 8 8 + 1)), release := rd b 8 8 } s.fresh
    exec (.errorRecordMessage d b) s = .next
      (if storeUsable t then takeEntries u (records 64 (b.drop 16)) t else { t with err := { t.err with owed := dedup (t.err.owed ++ [u]) } }) := by
  have hguard : ¬ (!carries d s || !s.build.hub) = true := by simp [hcarries, hhub]
  have hgood : ¬ (rd b 4 2 == 0 || decide (rd b 4 2 > 16) || b.length != 16 + 64 * rd b 4 2 || !unitFormOk (rd b 0 4) ||
      (!bit (rd b 0 4) 31 && reservedSlot (slotOf (bits (rd b 0 4) 0 18)))) = true := by
    simp [Nat.ne_of_gt hpos, hmax, hlen, hform, hunit]
  exact (if_neg hguard).trans ((if_neg hgood).trans (if_neg (ne_true_of_eq_false hexports)))

theorem exec_errorEntrySend_of_due {d : Nat} {u s : State} (hw : working s = true) (hfleet : s.err.fleet = true) (hhub : s.build.hub = false)
    (hdoor : recordDoor s.fresh = (some d, u)) (htail : u.err.tailDue = false) (hdue : (ringEntries u).filter (u.err.sent < ·.1) ≠ []) :
    let due := (ringEntries u).filter (u.err.sent < ·.1)
    exec .errorEntrySend s = .next (sendMsg d
      { kind := 2, type := 0x22, body := toLe 4 (unitId u) ++ toLe 2 (due.take 16).length ++ toLe 2 (b2n u.err.resend) ++ toLe 8 u.err.release ++
                                         (due.take 16).flatMap (·.2) }
      { u with err := { u.err with sent := (due.take 16).foldl (fun m p => max m p.1) u.err.sent, resend := false, tailDue := false } }) := by
  intro due
  have hguard : ¬ (!working s.fresh || !s.fresh.err.fleet || s.fresh.build.hub) = true := by simp [hw, hfleet, hhub]
  have hbatch : ¬ (due.take 16).isEmpty = true := by
    rw [List.isEmpty_iff, List.take_eq_nil_iff]
    exact fun h => h.elim (by decide) hdue
  change execErrorEntrySend s = _
  unfold execErrorEntrySend
  dsimp only
  rw [if_neg hguard, hdoor]
  simp only [htail, Bool.false_eq_true, if_false, List.append_nil, Bool.false_and]
  exact if_neg hbatch

/-- Settles O42: each record event passes its guard. -/
theorem errorAndStoreEvents : Obligations.ErrorAndStoreEvents := by
  unfold Obligations.ErrorAndStoreEvents
  refine ⟨?entries, fun d b s hcarries hlen hunit => ?ack, fun d u s hw hfleet hhub hdoor => ?send, fun s hw htray hlast hend => ?period,
    fun k s hw husable => ?store, fun k a st s hhub hw => ?completion, fun b row s hout hbank => ?scrub⟩
  case entries =>
    intro d b s u n hcarries hhub hpos hmax hlen hform hunit hexports
    exact exec_errorRecordMessage_of_hub hcarries hhub hpos hmax hlen hform hunit hexports
  case ack =>
    have hown : (rd b 0 4 == unitId s || s.build.hub) = true := by simp [hunit]
    exact (if_neg (by simp [hcarries])).trans ((if_neg (by simp [hlen])).trans (congrArg _ (if_pos hown)))
  case send =>
    intro due htail hdue
    exact exec_errorEntrySend_of_due hw hfleet hhub hdoor htail hdue
  case period =>
    have hguard : ¬ (!working s || !isTray s || s.frame.last.isNone) = true := by simp [hw, htray, Option.isNone_eq_false_iff.2 hlast]
    have hlastFrame : (if (curFrame s + 1) % s.exp.period == 0 then curFrame s else curFrame s / s.exp.period * s.exp.period - 1) = curFrame s :=
      if_pos (by simp [hend])
    change execExportPeriodEnd s = _
    unfold execExportPeriodEnd
    simp only [working_fresh, isTray_fresh, curFrame_fresh, State.fresh_fields, hlastFrame]
    exact if_neg hguard
  case store =>
    have hworks : ¬ (!working s) = true := by simp [hw]
    have hfell : (storeUsable s && !false) = true := by simp [husable]
    exact (if_neg hworks).trans (if_pos hfell)
  case completion =>
    have hguard : ¬ (!s.build.hub || !working s) = true := by simp [hhub, hw]
    exact if_neg hguard
  case scrub =>
    have hguard : ¬ (!outOfReset s || s.mem.banks.getD b 3 != 0 || !true) = true := by simp only [hout, hbank]; decide
    exact ⟨fun hother => (if_neg hguard).trans (congrArg _ (if_neg (ne_true_of_eq_false hother))),
      fun hcore => (if_neg hguard).trans (congrArg _ (if_pos hcore))⟩

/-! ### What the encoder leaves of the trace settings -/

@[simp] theorem set_setSrc (i : Nat) (f : Source → Source) (s : State) : (setSrc i f s).trc.set = s.trc.set := rfl

@[simp] theorem set_losePacket (i : Nat) (s : State) : (losePacket i s).trc.set = s.trc.set := by
  unfold losePacket
  dsimp only
  split <;> rfl

@[simp] theorem set_closeChunk (i : Nat) (s : State) : (closeChunk i s).trc.set = s.trc.set := by
  unfold closeChunk
  split
  · rfl
  · dsimp only
    split <;> rfl

theorem set_of_takeChunk {i : Nat} {s t : State} (h : takeChunk i s = some t) : t.trc.set = s.trc.set := by
  unfold takeChunk at h
  dsimp only at h
  split at h
  · split at h
    · rw [← Option.some.inj h]
    · split at h
      · cases h
      · rw [← Option.some.inj h]
  · split at h
    · rw [← Option.some.inj h]
    · cases h

@[simp] theorem set_putPacket (i : Nat) (b : Bytes) (s : State) : (putPacket i b s).trc.set = s.trc.set := by
  unfold putPacket
  extract_lets x fits
  split
  · exact set_losePacket i s
  · split
    · rfl
    · split
      next t ht => exact (set_of_takeChunk ht).trans (set_closeChunk i s)
      next => exact (set_losePacket ..).trans ((set_setSrc ..).trans (set_closeChunk i s))

@[simp] theorem set_countPacket (i : Nat) (b : Bytes) (s : State) : (countPacket i b s).trc.set = s.trc.set := by
  simp [countPacket]

@[simp] theorem set_edgeCyc (i : Nat) (s : State) : (edgeCyc i s).trc.set = s.trc.set := by
  unfold edgeCyc
  split <;> rfl

@[simp] theorem set_writeSync (i reason : Nat) (a : Word) (s : State) : (writeSync i reason a s).trc.set = s.trc.set := by
  simp [writeSync]

@[simp] theorem set_ensureSync (i : Nat) (s : State) : (ensureSync i s).trc.set = s.trc.set := by
  unfold ensureSync
  dsimp only
  split
  · split
    · rfl
    · exact set_writeSync ..
  · rfl

@[simp] theorem set_writeTime (i : Nat) (s : State) : (writeTime i s).trc.set = s.trc.set := by
  unfold writeTime
  split <;> simp

@[simp] theorem set_closeRun (i : Nat) (s : State) : (closeRun i s).trc.set = s.trc.set := by
  unfold closeRun
  dsimp only
  split
  · rfl
  · simp

@[simp] theorem set_endRun (i : Nat) (s : State) : (endRun i s).trc.set = s.trc.set := by
  unfold endRun checkTime
  split
  · rfl
  · split <;> simp

/-- Closing every source's run and chunk leaves the trace settings as they are. -/
theorem set_closeAll (s : State) : (closeAll s).trc.set = s.trc.set := by
  unfold closeAll
  generalize allSources = sources
  induction sources generalizing s with
  | nil => rfl
  | cons i sources ih =>
    rw [List.foldl_cons, ih]
    split <;> simp

/-! ### Trace (R274 to R296) -/

theorem trace_guard {d : Nat} {s : State} (hcarries : carries d s = true) (htray : isTray s = true) : ¬ (!carries d s || !isTray s) = true := by
  simp only [hcarries, htray]
  decide

/-- The stop instant ends recording: a die unit closes its chunks and stops where it records locally, a hub stops (R291). -/
theorem exec_stopInstant_stops {t : Nat} {s : State} (hw : working s = true) (hstop : s.trc.stopAt = some t) :
    ∃ u, exec .stopInstant s = .next u ∧ u.trc.stopAt = none ∧ u.trc.stopped = (s.build.hub || s.trc.set.mode == trcLocal) := by
  have hset (v : State) : (if v.build.hub then v else closeAll v).trc.set = v.trc.set := by
    split
    · rfl
    · exact set_closeAll v
  have hbuild (v : State) : (if v.build.hub then v else closeAll v).build = v.build := by
    split
    · rfl
    · exact (keep_closeAll (M := maskOf [.hub, .trc, .free]) rfl (Keep.refl v)).build
  have hexec : exec .stopInstant s = .next (let v := advanceTo t s.fresh; let w := if v.build.hub then v else closeAll v
      { w with trc := { w.trc with stopAt := none, stopped := w.build.hub || w.trc.set.mode == trcLocal } }) := by
    change execStopInstant s = _
    simp [execStopInstant, hstop, hw]
  refine ⟨_, hexec, rfl, ?_⟩
  dsimp only
  rw [hset, hbuild]
  simp only [advanceTo_fields, State.fresh_fields]

/-- Settles O43: each trace event passes its guard, and the stop instant keeps the settings. -/
theorem traceEvents : Obligations.TraceEvents := by
  unfold Obligations.TraceEvents
  refine ⟨fun k c as s hw hencodes => ?bundles, fun k l c s hw => ?low, fun k c a s hw => ?wake, fun k c s hw hencodes hsynced => ?interval,
    fun k c s hw hchunk => ?flush, fun s hhub hcarries => ?sends, ?messages, ?notices, fun t s hw hstop => exec_stopInstant_stops hw hstop,
    fun t r s hw hat => ?tray, fun d b s hcarries hhub => ?readouts⟩
  case bundles => exact if_neg (by simp [hw, hencodes])
  case low => exact if_neg (by simp [hw])
  case wake => exact if_neg (by simp [hw])
  case interval =>
    have hguard : ¬ (!working s || !encodes k s || !(srcAt k s).synced) = true := by simp only [hw, encodes_fresh k s ▸ hencodes, hsynced]; decide
    intro u
    refine ⟨fun hboundary => ?_, fun hquiet hrun => ?_⟩
    · have hbound : ((srcAt k s).quiet || (srcAt k s).runN == 0) = true := by simpa using hboundary
      exact (if_neg hguard).trans (congrArg _ (if_pos hbound))
    · have hbound : ¬ ((srcAt k s).quiet || (srcAt k s).runN == 0) = true := by simp [hquiet, hrun]
      exact (if_neg hguard).trans (congrArg _ (if_neg hbound))
  case flush =>
    change execChunkFlushTime k s = _
    simp [execChunkFlushTime, hw, hchunk]
  case sends =>
    have hguard : ¬ (s.build.hub || !carries 0 s) = true := by simp [hhub, hcarries]
    refine ⟨fun n r hnotices => ?_, fun c k hnone hmode hbest => ?_⟩
    · refine (if_neg hguard).trans ?_
      rw [show s.fresh.trc.notices = n :: r from hnotices]
      rfl
    · have hstream : ¬ (s.trc.set.mode != trcStream) = true := by simp [hmode]
      refine (if_neg hguard).trans ?_
      rw [show s.fresh.trc.notices = [] from hnone]
      refine (if_neg hstream).trans ?_
      rw [show bestBy _ s.fresh.trc.queue.zipIdx = some (c, k) from hbest]
      rfl
  case messages =>
    intro n d b s u hcarries htray hmin hmax hsource hprio hdie
    have hform : ¬ (decide (b.length < 8) || decide (b.length > 1024) || decide (byteAt b 0 > 63) || decide (byteAt b 1 > 3) ||
        bits (rd b 4 4) 18 14 != 0) = true := by
      simp [hmin, hmax, hsource, hprio, hdie]
    refine (if_neg (trace_guard hcarries htray)).trans ((if_neg hform).trans ?_)
    exact (apply_ite Host.Outcome.next (u.trc.stopped = true) _ _).symm
  case notices =>
    intro n d b s u hcarries htray hlen hsource htrigger
    have hform : ¬ (b.length != 40 || byteAt b 0 != 0xFF || decide (byteAt b 8 > 3)) = true := by simp [hlen, hsource, htrigger]
    exact (if_neg (trace_guard hcarries htray)).trans (if_neg hform)
  case tray =>
    change execTrayTriggerAtTime s = _
    simp [execTrayTriggerAtTime, hw, hat]
  case readouts => exact if_neg (by simp [hcarries, hhub])

/-! ### Watchpoints (R297 to R302) -/

/-- Settles O44: each access passes its guard. -/
theorem watchpointEvents : Obligations.WatchpointEvents := by
  unfold Obligations.WatchpointEvents
  refine ⟨?access, fun bus k data heads s hw hfound hheads => ?data, fun k f s hauth hexpired => ?expiry⟩
  case access =>
    intro n a s u ws hw hhub hbus p
    have hguard : ¬ (!working u || u.build.hub || busKind a.bus u == 0) = true := by simp [hw, hhub, hbus]
    exact if_neg hguard
  case data =>
    have hworks : ¬ (!working s) = true := by simp [hw]
    refine (if_neg hworks).trans ?_
    rw [show findIdx (fun (p : Nat × List (Bytes × Bool)) => p.1 == bus) s.fresh.wpt.waiting = some k from hfound]
    dsimp only
    rw [show (s.fresh.wpt.waiting[k]?).map (·.2) = some heads from hheads]
    rfl
  case expiry =>
    change execCaptureExpiry s = _
    simp [execCaptureExpiry, hauth, Nat.not_lt.2 hexpired]

end Sys2Proof.Machine
end

section
/-! PROOFS. Probes (O45) and pushed packs (O46). -/
namespace Sys2Proof.Machine

/-! ### A tile's probe (R224 to R226, R237 to R243, R246) -/

theorem exec_probeSchedulerPass_of_open {ts : List TileSignal} {s : State} (hw : working s = true) (hhub : s.build.hub = false)
    (hwindow : s.prb.window = true) :
    let t := markAt s.frame.params.ret s + s.prb.pass * 1000 * nsUnit
    let u := setPrb (fun x => { x with pass := x.pass + 1 }) (advanceTo t s.fresh)
    t ≤ windowClose s.fresh → s.prb.set.on = true → s.prb.active.isSome = true → s.sht.hung = false → probePause u = false →
    exec (.probeSchedulerPass ts) s =
      .next (((List.range 40).map fun k => (s.prb.cursor + k) % 40).foldl (fun s x => examine x (ts.getD x ⟨false, 0, 0⟩) s) u) := by
  intro t u htime hon hactive hhung hpause
  have hguard : ¬ (!working s || s.build.hub || !s.prb.window) = true := by simp [hw, hhub, hwindow]
  have hprb : u.prb = { s.prb with pass := s.prb.pass + 1 } := by simp [u]
  have hsht : u.sht = s.sht := by simp [u]
  have hcursor : u.prb.cursor = s.prb.cursor := by rw [hprb]
  have hruns : ¬ (!u.prb.set.on || u.prb.active.isNone || u.sht.hung || probePause u) = true := by
    rw [hpause, hprb, hsht]
    simp [hon, Option.isNone_eq_false_iff.2 hactive, hhung]
  refine (if_neg hguard).trans ((if_neg (Nat.not_lt.2 htime)).trans ((if_neg hruns).trans ?_))
  exact congrArg (fun c => Host.Outcome.next (((List.range 40).map fun k => (c + k) % 40).foldl (fun s x => examine x (ts.getD x ⟨false, 0, 0⟩) s) u)) hcursor

/-- The state in which DONE or the abort finds the tile's probe: the request is dropped at the run's end. -/
def runEnded (x : Nat) (t : Nat) (s : State) : State := State.emit (.probeDrop x) (advanceTo t s.fresh)

/-- DONE ends a run by its status, and an aborted one in a time-out (R237). -/
theorem exec_probeDone_of_run {x : Nat} {p : ProbeResult} {run : Run} {s : State} (hw : working s = true) (hstatus : p.status ≤ 2)
    (hrun : (tileAt x s).run = some run) : let u := runEnded x (run.startedAt + p.cycles * cycleUnits s) s
    exec (.probeDone x p) s =
      if run.aborted then .next (completeRun x run 2 false p u)
      else if p.status == 2 then
        .next (let v := setTile x (fun y => { y with run := none, yields := y.yields + 1 }) u; if run.queued then answerOrder x 1 none v else v)
      else if p.status == 1 then .next (completeRun x run 3 false p u)
      else .next (completeRun x run (b2n (p.signature != (probeAt run.probe u).expected)) false p u) := by
  intro u
  have hguard : ¬ (!working s.fresh || decide (p.status > 2)) = true := by simp [hw, hstatus]
  change execProbeDone x p s = _
  unfold execProbeDone
  dsimp only
  rw [show (tileAt x s.fresh).run = some run from hrun]
  exact if_neg hguard

theorem exec_probeDurationExpiry_of_run {x : Nat} {run : Run} {s : State} (hw : working s = true) (hrun : (tileAt x s).run = some run)
    (haborted : run.aborted = false) : exec (.probeDurationExpiry x) s =
      .next (State.emit (.probeAbort x) (setTile x (fun y => { y with run := some { run with aborted := true } }) (advanceTo (runLimit run s.fresh) s.fresh))) := by
  have hguard : ¬ (!working s.fresh || run.aborted) = true := by simp [hw, haborted]
  change execProbeDurationExpiry x s = _
  unfold execProbeDurationExpiry
  dsimp only
  rw [show (tileAt x s.fresh).run = some run from hrun]
  exact if_neg hguard

theorem exec_probeAbortTimeout_of_run {x : Nat} {run : Run} {s : State} (hw : working s = true) (hrun : (tileAt x s).run = some run)
    (haborted : run.aborted = true) : let w := hungResult run (runEnded x (runLimit run s.fresh + 4000 * nsUnit) s)
    exec (.probeAbortTimeout x) s = .next (completeRun x run 2 true w.1 (setTile x (fun y => { y with hung := true }) w.2)) := by
  intro w
  have hguard : ¬ (!working s.fresh || !run.aborted) = true := by simp [hw, haborted]
  change execProbeAbortTimeout x s = _
  unfold execProbeAbortTimeout
  dsimp only
  rw [show (tileAt x s.fresh).run = some run from hrun]
  exact if_neg hguard

theorem frame_countDropped (b : Bytes) (s : State) : (countDropped b s).frame = s.frame :=
  (keep_countDropped (M := maskOf [.prb]) rfl (Keep.refl s)).part .frame (by decide)

theorem frame_foldl_countDropped (bs : List Bytes) (s : State) : (bs.foldl (fun s b => countDropped b s) s).frame = s.frame := by
  induction bs generalizing s with
  | nil => rfl
  | cons b bs ih => rw [List.foldl_cons, ih, frame_countDropped]

/-- A passing record stays 64 frames (R246). -/
theorem exec_passingRecordDrop_keeps {s : State} (hw : working s = true) : ∃ t, exec .passingRecordDrop s = .next t ∧
    t.frame.carryProbes = s.frame.carryProbes.filter fun b => probeFailed b || curFrame s < rd b 8 8 + 64 := by
  refine ⟨_, if_neg (by simp [hw]), ?_⟩
  rw [frame_foldl_countDropped]
  refine congrArg (List.filter · s.frame.carryProbes) (funext fun b => ?_)
  change (!(!probeFailed b && decide (rd b 8 8 + 64 ≤ curFrame s))) = _
  rw [Bool.not_and, Bool.not_not, ← decide_not]
  exact congrArg (probeFailed b || ·) (decide_eq_decide.2 Nat.not_le)

/-- Settles O45: DONE splits on the run's abort and its status. -/
theorem probeEvents : Obligations.ProbeEvents := by
  unfold Obligations.ProbeEvents
  refine ⟨fun ts s hw hhub hwindow => exec_probeSchedulerPass_of_open hw hhub hwindow, ?runs, fun x q s hretest hw hruns hlimit => ?retest,
    fun x s hw hhub hfirst hstarved => ?starved, fun s hw => exec_passingRecordDrop_keeps hw, fun x o s horder hw hlate => ?order⟩
  case runs =>
    intro x p run s hw hstatus hrun u
    have hdone := exec_probeDone_of_run hw hstatus hrun
    refine ⟨fun ha => hdone.trans (if_pos ha), fun ha h0 hsig => ?_, fun ha h0 hsig => ?_, fun ha h1 => ?_, fun ha h2 hqueued => ?_,
      fun ha => exec_probeDurationExpiry_of_run hw hrun ha, fun ha => exec_probeAbortTimeout_of_run hw hrun ha⟩
    · have hpass : (p.signature != (probeAt run.probe u).expected) = false := by simp [hsig]
      refine hdone.trans ((if_neg (ne_true_of_eq_false ha)).trans ((if_neg (by simp [h0])).trans ((if_neg (by simp [h0])).trans ?_)))
      exact congrArg (fun b => Host.Outcome.next (completeRun x run (b2n b) false p u)) hpass
    · have hfail : (p.signature != (probeAt run.probe u).expected) = true := by simpa using hsig
      refine hdone.trans ((if_neg (ne_true_of_eq_false ha)).trans ((if_neg (by simp [h0])).trans ((if_neg (by simp [h0])).trans ?_)))
      exact congrArg (fun b => Host.Outcome.next (completeRun x run (b2n b) false p u)) hfail
    · exact hdone.trans ((if_neg (ne_true_of_eq_false ha)).trans ((if_neg (by simp [h1])).trans (if_pos (by simp [h1]))))
    · exact hdone.trans ((if_neg (ne_true_of_eq_false ha)).trans ((if_pos (by simp [h2])).trans (congrArg _ (if_neg (ne_true_of_eq_false hqueued)))))
  case retest =>
    change execRetestLimitExpiry x s = _
    simp [execRetestLimitExpiry, hretest, hw, Nat.not_lt.2 hruns, Nat.not_lt.2 hlimit]
  case starved =>
    have hguard : ¬ (!working s || s.build.hub || (tileAt x s).starvedAt.isSome || decide ((tileAt x s).starveFrames < s.prb.set.starve)) = true := by
      simp [hw, hhub, hfirst, hstarved]
    exact if_neg hguard
  case order =>
    obtain ⟨n, r, f⟩ := o
    change execProbeRunTimeout x s = _
    simp [execProbeRunTimeout, horder, hw, Nat.not_lt.2 hlate]

/-! ### Packs that are pushed on (R231) -/

theorem exec_probePackArrival_of_item {d : Nat} {item : Bytes} {s : State} (hcarries : carries d s = true) (hlen : 200 ≤ item.length)
    (hdir : (doorAt d s).dir ≠ 1) : let f := if rd item 0 8 = 0 then none else some (rd item 0 8)
    exec (.probePackArrival d item) s =
      if !s.build.hub then .next (takePack f (item.drop 8) s.fresh)
      else if pushing (packHash (item.drop 8)) s then .next s.fresh
      else .next (startPush (some d) f (item.drop 8) s.fresh) := by
  intro f
  have hguard : ¬ (!carries d s) = true := by simp [hcarries]
  have hform : ¬ (decide (item.length < 8 + 192) || (doorAt d s).dir == 1) = true := by
    rw [decide_eq_false (Nat.not_lt.2 hlen), beq_eq_false_iff_ne.2 hdir]
    decide
  have hframe : f = if (rd item 0 8 == 0) = true then none else some (rd item 0 8) := (ite_beq ..).symm
  rw [hframe]
  exact (if_neg hguard).trans (if_neg hform)

/-- The outcomes of a push that this hub knows are counted, and go to the door that the push came from. -/
theorem exec_packOutcomeArrival_of_push {d : Nat} {item : Bytes} {p : Push} {s : State} (hcarries : carries d s = true) (hhub : s.build.hub = true)
    (hmin : 40 ≤ item.length) (hmax : item.length ≤ 160) (hwords : item.length % 8 = 0)
    (hpush : s.prb.pushes.find? (·.hash == item.take 32) = some p) :
    let counts := (records 8 (item.drop 32)).foldl (fun t e => tput (rd e 0 2) (tget 0 (rd e 0 2) t + rd e 4 4) t) p.counts
    let u := setPush p.hash (fun q => { q with counts := counts }) s.fresh
    (p.source = none → exec (.packOutcomeArrival d item) s = .next u) ∧
    (∀ e, p.source = some e → liveAt e u = true →
      exec (.packOutcomeArrival d item) s = .next (sendBulk e 6 (nextSerial 6 u).1 item (nextSerial 6 u).2)) := by
  intro counts u
  have hguard : ¬ (!carries d s.fresh || !s.fresh.build.hub) = true := by simp [hcarries, hhub]
  have hform : ¬ (decide (item.length < 40) || item.length % 8 != 0 || decide ((item.length - 32) / 8 > 16)) = true := by
    rw [decide_eq_false (Nat.not_lt.2 hmin), hwords, decide_eq_false (by omega)]
    decide
  have hexec : exec (.packOutcomeArrival d item) s = match p.source with
      | none => .next u
      | some d => match (if liveAt d u then some d else uplink u) with
        | none => .next u
        | some d => let (n, v) := nextSerial 6 u; .next (sendBulk d 6 n item v) := by
    change execPackOutcomeArrival d item s = _
    unfold execPackOutcomeArrival
    dsimp only
    rw [if_neg hguard, if_neg hform, show s.fresh.prb.pushes.find? (·.hash == item.take 32) = some p from hpush] <;> rfl
  refine ⟨fun hnone => ?_, fun e hsome hlive => ?_⟩
  · rw [hexec, hnone]
  · rw [hexec, hsome]
    dsimp only
    rw [if_pos hlive]

/-- Settles O46: a pack and its outcomes pass their guards. -/
theorem packsArePushedOn : Obligations.PacksArePushedOn := by
  unfold Obligations.PacksArePushedOn
  refine ⟨?packs, ?outcomes⟩
  case packs =>
    intro d item s f hcarries hlen hdir
    have harrive := exec_probePackArrival_of_item hcarries hlen hdir
    refine ⟨fun hdie => harrive.trans (if_pos (by simp [hdie])), fun hhub hnew => ?_, fun hhub hheld => ?_⟩
    · exact harrive.trans ((if_neg (by simp [hhub])).trans (if_neg (ne_true_of_eq_false hnew)))
    · exact harrive.trans ((if_neg (by simp [hhub])).trans (if_pos hheld))
  case outcomes =>
    intro d item p s counts u hcarries hhub hmin hmax hwords hpush
    exact exec_packOutcomeArrival_of_push hcarries hhub hmin hmax hwords hpush

end Sys2Proof.Machine
end

section
/-! PROOFS. The Shutter: stops and scans (O47), resumes and the tray's store (O48). -/
namespace Sys2Proof.Machine

/-! ### Stops (R309, R310, R313) -/

theorem exec_timedStopInstant_of_armed {a : Arm} {s : State} (harm : s.sht.arm = some a) (hw : working s = true) (hstate : s.sht.state = shArmed) :
    let u := advanceTo a.at_ s.fresh
    exec .timedStopInstant s = .next (startStop causeTimed a.serial a.at_ a.mode a.resume false
      (reportOutcome a.serial (if u.time.lock = 1 then 7 else 8) u)) := by
  intro u
  have hguard : ¬ (!working s.fresh || s.fresh.sht.state != shArmed) = true := by simp [hw, hstate]
  change execTimedStopInstant s = _
  unfold execTimedStopInstant
  dsimp only
  rw [show s.fresh.sht.arm = some a from harm, ← ite_beq]
  exact if_neg hguard

/-- The answer of a region that stops is pending. -/
theorem stopping_guard {s : State} {done : Bool} (hstate : s.sht.state = shStopping) (hdone : done = false) :
    ¬ (s.fresh.sht.state != shStopping || done) = true := by
  simp [hstate, hdone]

theorem exec_regionStopAck_of_region {g n c k : Nat} {o : Int} {r : Region} {s : State} (hregion : regionOf g s = some r)
    (hstate : s.sht.state = shStopping) (hdone : r.done = false) :
    exec (.regionStopAck g n c k o) s = .next (stopProgress (setRegion g (fun x => { x with
      done := true, stopped := true, clock := k, n := if k == 2 then 0 else n, wait := if k == 2 then 0 else x.wait, stopCycle := c
      offset := stopOffset k n o r s.fresh, late := !(k == 2) && regionLate n (stopOffset k n o r s.fresh) s.fresh }) s.fresh)) := by
  change execRegionStopAck g n c k o s = _
  unfold execRegionStopAck
  dsimp only
  rw [show regionOf g s.fresh = some r from hregion]
  exact if_neg (stopping_guard hstate hdone)

theorem exec_regionAckTimeout_of_region {g : Nat} {r : Region} {s : State} (hregion : regionOf g s = some r)
    (hstate : s.sht.state = shStopping) (hdone : r.done = false) :
    exec (.regionAckTimeout g) s = .next (stopProgress (setRegion g (fun r => { r with done := true, noAck := true })
      (advanceTo (s.sht.stopRec.ref + 1000 * nsUnit) s.fresh))) := by
  change execRegionAckTimeout g s = _
  unfold execRegionAckTimeout
  dsimp only
  rw [show regionOf g s.fresh = some r from hregion]
  exact if_neg (stopping_guard hstate hdone)

theorem exec_channelClosed_of_open {j st n : Nat} {o : Int} {c : Channel} {s : State} (hchannel : s.sht.channels[j]? = some c)
    (hstate : s.sht.state = shStopping) (hopen : c.isClosed = false) (hst : st ≤ 4) :
    exec (.channelClosed j st n o) s = .next (stopProgress (setSht (fun x => { x with
      channels := modifyAt j (fun c => { c with isClosed := true, status := st, flits := n, offset := o }) x.channels }) s.fresh)) := by
  have hguard : ¬ (s.fresh.sht.state != shStopping || c.isClosed || decide (st > 4)) = true := by simp [hstate, hopen, hst]
  change execChannelClosed j st n o s = _
  unfold execChannelClosed
  dsimp only
  rw [show s.fresh.sht.channels[j]? = some c from hchannel]
  exact if_neg hguard

/-! ### Scans (R316) -/

/-- Where a scan's image goes: into the codec, to the host, nowhere where it was lost, or to the tray. -/
def presentScan (head entries : Bytes) (s : State) : State :=
  if scanTarget s != 0 then setSht (fun x => { x with building := some (head, entries) }) s
  else if s.sht.toHost then s
  else if s.sht.imageLost then imageFailed 2 s
  else sendImage 1 head entries s.sht.scanRaw s

theorem sht_sendImage (sub : Nat) (head entries payload : Bytes) (s : State) : (sendImage sub head entries payload s).sht = s.sht :=
  (keep_sendImage (M := maskOf [.net, .out]) rfl (Keep.refl s)).part .sht (by decide)

theorem presentScan_keeps (head entries : Bytes) (s : State) : let t := presentScan head entries s
    t.sht.state = s.sht.state ∧ t.sht.aborting = s.sht.aborting ∧ t.sht.stopRec = s.sht.stopRec := by
  unfold presentScan
  split
  · exact ⟨rfl, rfl, rfl⟩
  · split
    · exact ⟨rfl, rfl, rfl⟩
    · split
      · exact ⟨rfl, rfl, rfl⟩
      · simp only [sht_sendImage, and_self]

/-- The state of a finished scan before what follows it. -/
def scanFinished (v : State) : State :=
  let flags := v.sht.stopRec.flags + b2n v.sht.aborting + 2 * b2n ((segments v).any fun g => segSkipped v.sht.mode g v)
  let s := setSht (fun x => { x with state := if x.mode == 2 then shHeld else shScanned, aborting := false, scan := { x.scan with flags := flags } }) v
  presentScan (stopHead flags 0 v) (imageEntries v) (setCtx 0 (fun c => if scanTarget s == 0 then c else { c with isEnd := true, more := false }) s)

theorem scanDone_eq (v : State) : scanDone v = afterScan (scanFinished v) := rfl

theorem scanFinished_fields (v : State) : let t := scanFinished v
    t.sht.state = (if v.sht.mode == 2 then shHeld else shScanned) ∧ t.sht.aborting = false ∧ t.sht.stopRec = v.sht.stopRec :=
  presentScan_keeps ..

theorem afterScan_of_held {s : State} (hstate : s.sht.state = shHeld) : afterScan s = s := by
  have hother : (s.sht.state == shStopped || s.sht.state == shScanned) = false := by
    rw [hstate]
    decide
  refine if_neg ?_
  rw [hother, Bool.and_false]
  exact Bool.false_ne_true

theorem afterScan_of_no_resume {s : State} (hresume : s.sht.stopRec.resume = none) : afterScan s = s :=
  if_neg (by simp [hresume])

theorem afterScan_of_resume {a : Nat} {s : State} (hstate : s.sht.state = shScanned) (hresume : s.sht.stopRec.resume = some a) :
    afterScan s = resume (some a) s := by
  have hguard : (s.sht.stopRec.resume.isSome && (s.sht.state == shStopped || s.sht.state == shScanned)) = true := by
    rw [hresume, hstate]
    rfl
  exact (if_pos hguard).trans (congrArg (resume · s) hresume)

theorem scanDone_outcome (v : State) : let t := scanDone v
    t.sht.aborting = false ∧ (v.sht.mode = 2 → t.sht.state = shHeld) ∧ (v.sht.mode ≠ 2 → v.sht.stopRec.resume = none → t.sht.state = shScanned) ∧
      ∀ a, v.sht.mode ≠ 2 → v.sht.stopRec.resume = some a → t.sht.state = shResuming ∧ t.sht.resumeAt = some a := by
  obtain ⟨hstate, habort, hrec⟩ := scanFinished_fields v
  rw [scanDone_eq]
  by_cases hmode : v.sht.mode = 2
  · have hheld : (scanFinished v).sht.state = shHeld := hstate.trans (if_pos (by simp [hmode]))
    rw [afterScan_of_held hheld]
    exact ⟨habort, fun _ => hheld, fun h => absurd hmode h, fun _ h => absurd hmode h⟩
  · have hscanned : (scanFinished v).sht.state = shScanned := hstate.trans (if_neg (by simp [hmode]))
    cases hresume : v.sht.stopRec.resume with
    | none =>
      rw [afterScan_of_no_resume (by rw [hrec, hresume])]
      exact ⟨habort, fun h => absurd h hmode, fun _ _ => hscanned, fun _ _ h => absurd h (by simp)⟩
    | some a =>
      rw [afterScan_of_resume hscanned (by rw [hrec, hresume])]
      exact ⟨habort, fun h => absurd h hmode, fun _ h => absurd h (by simp), fun b _ h => ⟨rfl, h⟩⟩

/-! ### Hang detection (R330) -/

/-- The state in which a hang is declared. -/
def hangNoted (s : State) : State :=
  ownEntry 0x0F50 0 0 (toLe 4 s.sht.hang.limit) (setSht (fun x => { x with hung := true, hangFrame := curFrame s, episode := x.episode + 1 }) s.fresh)

theorem exec_hangDeclared_of_limit {s : State} (hw : working s = true) (hhub : s.build.hub = false) (hcounters : s.sht.hang.counters ≠ [])
    (hfirst : s.sht.hung = false) (hlimit : s.sht.hang.limit ≤ s.sht.hangCount) : let u := hangNoted s
    exec .hangDeclared s = match s.sht.hang.action with
      | 1 => .next (if dumpSending u then setSht (fun x => { x with skippedDumps := x.skippedDumps + 1 }) u
                    else setSht (fun x => { x with dumpHead := some (hangHead u), dumpDue := true }) u)
      | 2 => .next (immediateStop causeHang 1 u).2
      | _ => .next u := by
  have hguard : ¬ (!working s || s.build.hub || s.sht.hang.counters.isEmpty || s.sht.hung || decide (s.sht.hangCount < s.sht.hang.limit)) = true := by
    simp [hw, hhub, hcounters, hfirst, hlimit]
  exact (if_neg hguard).trans rfl

/-- Settles O47: each stop event by the lemma on its own arm, and the scan's end by `scanDone_outcome`. -/
theorem shutterStopsAndScans : Obligations.ShutterStopsAndScans := by
  unfold Obligations.ShutterStopsAndScans
  refine ⟨fun a s harm hw hstate => exec_timedStopInstant_of_armed harm hw hstate, ?acks,
    fun j st n o c s hchannel hstate hopen hst => exec_channelClosed_of_open hchannel hstate hopen hst,
    fun out s hlive => ?live, fun out s hstate hidle hlive => ?scan, scanDone_outcome, ?hang, fun s hw => ?codec⟩
  case acks =>
    intro g n c k o r s hregion hstate hdone w
    have hack := exec_regionStopAck_of_region (n := n) (c := c) (k := k) (o := o) hregion hstate hdone
    refine ⟨fun hk => ?_, fun hk => ?_, exec_regionAckTimeout_of_region hregion hstate hdone⟩
    · have hrunning : (k == 2) = false := by simp [hk]
      rw [hack]
      simp only [hrunning, Bool.false_eq_true, if_false, Bool.not_false, Bool.true_and]
      rfl
    · have hgated : (k == 2) = true := by simp [hk]
      have hseen : stopOffset k n o r s.fresh = o := if_pos (by simp [hk])
      rw [hack]
      simp only [hgated, if_true, Bool.not_true, Bool.false_and, hseen]
  case live => exact if_pos hlive
  case scan =>
    have hguard : ¬ (s.sht.state != shScanning || s.sht.building.isSome) = true := by simp [hstate, hidle]
    exact (if_neg (ne_true_of_eq_false hlive)).trans (if_neg hguard)
  case hang =>
    intro s h hw hhub hcounters hfirst hlimit u
    have hdeclared := exec_hangDeclared_of_limit hw hhub hcounters hfirst hlimit
    refine ⟨fun ha => ?_, fun ha hfree => ?_, fun ha hsending => ?_, fun ha => ?_⟩
    · rw [hdeclared, show s.sht.hang.action = 0 from ha]
      rfl
    · rw [hdeclared, show s.sht.hang.action = 1 from ha]
      exact congrArg _ (if_neg (ne_true_of_eq_false hfree))
    · rw [hdeclared, show s.sht.hang.action = 1 from ha]
      exact congrArg _ (if_pos hsending)
    · rw [hdeclared, show s.sht.hang.action = 2 from ha]
      rfl
  case codec =>
    have hworks : ¬ (!working s) = true := by simp [hw]
    refine (if_neg hworks).trans ?_
    cases engineStep s.fresh with
    | mk k u => cases k <;> rfl

/-! ### Resumes and images (R306, R312, R320, R323 to R326) -/

/-- Settles O48: each command passes its guard. -/
theorem shutterResumesAndStores : Obligations.ShutterResumesAndStores := by
  unfold Obligations.ShutterResumesAndStores
  refine ⟨fun t s hat hw hstate => ?resumes, ?regions, ?cuts, fun d q k s hhub hcarries hlen => ?reports, fun d n item s htray hcarries => ?images,
    ?reserve, ?reply⟩
  case resumes =>
    change execResumeInstant s = _
    simp [execResumeInstant, hat, hw, hstate]
  case regions =>
    intro g s u v
    refine ⟨fun hheld => ?_, fun hstate hat => ?_⟩
    · have hguard : ¬ (s.sht.state != shHeld) = true := by simp [hheld]
      exact if_neg hguard
    · have hguard : ¬ (s.sht.state != shResuming || s.sht.resumeAt.isSome) = true := by simp [hstate, hat]
      exact if_neg hguard
  case cuts =>
    intro n d c s u hcarries
    exact if_neg (by simp [u, hcarries])
  case reports =>
    have hguard : ¬ (!s.build.hub || !carries d s) = true := by simp [hhub, hcarries]
    exact (if_neg hguard).trans (if_neg (by simp [hlen]))
  case images =>
    have hguard : ¬ (!isTray s || !carries d s) = true := by simp [htray, hcarries]
    exact ⟨if_neg hguard, if_neg hguard⟩
  case reserve =>
    intro d item s htray hcarries hlen die serial others answer
    have hguard : ¬ (!isTray s || !carries d s) = true := by simp [htray, hcarries]
    have hform : ¬ (item.length != 16) = true := by simp [hlen]
    have hexec : exec (.reserveArrival d item) s =
        (let ok := storeUsable s && decide (imageBytes s + sumN (others.map (·.2.2)) + rd item 8 8 ≤ areaBytes s)
         .next (answer (if ok then stOk else stSpace)
           (if ok then setSht (fun x => { x with reserved := others ++ [(die, serial, rd item 8 8)] }) s.fresh else s.fresh))) :=
      (if_neg hguard).trans (if_neg hform)
    refine ⟨fun husable hfits => ?_, fun hfull => ?_⟩
    · rw [hexec]
      simp only [husable, hfits, decide_true, Bool.and_self, if_true]
    · rw [hexec]
      simp only [Nat.not_le.2 hfull, decide_false, Bool.and_false, Bool.false_eq_true, if_false]
  case reply =>
    intro item s hhub hcarries hlen hserial hstate
    have hguard : ¬ (s.build.hub || !carries 0 s) = true := by simp [hhub, hcarries]
    have hform : ¬ (item.length != 16) = true := by simp [hlen]
    have hstates : (s.sht.state != shStopped && s.sht.state != shScanned) = false := by
      obtain h | h := hstate <;> simp [h]
    have hdue : ¬ (s.sht.reserving != some (rd item 0 4) || (s.sht.state != shStopped && s.sht.state != shScanned)) = true := by
      simp [hserial, hstates]
    refine ⟨fun hok => ?_, fun hother => ?_⟩
    · exact (if_neg hguard).trans ((if_neg hform).trans ((if_neg hdue).trans (if_pos (by simp [hok]))))
    · exact (if_neg hguard).trans ((if_neg hform).trans ((if_neg hdue).trans (if_neg (by simp [hother]))))

end Sys2Proof.Machine
end

section
/-! PROOFS. The recorder and storage (O51), the panel (O52) and audit hashing (O53). -/
namespace Sys2Proof.Machine

/-! ### The recorder (R352 to R361) -/

/-- Time goes on without the recorder's entries: the cycles of the hour are counted. -/
theorem evr_advance (k : Nat) (s : State) : ∃ n, (advance k s).evr = { s.evr with hourCtr := n } := by
  unfold advance
  split
  · exact ⟨s.evr.hourCtr, rfl⟩
  · exact ⟨s.evr.hourCtr + k, rfl⟩

theorem head_advance (k : Nat) (s : State) : (advance k s).evr.head = s.evr.head := by
  obtain ⟨n, hhour⟩ := evr_advance k s
  rw [hhour]

theorem evr_mirrorAppend (key : Nat) (b : Bytes) (s : State) : (mirrorAppend key b s).evr = s.evr :=
  (keep_mirrorAppend (M := maskOf [.mem, .out]) rfl (Keep.refl s)).part .evr (by decide)

theorem evr_foldl_mirrorAppend (key : Nat) (bs : List Bytes) (s : State) : (bs.foldl (fun s b => mirrorAppend key b s) s).evr = s.evr := by
  induction bs generalizing s with
  | nil => rfl
  | cons b bs ih => rw [List.foldl_cons, ih, evr_mirrorAppend]

/-- Mirroring moves the recorder's mirror mark alone. -/
theorem evr_mirrorOwn (s : State) : ∃ n, (mirrorOwn s).evr = { s.evr with mirrorNext := n } := by
  unfold mirrorOwn
  split
  · exact ⟨s.evr.head, evr_foldl_mirrorAppend ..⟩
  · exact ⟨s.evr.mirrorNext, rfl⟩

theorem exec_recorderWrite_of_entry {e : EvrEntry} {q : List EvrEntry} {s : State} (hqueue : s.evr.queue = e :: q) (hout : outOfReset s = true)
    (hclear : s.evr.clearing = false) : let u := advance 4 { s.fresh with evr := { s.evr with queue := q } }
    exec .recorderWrite s = .next (if evrFull u then
        { u with evr := { u.evr with refFull := satAdd u32Max u.evr.refFull 1, firstRefusal := u.evr.firstRefusal.or (some e.stamp) } }
      else mirrorOwn (writeEvr e u)) := by
  intro u
  have hguard : ¬ (!outOfReset s.fresh || s.fresh.evr.clearing) = true := by simp [hout, hclear]
  change execRecorderWrite s = _
  unfold execRecorderWrite
  dsimp only
  rw [show s.fresh.evr.queue = e :: q from hqueue]
  exact if_neg hguard

/-- A recorder whose clear has ended: empty, from the head on (R360). -/
def clearedRecorder (r : Recorder) : Recorder :=
  { r with clearing := false, base := r.head, slots := [], torn := [], corrupt := [], refFull := 0, refBusy := 0, firstRefusal := none, mirrorNext := r.head }

/-- The first entry of an empty recorder is the one at its base. -/
theorem writeEvr_of_cleared {e : EvrEntry} {r : Recorder} {s : State} (hevr : s.evr = clearedRecorder r) : let t := writeEvr e s
    t.evr.clearing = false ∧ t.evr.base = r.head ∧ t.evr.head = r.head + 1 ∧ t.evr.slots.length = 1 ∧ t.evr.refFull = 0 ∧ t.evr.refBusy = 0 ∧
      t.evr.corrupt = [] := by
  simp [writeEvr, hevr, clearedRecorder]

/-- The end of a clear leaves its CLEARED entry alone (R360). -/
theorem exec_recorderClearDone_clears {s : State} (hclear : s.evr.clearing = true) : ∃ t, exec .recorderClearDone s = .next t ∧
    t.evr.clearing = false ∧ t.evr.base = s.evr.head ∧ t.evr.head = s.evr.head + 1 ∧ t.evr.slots.length = 1 ∧ t.evr.refFull = 0 ∧
    t.evr.refBusy = 0 ∧ t.evr.corrupt = [] := by
  have hguard : ¬ (!s.fresh.evr.clearing) = true := by simp [hclear]
  refine ⟨_, if_neg hguard, ?_⟩
  have hhead : (advanceCycles (s.fresh.evr.clearAt + 4096) s.fresh).evr.head = s.evr.head := head_advance ..
  generalize advanceCycles (s.fresh.evr.clearAt + 4096) s.fresh = u at hhead ⊢
  obtain ⟨m, hmirror⟩ := evr_mirrorOwn (writeEvr _ { u with evr := clearedRecorder u.evr })
  unfold clearedRecorder at hmirror
  rw [hmirror, ← hhead]
  exact writeEvr_of_cleared (r := u.evr) (s := { u with evr := clearedRecorder u.evr }) rfl

theorem exec_hourCounterExpiry_counts {s : State} (hout : outOfReset s = true) : ∃ t, exec .hourCounterExpiry s = .next t ∧
    t.evr.hours = min (s.evr.hours + 1) u32Max ∧ t.evr.hourCtr = 0 ∧ t.out = [.hoursOut t.evr.hours] := by
  have hguard : ¬ (!outOfReset s.fresh) = true := by simp [hout]
  obtain ⟨n, hhour⟩ := evr_advance (hourLimit - s.fresh.evr.hourCtr) s.fresh
  have hhours : (advance (hourLimit - s.fresh.evr.hourCtr) s.fresh).evr.hours = s.evr.hours := congrArg (·.hours) hhour
  have houts : (advance (hourLimit - s.fresh.evr.hourCtr) s.fresh).out = [] := by simp
  refine ⟨_, if_neg hguard, ?_, rfl, ?_⟩
  · change satAdd u32Max (advance (hourLimit - s.fresh.evr.hourCtr) s.fresh).evr.hours 1 = _
    rw [hhours, satAdd, Nat.min_comm]
  · change (advance (hourLimit - s.fresh.evr.hourCtr) s.fresh).out ++ _ = _
    rw [houts]
    rfl

/-! ### Mirrored entries, storage commands and banks (R361, R366, R458, R459) -/

theorem exec_recorderMirrorArrival_of_entries {d : Nat} {item : Bytes} {s : State} (htray : isTray s = true) (hcarries : carries d s = true)
    (hitem : item ≠ []) (hwhole : item.length % 64 = 0) :
    exec (.recorderMirrorArrival d item) s = .next (mirrorTake (peerDie (doorAt d s)) item s.fresh) := by
  have hguard : ¬ (!isTray s || !carries d s) = true := by simp [htray, hcarries]
  have hform : ¬ (item.isEmpty || item.length % 64 != 0) = true := by simp [hitem, hwhole]
  exact (if_neg hguard).trans (if_neg hform)

theorem exec_mirrorEntrySend_of_entry {b : Bytes} {s : State} (hhub : s.build.hub = false) (hcarries : carries 0 s = true)
    (hentry : entryOf (max s.evr.mirrorNext s.evr.base) s.fresh = some b) :
    let u := nextSerial 8 { s.fresh with evr := { s.evr with mirrorNext := max s.evr.mirrorNext s.evr.base + 1 } }
    exec .mirrorEntrySend s = .next (sendBulk 0 8 u.1 b u.2) := by
  have hguard : ¬ (s.fresh.build.hub || !carries 0 s.fresh) = true := by simp [hhub, hcarries]
  change execMirrorEntrySend s = _
  unfold execMirrorEntrySend
  dsimp only
  rw [if_neg hguard, show entryOf (max s.fresh.evr.mirrorNext s.fresh.evr.base) s.fresh = some b from hentry]
  rfl

theorem mem_bankLost (b : Nat) (s : State) : (bankLost b s).mem = s.mem :=
  (keep_bankLost (M := maskOf [.glen, .trc, .wpt, .asm]) rfl (Keep.refl s)).part .mem (by decide)

theorem mem_ownEntry (code entity kind : Nat) (payload : Bytes) (s : State) : (ownEntry code entity kind payload s).mem = s.mem :=
  (keep_ownEntry (M := maskOf [.evr]) rfl (Keep.refl s)).part .mem (by decide)

/-- The state that a bank's change leaves: its entry waits, and a bank switched off has lost what it held (R366). -/
def bankChanged (k old new : Nat) (s : State) : State :=
  let u := ownEntry 0x0F60 0 0 (toLe 1 k ++ toLe 1 old ++ toLe 1 new)
    { s.fresh with mem := { s.mem with banks := modifyAt k (fun _ => new) s.mem.banks, changing := s.mem.changing.filter (·.1 != k) } }
  if new = 2 then bankLost k u else u

theorem bankReply_bankChanged (k old new : Nat) (s : State) : (bankChanged k old new s).mem.bankReply = s.mem.bankReply := by
  unfold bankChanged
  dsimp only
  split
  · rw [mem_bankLost, mem_ownEntry]
  · rw [mem_ownEntry]

/-- A bank's change answers the command that waits for its last bank (R366). -/
theorem exec_bankChangeComplete_of_changing {k old new : Nat} {s : State} (hchange : s.mem.changing.find? (·.1 == k) = some (k, old, new)) :
    let rest := s.mem.changing.filter (·.1 != k); let v := bankChanged k old new s
    (s.mem.bankReply = none → exec (.bankChangeComplete k) s = .next v) ∧
    (∀ r bs, s.mem.bankReply = some (r, bs) → exec (.bankChangeComplete k) s = .next (if bs.any fun b => rest.any (·.1 == b) then v
      else finish 0x1302 r (okay [], { v with mem := { v.mem with bankReply := none } }))) := by
  intro rest v
  have hexec : exec (.bankChangeComplete k) s = .next (match v.mem.bankReply with
      | some (r, bs) => if bs.any fun b => rest.any (·.1 == b) then v else finish 0x1302 r (okay [], { v with mem := { v.mem with bankReply := none } })
      | none => v) := by
    change execBankChangeComplete k s = _
    unfold execBankChangeComplete
    dsimp only
    rw [show s.fresh.mem.changing.find? (·.1 == k) = some (k, old, new) from hchange]
    simp only [v, bankChanged, rest, ← ite_beq]
    rfl
  rw [hexec, show v.mem.bankReply = s.mem.bankReply from bankReply_bankChanged k old new s]
  exact ⟨fun hnone => by rw [hnone], fun r bs hsome => by rw [hsome]⟩

/-- Settles O51: the recorder's bounds pass through time and mirroring. -/
theorem recorderAndStorageEvents : Obligations.RecorderAndStorageEvents := by
  unfold Obligations.RecorderAndStorageEvents
  refine ⟨fun e q s hqueue hout hclear => ?write, fun s hclear => exec_recorderClearDone_clears hclear, fun s hout => exec_hourCounterExpiry_counts hout,
    fun s => rfl, fun d item s htray hcarries hitem hwhole => ?mirror, ?send, fun ready n s hhub => ?ready, fun tag st c s hcmd => ?completion,
    fun k old new s hchange => ?banks⟩
  case write =>
    have hwrite := exec_recorderWrite_of_entry hqueue hout hclear
    refine ⟨fun hroom => ⟨hwrite.trans (congrArg _ (if_neg (ne_true_of_eq_false hroom))), ?_⟩, fun hfull => hwrite.trans (congrArg _ (if_pos hfull))⟩
    exact congrArg (· + 1) (head_advance 4 { s.fresh with evr := { s.evr with queue := q } })
  case mirror =>
    refine ⟨fun husable => ?_, fun hdown => ?_⟩
    · exact (exec_recorderMirrorArrival_of_entries htray hcarries hitem hwhole).trans (congrArg _ (if_pos husable))
    · exact (exec_recorderMirrorArrival_of_entries htray hcarries hitem hwhole).trans (congrArg _ (if_neg (ne_true_of_eq_false hdown)))
  case send =>
    intro b s k u hhub hcarries hentry
    exact exec_mirrorEntrySend_of_entry hhub hcarries hentry
  case ready => exact congrArg _ (if_pos hhub)
  case completion =>
    intro rest up
    have hexec : exec (.storageCompletion tag st) s =
        if st == 0 then .next { s.fresh with mem := { s.mem with cmds := rest, logs := s.mem.logs.map up } }
        else if !c.retried then .next { s.fresh with out := [.storageWrite tag c.area], mem := { s.mem with cmds := rest ++ [{ c with retried := true }] } }
        else .next { s.fresh with mem := { s.mem with cmds := rest, failed := s.mem.failed ++ [c.area],
                                                      failures := tput c.area (tget 0 c.area s.mem.failures + 1) s.mem.failures } } := by
      change execStorageCompletion tag st s = _
      unfold execStorageCompletion
      dsimp only
      rw [show s.fresh.mem.cmds.find? (·.tag == tag) = some c from hcmd]
      rfl
    refine ⟨fun hgood => hexec.trans (if_pos (by simp [hgood])), fun hbad hfirst => ?_, fun hbad hsecond => ?_⟩
    · exact hexec.trans ((if_neg (by simp [hbad])).trans (if_pos (by simp [hfirst])))
    · exact hexec.trans ((if_neg (by simp [hbad])).trans (if_neg (by simp [hsecond])))
  case banks =>
    intro rest u v
    obtain ⟨hnone, hsome⟩ := exec_bankChangeComplete_of_changing hchange
    refine ⟨hnone, fun r bs hreply => ⟨fun hmore => ?_, fun hlast => ?_⟩⟩
    · exact (hsome r bs hreply).trans (congrArg _ (if_pos (by simpa [rest] using hmore)))
    · have hdone : (bs.any fun b => rest.any (·.1 == b)) = false := by
        refine List.any_eq_false.2 fun b hb => ne_true_of_eq_false (List.any_eq_false.2 fun e he => ?_)
        simpa using hlast b hb e he
      exact (hsome r bs hreply).trans (congrArg _ (if_neg (ne_true_of_eq_false hdone)))

/-! ### The panel (R468 to R473) -/

theorem panel_guard {s : State} (hw : working s = true) (hhub : s.build.hub = true) : ¬ (!working s || !s.build.hub) = true := by
  simp [hw, hhub]

/-- A block's role is a matter of its build and its configuration. -/
theorem isTray_congr {s t : State} (hbuild : t.build = s.build) (hcfg : t.cfg = s.cfg) : isTray t = isTray s := by
  unfold isTray role unitId
  rw [hbuild, hcfg]

theorem isTray_panelEntry (kind cage door flags stamp : Nat) (tail : Bytes) (s : State) :
    isTray (panelEntry kind cage door flags stamp tail s) = isTray s := by
  have hkeep : Keep (maskOf [.pnl]) s (panelEntry kind cage door flags stamp tail s) := keep_panelEntry rfl (Keep.refl s)
  exact isTray_congr hkeep.build (hkeep.part .cfg (by decide))

/-- A hold of 3 s is recorded, and a tray takes it as a trigger (R473). -/
def holdTaken (u : State) : State :=
  let v := panelEntry 6 0xFF 0xFF (2 * b2n (isTray u && u.trc.stopAt.isNone && !u.trc.stopped)) u.time.now [] u
  if isTray v then trayTrigger 0 v else v

theorem exec_holdPress_of_held {t : Nat} {s : State} (hhold : s.pnl.holdSince = some t) (hw : working s = true) (hfirst : s.pnl.holdCounted = false) :
    exec .holdPress s = .next (holdTaken (advanceTo (t + 3 * secUnit) { s.fresh with pnl := { s.pnl with holdCounted := true } })) := by
  have hguard : ¬ (!working s.fresh || s.fresh.pnl.holdCounted) = true := by simp [hw, hfirst]
  change execHoldPress s = _
  unfold execHoldPress
  dsimp only
  rw [show s.fresh.pnl.holdSince = some t from hhold]
  dsimp only
  rw [if_neg hguard, ← hhold]
  rfl

theorem holdTaken_of_tray {u : State} {takes : Bool} (htray : isTray u = true) (htakes : (u.trc.stopAt.isNone && !u.trc.stopped) = takes) :
    holdTaken u = trayTrigger 0 (panelEntry 6 0xFF 0xFF (2 * b2n takes) u.time.now [] u) := by
  unfold holdTaken
  dsimp only
  rw [isTray_panelEntry, if_pos htray, Bool.and_assoc, htray, htakes, Bool.true_and]

theorem holdTaken_of_other {u : State} (htray : isTray u = false) : holdTaken u = panelEntry 6 0xFF 0xFF 0 u.time.now [] u := by
  unfold holdTaken
  dsimp only
  rw [isTray_panelEntry, if_neg (ne_true_of_eq_false htray), htray]
  rfl

/-- Settles O52: each input passes the panel's guard. -/
theorem panelEvents : Obligations.PanelEvents := by
  unfold Obligations.PanelEvents
  refine ⟨fun i level k s hw hhub => ?inputs, fun c t s hw hopen hclose => ?window, fun t s hhold hw hfirst => ?hold⟩
  case inputs =>
    intro stamp
    refine ⟨fun hshort => (if_neg (panel_guard hw hhub)).trans (if_pos hshort), fun hlong => ⟨?_, ?_, ?_, ?_⟩⟩
    · rintro c rfl hc hnew
      refine (if_neg (panel_guard hw hhub)).trans ((if_neg (Nat.not_lt.2 hlong)).trans (congrArg _ (if_neg ?_)))
      simp [hc, hnew]
    · rintro c rfl hc hnew
      refine (if_neg (panel_guard hw hhub)).trans ((if_neg (Nat.not_lt.2 hlong)).trans (congrArg _ (if_neg ?_)))
      simp [hc, hnew]
    · rintro rfl rfl
      exact (if_neg (panel_guard hw hhub)).trans ((if_neg (Nat.not_lt.2 hlong)).trans (if_neg Bool.false_ne_true))
    · rintro rfl
      exact (if_neg (panel_guard hw hhub)).trans (if_neg (Nat.not_lt.2 hlong))
  case window =>
    have hguard : ¬ (!working s.fresh || !(cageAt c s.fresh).windowOpen) = true := by simp [hw, hopen]
    change execServiceWindowClose c s = _
    unfold execServiceWindowClose
    dsimp only
    rw [show (cageAt c s.fresh).closeAt = some t from hclose]
    exact if_neg hguard
  case hold =>
    intro u
    have hpress : exec .holdPress s = .next (holdTaken u) := exec_holdPress_of_held hhold hw hfirst
    have hrole : isTray u = isTray s := isTray_congr (by simp [u]) (by simp [u])
    have htrc : u.trc = s.trc := by simp [u]
    rw [hpress]
    clear_value u
    refine ⟨fun htray hrecords hruns => ?_, fun htray hstopped => ?_, fun hother => ?_⟩
    · rw [holdTaken_of_tray (takes := true) (hrole.trans htray) (by simp [htrc, hrecords, hruns])]
      rfl
    · have hrefused : (u.trc.stopAt.isNone && !u.trc.stopped) = false := by
        rw [htrc]
        obtain h | h := hstopped <;> simp [h]
      rw [holdTaken_of_tray (hrole.trans htray) hrefused]
      rfl
    · rw [holdTaken_of_other (hrole.trans hother)]

/-! ### Audit hashing (R435, R438, R439) -/

theorem allZero_of_le_eq_zero {bs : Bytes} (h : le bs = 0) : allZero bs = true := by
  induction bs with
  | nil => rfl
  | cons b bs ih =>
    have hsum : b.toNat + 256 * le bs = 0 := h
    have hb : b = 0#8 := BitVec.eq_of_toNat_eq (by rw [BitVec.toNat_ofNat]; omega)
    have hbs : le bs = 0 := by omega
    simpa [allZero, hb] using ih hbs

/-- A loss marks a channel that has a role (R438). -/
def markLost (m : BitVec 16) (k : Nat) (x : AuditCh) : AuditCh := if bit m.toNat k = true ∧ x.role ≠ 0 then { x with incomplete := true } else x

theorem exec_auditLoss_of_running {m : BitVec 16} {s : State} (hw : working s = true) (hhub : s.build.hub = false) (hstart : s.aud.start.isSome = true) :
    exec (.auditLoss m) s = .next (setAud (fun a => { a with chans := a.chans.zipIdx.map fun p => markLost m p.2 p.1 }) s.fresh) := by
  have hguard : ¬ (!working s || s.build.hub || s.aud.start.isNone) = true := by simp [hw, hhub, Option.isNone_eq_false_iff.2 hstart]
  have hmark (p : AuditCh × Nat) : (if bit m.toNat p.2 && p.1.role != 0 then { p.1 with incomplete := true } else p.1) = markLost m p.2 p.1 := by
    simp [markLost]
  simp only [← hmark]
  exact if_neg hguard

theorem exec_auditClose_of_due {g : Word} {f : Nat} {k : AuditKey} {s : State} (hkey : auditKey g f s.fresh = some k) (hw : working s = true)
    (hhub : s.build.hub = true) (hopen : k.isClosed = false) (hdue : f + auditLead s.fresh ≤ curFrame s) :
    exec (.auditClose g f) s = .next (closeKey k s.fresh) := by
  have hclose : closeDue f s.fresh = true := decide_eq_true hdue
  have hguard : ¬ (!working s.fresh || !s.fresh.build.hub || k.isClosed || !closeDue f s.fresh) = true := by simp [hw, hhub, hopen, hclose]
  change execAuditClose g f s = _
  unfold execAuditClose
  dsimp only
  rw [hkey]
  exact congrArg _ (if_neg hguard)

/-- Settles O53: each transfer and record passes its guard. -/
theorem auditEvents : Obligations.AuditEvents := by
  unfold Obligations.AuditEvents
  refine ⟨fun c data s hw hhub hstart hrole => ?transfer, fun m s hw hhub hstart => ?loss, fun d item s htray hcarries hlen hversion hmax hdie => ?record,
    ?node, ?closes, fun g f act s hkey hdue => ?late⟩
  case transfer =>
    have hguard : ¬ (!working s || s.build.hub || s.aud.start.isNone || (s.aud.chans.getD c {}).role == 0) = true := by
      rw [beq_eq_false_iff_ne.2 hrole]
      simp [hw, hhub, Option.isNone_eq_false_iff.2 hstart]
    exact if_neg hguard
  case loss =>
    refine ⟨_, exec_auditLoss_of_running hw hhub hstart, by simp [setAud], fun k x hx => ?_⟩
    change (s.aud.chans.zipIdx.map fun p => markLost m p.2 p.1)[k]? = _
    simp [List.getElem?_zipIdx, hx, markLost]
  case record =>
    have hguard : ¬ (!isTray s || !carries d s) = true := by simp [htray, hcarries]
    have hform : ¬ (decide (item.length < 32) || item.length != 32 + 48 * byteAt item 1 || byteAt item 0 != 1 || decide (byteAt item 1 > 16) ||
        rd item 4 4 != peerDie (doorAt d s)) = true := by
      simp [hlen, hversion, hmax, hdie]
    exact (if_neg hguard).trans (if_neg hform)
  case node =>
    intro d item s peer leaf hkind hcarries hlen hfour hsixty
    have hguard : ¬ (!(isPod s || isRoot s) || !carries d s) = true := by
      obtain h | h := hkind <;> simp [h, hcarries]
    have hform : ¬ (item.length != 64 || !allZero (slice item 4 4) || !allZero (slice item 60 4)) = true := by
      simp [hlen, allZero_of_le_eq_zero hfour, allZero_of_le_eq_zero hsixty]
    exact (if_neg hguard).trans (if_neg hform)
  case closes =>
    intro g f k s hkey hw hhub hopen hdue c u
    have hclose := exec_auditClose_of_due hkey hw hhub hopen hdue
    have hroot : isRoot u = isRoot s := rfl
    refine ⟨fun h => hclose.trans (congrArg _ (if_pos (hroot.trans h))), fun h => hclose.trans (congrArg _ (if_neg ?_))⟩
    exact ne_true_of_eq_false (hroot.trans h)
  case late =>
    intro k
    rw [withKey, hkey]
    exact if_pos (decide_eq_true hdue)

end Sys2Proof.Machine
end

section
/-! PROOFS. Host door accesses (O54) and reads that latch (O55). -/
namespace Sys2Proof.Machine

/-! ### The command window (R388, R398, R404) -/

theorem memRead_memWrite_same (m : List Host.Cell) (a : Nat) (bs : Bytes) : memRead (memWrite m a bs) a bs.length = bs := by
  refine List.ext_getElem (by simp [memRead]) fun i _ hi => ?_
  simp only [memRead, List.getElem_map, List.getElem_range]
  exact memGet_memWrite_in m a i bs hi

theorem hostRead_of_window {off : Nat} {s : State} (hw : working s = true) (hhub : s.build.hub = false) (hoff : off < 0x800) :
    hostRead off s = answerRead (le (memRead s.host.cmdWin off 4)) s := by
  have hdie : (if s.build.hub then 0 else le (memRead s.host.cmdWin off 4)) = le (memRead s.host.cmdWin off 4) := if_neg (ne_true_of_eq_false hhub)
  exact (if_neg (by simp [hw])).trans ((if_pos hoff).trans (congrArg (answerRead · s) hdie))

/-- An aligned access of four bytes below the end of the address space writes one word (R398). -/
theorem exec_hostDoorWrite_write_of_aligned {off : Nat} (halign : off % 4 = 0) (hlt : off < 0x80000) (v : Word) (s : State) :
    exec (.hostDoorWrite ⟨true, off, 4, v⟩) s = .next (hostWrite off v s.fresh) := by
  have hvalid : ¬ ((4 : Nat) != 4 || off % 4 != 0 || decide (off ≥ 0x80000)) = true := by
    rw [halign, decide_eq_false (Nat.not_le.2 hlt)]
    decide
  exact congrArg Host.Outcome.next ((if_neg hvalid).trans (if_pos rfl))

/-- A write into the window of a die unit: ignored while a command is busy, the last word takes the packet, another one is stored. -/
theorem hostWrite_of_window {off : Nat} (v : Word) {s : State} (hw : working s = true) (hhub : s.build.hub = false) (hoff : off < 0x800) :
    hostWrite off v s = if s.host.busy then setHost (fun h => { h with ignored := h.ignored + 1 }) s
      else if off == takeOffset s then commandTake v s else writeWindow off v s := by
  have habsent (b : Bool) : ¬ (s.build.hub && b) = true := by
    rw [hhub, Bool.false_and]
    exact Bool.false_ne_true
  exact (if_neg (by simp [hw])).trans ((if_neg (habsent _)).trans (if_pos hoff))

/-- An access of another width or alignment, or past the end, is a bad access (R398). -/
theorem exec_hostDoorWrite_of_bad {w : Bool} {off n : Nat} {v : Word} {s : State} (hw : working s = true)
    (hbad : n ≠ 4 ∨ off % 4 ≠ 0 ∨ 0x80000 ≤ off) : exec (.hostDoorWrite ⟨w, off, n, v⟩) s =
      .next (if w then badAccess true off s.fresh else answerRead 0 (badAccess false off s.fresh)) := by
  have hinvalid : (n != 4 || off % 4 != 0 || decide (off ≥ 0x80000)) = true := by
    simpa [or_assoc] using hbad
  have hworks : ¬ (!working s.fresh) = true := by simp [hw]
  exact congrArg Host.Outcome.next ((if_pos hinvalid).trans (if_neg hworks))

theorem commandTake_of_ready {v : Word} {s : State} (hw : working s = true) (hhub : s.build.hub = false) (hready : s.host.busy = false) :
    let x := writeWindow (takeOffset s) v s
    commandTake v s = arrivePacket .host (windowPacket x) (setHost (fun h => { h with busy := true, replyReady := false }) x) := by
  have hguard : ¬ (!working s || s.build.hub) = true := by simp [hw, hhub]
  exact (if_neg hguard).trans (if_neg (ne_true_of_eq_false hready))

/-- Settles O54: a whole access is `hostRead` or `hostWrite`, and another one is bad. -/
theorem hostDoorAccesses : Obligations.HostDoorAccesses := by
  unfold Obligations.HostDoorAccesses
  refine ⟨fun off v s hw hhub halign hoff => ?window, fun w off n v s hw hbad => ?bad, ?take⟩
  case window =>
    have hlt : off < 0x80000 := Nat.lt_of_lt_of_le hoff (by decide)
    have hwrite : exec (.hostDoorWrite ⟨true, off, 4, v⟩) s = .next (hostWrite off v s.fresh) := exec_hostDoorWrite_write_of_aligned halign hlt v s
    have hwindow := hostWrite_of_window v (s := s.fresh) hw hhub hoff
    refine ⟨?_, fun hbusy => ?_, fun hready hother => ?_⟩
    · exact (exec_hostDoorWrite_read_of_aligned halign hlt v s).trans (congrArg _ (hostRead_of_window (s := s.fresh) hw hhub hoff))
    · exact hwrite.trans (congrArg _ (hwindow.trans (if_pos hbusy)))
    · have hlast : ¬ (off == takeOffset s.fresh) = true := by
        rw [beq_iff_eq]
        exact hother
      refine ⟨memWrite s.host.cmdWin off (toLe 4 v.toNat), ?_, ?_, fun a ha => ?_⟩
      · exact hwrite.trans (congrArg _ (hwindow.trans ((if_neg (ne_true_of_eq_false hready)).trans (if_neg hlast))))
      · simpa using memRead_memWrite_same s.host.cmdWin off (toLe 4 v.toNat)
      · exact memGet_memWrite_out s.host.cmdWin off a (toLe 4 v.toNat) (by simpa using ha)
  case bad =>
    refine ⟨_, exec_hostDoorWrite_of_bad hw hbad, ?_⟩
    cases w
    · exact ⟨rfl, fun _ => rfl, rfl, rfl⟩
    · exact ⟨rfl, fun h => Bool.noConfusion h, rfl, rfl⟩
  case take =>
    intro n v s u hw hhub hready x
    exact congrArg Host.Outcome.next (commandTake_of_ready hw hhub hready)

/-! ### Reads that latch (R93, R359, R399, R408, R410) -/

theorem bits_zero (v n : Nat) : bits v 0 n = v % 2 ^ n := by
  rw [bits, Nat.pow_zero, Nat.div_one]

theorem ofNat_bits_word (v : Nat) : BitVec.ofNat 32 (bits v 0 32) = BitVec.ofNat 32 v := by
  rw [bits_zero]
  exact BitVec.eq_of_toNat_eq (by simp)

theorem hostRead_timeLatch {s : State} (hw : working s = true) : hostRead 0x1044 s = answerRead (secOf s.time.now % 2 ^ 32) (latchTime s) := by
  have hword (t : State) : regWord 0x1044 t = some (bits t.host.timLatch.1 0 32) := rfl
  have hlatch : latchFor 0x1044 s = latchTime s := rfl
  rw [hostRead_of_register hw (by decide) (by decide) (hword s), hlatch, hword, Option.getD_some, bits_zero]
  rfl

theorem hostRead_counterLatch {s : State} (hw : working s = true) :
    hostRead 0x10C8 s = answerRead (bits (latchCounter s).host.ctrData.toNat 0 32) (latchCounter s) := by
  have hword (t : State) : regWord 0x10C8 t = some (bits t.host.ctrData.toNat 0 32) := rfl
  have hlatch : latchFor 0x10C8 s = latchCounter s := rfl
  rw [hostRead_of_register hw (by decide) (by decide) (hword s), hlatch, hword, Option.getD_some]

theorem hostRead_recorderLatch {s : State} (hw : working s = true) : hostRead 0x1108 s = answerRead (s.evr.head % 2 ^ 32) (latchRecorder s) := by
  have hword (t : State) : regWord 0x1108 t = some (bits t.host.evrHead 0 32) := rfl
  have hlatch : latchFor 0x1108 s = latchRecorder s := rfl
  rw [hostRead_of_register hw (by decide) (by decide) (hword s), hlatch, hword, Option.getD_some, bits_zero]
  rfl

theorem hostRead_errorLatch {s : State} (hw : working s = true) (hhub : s.build.hub = false) :
    hostRead 0x1080 s = answerRead (bits s.err.next 0 32) (latchErrors s) := by
  have hword {t : State} (ht : t.build.hub = false) : regWord 0x1080 t = some (bits t.host.errLatch.1 0 32) :=
    congrArg some (if_neg (ne_true_of_eq_false ht))
  have hlatch : latchFor 0x1080 s = latchErrors s := if_neg (ne_true_of_eq_false hhub)
  rw [hostRead_of_register hw (by decide) (by decide) (hword hhub), hlatch, hword (t := latchErrors s) hhub, Option.getD_some]
  rfl

/-- The counter that the selection registers name. -/
def selectedCtr (s : State) : Ctr := tget {} (if s.build.hub then bits s.host.ctrSelHi.toNat 0 14 else bits s.host.ctrSel.toNat 0 13) s.win.ctrs

/-- The latch takes the selected counter's flags and the copy that the selection asks for. -/
theorem latchCounter_host (s : State) : let t := latchCounter s; let copy := bits s.host.ctrSel.toNat 26 2
    t.host.ctrFlags = ctrFlags (selectedCtr s) ∧
    (copy = 0 ∨ copy = 3 → t.host.ctrData = BitVec.ofNat 64 (selectedCtr s).live) ∧
    (copy = 1 → t.host.ctrData = BitVec.ofNat 64 (selectedCtr s).prev) ∧
    (copy = 2 → t.host.ctrData = BitVec.ofNat 64 ((selectedCtr s).delta.getD 0) ∧ t.host.ctrAbsent = (selectedCtr s).delta.isNone) := by
  intro t copy
  have hdata : t.host.ctrData = BitVec.ofNat 64 (match copy with | 1 => (selectedCtr s).prev | 2 => (selectedCtr s).delta.getD 0 | _ => (selectedCtr s).live) := rfl
  have habsent : t.host.ctrAbsent = (copy == 2 && (selectedCtr s).delta.isNone) := rfl
  rw [hdata, habsent]
  clear_value copy
  refine ⟨rfl, ?_, ?_, ?_⟩
  · rintro (rfl | rfl) <;> rfl
  · rintro rfl
    rfl
  · rintro rfl
    exact ⟨rfl, Bool.true_and _⟩

/-- On the edge of a tick the frame is the one that the tick begins (R410). -/
theorem frameAt_of_running {m t : Nat} {sw : Bool} {s : State} (hnext : nextFrame s = (m, t, sw)) (hrun : s.time.running = true) :
    frameAt s = if t ≤ s.time.now then m else curFrame s := by
  unfold frameAt
  rw [hnext]
  simp [hrun]

/-- Settles O55: a latching read is its register's word after its latch. -/
theorem latchingReads : Obligations.LatchingReads := by
  unfold Obligations.LatchingReads
  refine ⟨?time, fun s hw => ?counter, fun s hw => ?recorder, fun s hw hhub => ?errors⟩
  case time =>
    intro n s u hw
    refine ⟨congrArg Host.Outcome.next (hostRead_timeLatch hw), fun m t sw hnext hrun => ⟨fun hdue => ?_, fun hahead => ?_⟩⟩
    · exact (frameAt_of_running hnext hrun).trans (if_pos hdue)
    · exact (frameAt_of_running hnext hrun).trans (if_neg (Nat.not_le.2 hahead))
  case counter =>
    refine ⟨_, congrArg Host.Outcome.next (hostRead_counterLatch (s := s.fresh) hw), ofNat_bits_word _, ?_⟩
    rintro i rfl
    exact latchCounter_host s.fresh
  case recorder => exact congrArg Host.Outcome.next (hostRead_recorderLatch (s := s.fresh) hw)
  case errors => exact ⟨_, congrArg Host.Outcome.next (hostRead_errorLatch (s := s.fresh) hw hhub), rfl, ofNat_bits_word _⟩

end Sys2Proof.Machine
end
